-- ==== Sys2Proof/Word.lean ====
section
/-!
DEFINITION. The word types of the module: the 32-bit register word of R5, the byte of a memory cell,
the 64-bit scalar of a crew (Table 6.1) and the wide words of the vector, predicate and bundle files.
-/
namespace Sys2Proof

/-- A control register (00_scope R5). -/
abbrev Word := BitVec 32
/-- One byte of memory. -/
abbrev Byte := BitVec 8
/-- A scalar register of a crew (06 Table 6.1). -/
abbrev Dword := BitVec 64
/-- A vector register of a crew: 512 lanes of 32 bits (06 Table 6.1). -/
abbrev VReg := BitVec 16384
/-- A predicate register of a crew: 512 bits (06 Table 6.1). -/
abbrev PReg := BitVec 512
/-- A bundle (06 R143). -/
abbrev BundleWord := BitVec 256
/-- A scalar, load or store slot field (06 Table 6.2). -/
abbrev Slot40 := BitVec 40
/-- A vector or matrix slot field (06 Table 6.2). -/
abbrev Slot48 := BitVec 48
/-- A sync slot field (06 Table 6.2). -/
abbrev Slot32 := BitVec 32

end Sys2Proof
end

