-- ==== Sys2Proof/Syntax.lean ====
section
/-!
DEFINITION. The commands of the module: one constructor per row of spec/opcode_table.json, each with the operands
that its rule names: the register or address, the slot's bits and its crew, the subject of an event, and what comes
from outside the module (a packet, a measurement, an outcome of a physical process).
-/
namespace Sys2Proof

/-- Who makes an access to the control space (19 R502). -/
inductive Writer where
  | host | foreman | engine
deriving DecidableEq, Repr

/-- A crew of a stope: module-wide stope number 0-143 and crew number 0-15 (01 R19, 06 R140). -/
structure CrewRef where
  stope : Nat
  crew : Nat
deriving DecidableEq, Repr

/-- The holder of a wait (08 R225). -/
inductive Waiter where
  | crew (c : CrewRef)
  | shaft (n : Nat)
deriving DecidableEq, Repr

/-- A remote tally signal (08 R229): sender's node address, step number and epoch, tally, operation and value. -/
structure SignalMsg where
  src : Nat
  step : Nat
  epoch : Nat
  tally : Nat
  set : Bool
  value : Nat
deriving DecidableEq, Repr

/-- A banked memory (09 R241, R242): the face memory of a stope or the stockpile of a level. -/
inductive BankMem where
  | face (stope : Nat)
  | stockpile (level : Nat)
deriving DecidableEq, Repr

/-- What the code of R253 finds when a word is read: nothing, one corrected bit, or an uncorrectable syndrome. -/
inductive Ecc where
  | clean
  | corrected
  | uncorrectable (syndrome : Nat)
deriving DecidableEq, Repr

/-- One access to one row of a bank (09 R241): byte offset in the memory, bytes, and for a write its data and byte
enables; for a read what the code finds in the word at the offset. -/
structure BankAcc where
  off : Nat
  len : Nat
  write : Bool
  data : Nat
  en : Nat
  ecc : Ecc
deriving DecidableEq, Repr

/-- A locked sequence that a request starts (09 Table 9.3). -/
inductive LockOp where
  | add (off size : Nat) (val : Nat)
  | swap (off size : Nat) (val : Nat)
  | lodeElem (off : Nat) (fmt : Nat) (mx : Bool) (scale bits : Nat)
  | lodeValue (off : Nat) (image : Nat)
  | writeback (off : Nat)
  | copyIn (region row : Nat)
  | copyBack (region row : Nat)
deriving DecidableEq, Repr

/-- A protected memory beside the banks (09 R253): the lode store of a stope, or the other SRAMs and datapaths of a level (0, 1)
or of the headframe (2). -/
inductive OtherMem where
  | lodeStore (stope : Nat)
  | other (l : Nat)
deriving DecidableEq, Repr

/-- A port's request in a cycle (09 R243-R246): plain accesses, all-or-nothing, or a locked sequence; the step whose
work makes it (none for BAR2, R251), the shaft or stope whose work it is, the crew it works for, if any, and what the code
finds in the other memories and the datapaths that it passes (R253). -/
structure BankReq where
  port : Nat
  acc : List BankAcc
  lock : Option LockOp
  step : Option Nat
  src : Nat
  crew : Option CrewRef
  along : List (OtherMem × Ecc)
deriving DecidableEq, Repr

/-- What the background engine tests (09 R257, R258). -/
inductive TestMem where
  | face (stope : Nat)
  | lodeStore (stope : Nat)
  | stockpile (level : Nat)
deriving DecidableEq, Repr

/-- What the code finds in a word of memory, by its physical address (09 R254, R255, R261). -/
structure WordFind where
  word : Nat
  ecc : Ecc
deriving DecidableEq, Repr

/-- A configuration write that changes the function's state (19 R499): D3hot or D0, log2 of the size of BAR2, ATS. -/
inductive ConfigWrite where
  | power (d3hot : Bool)
  | bar2Size (log2 : Nat)
  | ats (on : Bool)
deriving DecidableEq, Repr

/-- How a Lyselm command reaches the foreman (19 R512, R523): from the cage it has acknowledged, or as a request on the
sideband with its OPC and request bytes. -/
inductive Ask where
  | cage
  | sideband (opc reqlen req : Nat)
deriving DecidableEq, Repr

/-- How a tag ends (10 R277, R289, R292): its data, with what the code finds in the source words, or a failure of the port of its
source (`side` false) or destination: an error of the port, a completer abort, or a Translation Request that the host answers
without the needed permission (19 R504). -/
inductive TagResult where
  | ok (found : List WordFind)
  | portError (side : Bool)
  | aborted (side : Bool)
  | denied (side : Bool)
deriving DecidableEq, Repr

/-- A reduction in the vector slot (05 R134, R137; 07 R184): its bits, and whether the two comparator trees of a selecting one, or the
residue of a sum, disagree. -/
structure RedSlot where
  slot : Slot48
  mismatch : Bool
deriving DecidableEq, Repr

/-- What a CXL port does not support (10 Table 10.8). -/
inductive CxlNeed where
  | cache | otherType | switch | multiLogical | dynamicCapacity | persistentFlush | backInvalidation | interleave | ide
deriving DecidableEq, Repr

/-- The device that the foreman finds at a CXL port (10 R290, R291): whether its link has trained, lanes, speed (1 16 GT/s, 2 32
GT/s, 3 64 GT/s), whether it uses 256-byte flits, its capacity in units of 256 MiB, and what it needs that no port supports. -/
structure CxlDevice where
  linkUp : Bool
  width : Nat
  speed : Nat
  flit256 : Bool
  units : Nat
  needs : List CxlNeed
deriving DecidableEq, Repr

/-- A fabric packet (11 Table 11.3): its header fields and its payload as a little-endian number of `plen` bytes. -/
structure Packet where
  dst : Nat
  cls : Nat
  half : Bool
  esc : Bool
  mcast : Bool
  repoch : Nat
  src : Nat
  kind : Nat
  hops : Nat
  plen : Nat
  last : Bool
  prov : Bool
  poison : Bool
  rsig : Bool
  tepoch : Nat
  xfer : Nat
  addr : Nat
  count : Nat
  rtally : Nat
  ticket : Nat
  payload : Nat
deriving DecidableEq, Repr

/-- What is sampled at a frame boundary (17 R456, R474): frame means of inlet and outlet in 1/16 degree, coolant flow in
mL/min, the edge on WHISTLE_IN with its correction in ps, if one came, and the CXL ports whose retraining succeeds. -/
structure Boundary where
  tIn : Int
  tOut : Int
  flow : Nat
  edge : Option Int
  cxlUp : Nat
deriving DecidableEq, Repr

/-- What the estimate loop forms from the activity counters, the energy table and the temperatures (17 Table 17.2), in mW:
the raw estimate, and the draw of links, memory, headframe engines with other logic and regulator loss, and compute; and
the hottest junction of each level in 1/16 degree. -/
structure Estimate where
  raw : Nat
  links : Nat
  hbm : Nat
  other : Nat
  compute : Nat
  tj0 : Int
  tj1 : Int
deriving DecidableEq, Repr

/-- The commands of the block: one constructor per row of spec/opcode_table.json, in its order. -/
inductive Instr where
  /-- REGISTER_WRITE (R8). -/
  | registerWrite (who : Writer) (off size val en : Nat)
  /-- UNASSIGNED_OFFSET_READ (R8). -/
  | unassignedOffsetRead (who : Writer) (off size : Nat)
  /-- FRAME_BOUNDARY (R27). -/
  | frameBoundary (b : Boundary)
  /-- WHISTLE_OUT_EDGE (R456). -/
  | whistleOutEdge
  /-- CANARY_FORCE (R423). -/
  | canaryForce (stope : Nat)
  /-- CANARY_LATE (R423). -/
  | canaryLate (stope : Nat)
  /-- MT_ZC (R185). -/
  | mtZc (c : CrewRef) (slot : Slot48)
  /-- MT_ZL (R185). -/
  | mtZl (c : CrewRef) (slot : Slot48)
  /-- MT_ZR (R185). -/
  | mtZr (c : CrewRef) (slot : Slot48)
  /-- MT_IC (R185). -/
  | mtIc (c : CrewRef) (slot : Slot48)
  /-- MT_IL (R185). -/
  | mtIl (c : CrewRef) (slot : Slot48)
  /-- MT_IR (R185). -/
  | mtIr (c : CrewRef) (slot : Slot48)
  /-- MT_HC (R185). -/
  | mtHc (c : CrewRef) (slot : Slot48)
  /-- MT_HL (R185). -/
  | mtHl (c : CrewRef) (slot : Slot48)
  /-- MT_HR (R185). -/
  | mtHr (c : CrewRef) (slot : Slot48)
  /-- MFREE (R187). -/
  | mfree (c : CrewRef) (slot : Slot48)
  /-- MWAIT (R187). -/
  | mwait (c : CrewRef) (slot : Slot48)
  /-- DRILL_PASS_START (R100). -/
  | drillPassStart (stope : Nat)
  /-- DRILL_ARRAY_CYCLE (R102). -/
  | drillArrayCycle (stope place : Nat) (conflict : Bool)
  /-- DRILL_PASS_END (R98). -/
  | drillPassEnd (stope place : Nat)
  /-- TILE_WIDEN_RERUN (R107). -/
  | tileWidenRerun (stope ctx : Nat)
  /-- TILE_CHECK_COMPLETE (R115). -/
  | tileCheckComplete (stope ctx : Nat) (residueBad : Bool)
  /-- TILE_COMMIT (R109). -/
  | tileCommit (stope ctx : Nat)
  /-- TILE_CONTEXT_SAVE (R112). -/
  | tileContextSave (stope ctx : Nat)
  /-- VADD (R122). -/
  | vadd (c : CrewRef) (slot : Slot48)
  /-- VSUB (R122). -/
  | vsub (c : CrewRef) (slot : Slot48)
  /-- VMUL (R122). -/
  | vmul (c : CrewRef) (slot : Slot48)
  /-- VFMA (R122). -/
  | vfma (c : CrewRef) (slot : Slot48)
  /-- VMIN (R181). -/
  | vmin (c : CrewRef) (slot : Slot48)
  /-- VMAX (R181). -/
  | vmax (c : CrewRef) (slot : Slot48)
  /-- VABS (R179). -/
  | vabs (c : CrewRef) (slot : Slot48)
  /-- VNEG (R179). -/
  | vneg (c : CrewRef) (slot : Slot48)
  /-- VCMP (R181). -/
  | vcmp (c : CrewRef) (slot : Slot48)
  /-- VSEL (R179). -/
  | vsel (c : CrewRef) (slot : Slot48)
  /-- VCVT (R182). -/
  | vcvt (c : CrewRef) (slot : Slot48)
  /-- VTR (R123). -/
  | vtr (c : CrewRef) (slot : Slot48)
  /-- VIADD (R124). -/
  | viadd (c : CrewRef) (slot : Slot48)
  /-- VISUB (R124). -/
  | visub (c : CrewRef) (slot : Slot48)
  /-- VIMUL (R124). -/
  | vimul (c : CrewRef) (slot : Slot48)
  /-- VAND (R124). -/
  | vand (c : CrewRef) (slot : Slot48)
  /-- VOR (R124). -/
  | vor (c : CrewRef) (slot : Slot48)
  /-- VXOR (R124). -/
  | vxor (c : CrewRef) (slot : Slot48)
  /-- VSHL (R124). -/
  | vshl (c : CrewRef) (slot : Slot48)
  /-- VSHR (R124). -/
  | vshr (c : CrewRef) (slot : Slot48)
  /-- VSAR (R124). -/
  | vsar (c : CrewRef) (slot : Slot48)
  /-- VICMP (R179). -/
  | vicmp (c : CrewRef) (slot : Slot48)
  /-- PAND (R179). -/
  | pand (c : CrewRef) (slot : Slot48)
  /-- POR (R179). -/
  | por (c : CrewRef) (slot : Slot48)
  /-- PXOR (R179). -/
  | pxor (c : CrewRef) (slot : Slot48)
  /-- PNOT (R179). -/
  | pnot (c : CrewRef) (slot : Slot48)
  /-- VBCST (R179). -/
  | vbcst (c : CrewRef) (slot : Slot48)
  /-- VIOTA (R179). -/
  | viota (c : CrewRef) (slot : Slot48)
  /-- VDROP (R183). -/
  | vdrop (c : CrewRef) (slot : Slot48)
  /-- VRAND (R127). -/
  | vrand (c : CrewRef) (slot : Slot48)
  /-- VRED (R184). -/
  | vred (c : CrewRef) (red : RedSlot)
  /-- DUPLICATE_ISSUE (R136). -/
  | duplicateIssue (stope crew : Nat)
  /-- DUPLICATE_COMPLETE (R137). -/
  | duplicateComplete (c : CrewRef) (mismatch : Bool)
  /-- ONSETTER_DISPATCH (R221). -/
  | onsetterDispatch (level : Nat)
  /-- BUNDLE_FETCH (R149). -/
  | bundleFetch (c : CrewRef)
  /-- ADD (R176). -/
  | add (c : CrewRef) (slot : Slot40)
  /-- SUB (R176). -/
  | sub (c : CrewRef) (slot : Slot40)
  /-- MUL (R176). -/
  | mul (c : CrewRef) (slot : Slot40)
  /-- MULHU (R176). -/
  | mulhu (c : CrewRef) (slot : Slot40)
  /-- AND (R176). -/
  | and (c : CrewRef) (slot : Slot40)
  /-- OR (R176). -/
  | or (c : CrewRef) (slot : Slot40)
  /-- XOR (R176). -/
  | xor (c : CrewRef) (slot : Slot40)
  /-- SHL (R176). -/
  | shl (c : CrewRef) (slot : Slot40)
  /-- SHR (R176). -/
  | shr (c : CrewRef) (slot : Slot40)
  /-- SAR (R176). -/
  | sar (c : CrewRef) (slot : Slot40)
  /-- MIN (R176). -/
  | min (c : CrewRef) (slot : Slot40)
  /-- MAX (R176). -/
  | max (c : CrewRef) (slot : Slot40)
  /-- MINU (R176). -/
  | minu (c : CrewRef) (slot : Slot40)
  /-- MAXU (R176). -/
  | maxu (c : CrewRef) (slot : Slot40)
  /-- SLT (R176). -/
  | slt (c : CrewRef) (slot : Slot40)
  /-- SLTU (R176). -/
  | sltu (c : CrewRef) (slot : Slot40)
  /-- SEQ (R176). -/
  | seq (c : CrewRef) (slot : Slot40)
  /-- MOVI (R176). -/
  | movi (c : CrewRef) (slot : Slot40)
  /-- ADDI (R176). -/
  | addi (c : CrewRef) (slot : Slot40)
  /-- ANDI (R176). -/
  | andi (c : CrewRef) (slot : Slot40)
  /-- ORI (R176). -/
  | ori (c : CrewRef) (slot : Slot40)
  /-- XORI (R176). -/
  | xori (c : CrewRef) (slot : Slot40)
  /-- SHLI (R176). -/
  | shli (c : CrewRef) (slot : Slot40)
  /-- SHRI (R176). -/
  | shri (c : CrewRef) (slot : Slot40)
  /-- SARI (R176). -/
  | sari (c : CrewRef) (slot : Slot40)
  /-- INSI (R176). -/
  | insi (c : CrewRef) (slot : Slot40)
  /-- BEQ (R177). -/
  | beq (c : CrewRef) (slot : Slot40)
  /-- BNE (R177). -/
  | bne (c : CrewRef) (slot : Slot40)
  /-- BLT (R177). -/
  | blt (c : CrewRef) (slot : Slot40)
  /-- BGE (R177). -/
  | bge (c : CrewRef) (slot : Slot40)
  /-- BLTU (R177). -/
  | bltu (c : CrewRef) (slot : Slot40)
  /-- BGEU (R177). -/
  | bgeu (c : CrewRef) (slot : Slot40)
  /-- JMP (R177). -/
  | jmp (c : CrewRef) (slot : Slot40)
  /-- LOOP (R178). -/
  | loop (c : CrewRef) (slot : Slot40)
  /-- LDS (R189). -/
  | lds (c : CrewRef) (slot : Slot40)
  /-- LDV (R189). -/
  | ldv (c : CrewRef) (slot : Slot40)
  /-- LDVW (R190). -/
  | ldvw (c : CrewRef) (slot : Slot40)
  /-- LDP (R189). -/
  | ldp (c : CrewRef) (slot : Slot40)
  /-- LDXCH (R189). -/
  | ldxch (c : CrewRef) (slot : Slot40)
  /-- LDLC (R191). -/
  | ldlc (c : CrewRef) (slot : Slot40)
  /-- STS (R193). -/
  | sts (c : CrewRef) (slot : Slot40)
  /-- STV (R193). -/
  | stv (c : CrewRef) (slot : Slot40)
  /-- STP (R193). -/
  | stp (c : CrewRef) (slot : Slot40)
  /-- STADD (R193). -/
  | stadd (c : CrewRef) (slot : Slot40)
  /-- STLADD (R194). -/
  | stladd (c : CrewRef) (slot : Slot40)
  /-- TADD (R197). -/
  | tadd (c : CrewRef) (slot : Slot32)
  /-- TSET (R197). -/
  | tset (c : CrewRef) (slot : Slot32)
  /-- TWAIT (R199). -/
  | twait (c : CrewRef) (slot : Slot32)
  /-- TREAD (R197). -/
  | tread (c : CrewRef) (slot : Slot32)
  /-- TADDX (R198). -/
  | taddx (c : CrewRef) (slot : Slot32)
  /-- TSETX (R198). -/
  | tsetx (c : CrewRef) (slot : Slot32)
  /-- END (R204). -/
  | endOp (c : CrewRef) (slot : Slot32)
  /-- TWAIT_SATISFIED (R227). -/
  | twaitSatisfied (w : Waiter)
  /-- TWAIT_TIMEOUT (R200). -/
  | twaitTimeout (c : CrewRef)
  /-- INSTANCE_COMMIT (R166). -/
  | instanceCommit (c : CrewRef)
  /-- SWITCH_WAIT_EXPIRY (R167). -/
  | switchWaitExpiry (c : CrewRef)
  /-- PREEMPT_REQUEST (R224). -/
  | preemptRequest (level : Nat)
  /-- CREW_SAVE (R168). -/
  | crewSave (c : CrewRef)
  /-- CREW_RESUME (R169). -/
  | crewResume (stope : Nat)
  /-- SHAFT_DOORBELL (R207). -/
  | shaftDoorbell (shaft val : Nat)
  /-- SHAFT_ENABLE (R205). -/
  | shaftEnable (shaft : Nat)
  /-- SHAFT_DISABLE (R205). -/
  | shaftDisable (shaft : Nat)
  /-- SHAFT_RESUME (R235). -/
  | shaftResume (shaft : Nat)
  /-- SHAFT_ABORT (R235). -/
  | shaftAbort (shaft : Nat)
  /-- NOP (R213). -/
  | nop (shaft : Nat)
  /-- STEP_BEGIN (R214). -/
  | stepBegin (shaft : Nat)
  /-- DISPATCH (R218). -/
  | dispatch (shaft : Nat)
  /-- ASSAY_CLEAR (R213). -/
  | assayClear (shaft : Nat)
  /-- TALLY (R213). -/
  | tally (shaft : Nat)
  /-- PHASE (R398). -/
  | phase (shaft : Nat)
  /-- STEP_END (R421). -/
  | stepEnd (shaft : Nat)
  /-- COPY (R272). -/
  | copy (shaft : Nat)
  /-- COLLECTIVE (R335). -/
  | collective (shaft : Nat)
  /-- RIFFLE_DISPATCH (R365). -/
  | riffleDispatch (shaft : Nat)
  /-- RIFFLE_COMBINE (R369). -/
  | riffleCombine (shaft : Nat)
  /-- RIFFLE_TEACH (R373). -/
  | riffleTeach (shaft : Nat)
  /-- SMELT_UPDATE (R382). -/
  | smeltUpdate (shaft : Nat)
  /-- SMELT_INIT (R379). -/
  | smeltInit (shaft : Nat)
  /-- SMELT_REBASE (R395). -/
  | smeltRebase (shaft : Nat)
  /-- SNAPSHOT (R433). -/
  | snapshot (shaft : Nat)
  /-- COMMAND_COMPLETE (R211). -/
  | commandComplete (shaft : Nat)
  /-- TLY_HOST_SET (R228). -/
  | tlyHostSet (tally : Nat)
  /-- TLY_HOST_ADD (R228). -/
  | tlyHostAdd (tally : Nat)
  /-- REMOTE_SIGNAL_ARRIVE (R229). -/
  | remoteSignalArrive (m : SignalMsg)
  /-- STALL_DECLARE (R232). -/
  | stallDeclare
  /-- BANK_GRANT (R244). -/
  | bankGrant (m : BankMem) (reqs : List BankReq)
  /-- PORT_PROMOTE (R245). -/
  | portPromote (m : BankMem) (bank port : Nat)
  /-- BANK_ATOMIC_COMPLETE (R248). -/
  | bankAtomicComplete (id : Nat)
  /-- CORRECTION_WRITEBACK (R254). -/
  | correctionWriteback (m : BankMem) (bank : Nat)
  /-- BACKGROUND_WINDOW_CLOSE (R256). -/
  | backgroundWindowClose
  /-- SRAM_REGION_TEST (R257). -/
  | sramRegionTest (m : TestMem) (region : Nat) (fails : List Nat)
  /-- PATROL_SCRUB (R261). -/
  | patrolScrub (stack : Nat) (found : List WordFind)
  /-- HBM_ROW_SPARE (R262). -/
  | hbmRowSpare (stack : Nat) (found : List WordFind) (resource : Bool)
  /-- HBM_RECALIBRATE (R260): one of the four controllers of a level. -/
  | hbmRecalibrate (level controller : Nat)
  /-- INTERLEAVE_WRITE (R240). -/
  | interleaveWrite (val : Nat)
  /-- HBM_UE_ADDR_READ (R265). -/
  | hbmUeAddrRead (stack : Nat)
  /-- STREAM_ACCEPT (R270). -/
  | streamAccept (skip : Nat)
  /-- TAG_ISSUE (R273). -/
  | tagIssue (skip : Nat)
  /-- TAG_COMPLETE (R277). -/
  | tagComplete (skip stream tag : Nat) (r : TagResult)
  /-- STREAM_COMPLETE (R274). -/
  | streamComplete (skip stream : Nat)
  /-- STREAM_RESUME (R287). -/
  | streamResume (fid : Nat)
  /-- STREAM_RESUME_ABORT (R287). -/
  | streamResumeAbort (fid : Nat)
  /-- TLB_INVALIDATE_PAGE (R284). -/
  | tlbInvalidatePage (big : Bool)
  /-- TLB_INVALIDATE_ALL (R284). -/
  | tlbInvalidateAll
  /-- TLB_INVALIDATE_DONE (R284). -/
  | tlbInvalidateDone
  /-- SKP_SHARE_WRITE (R293). -/
  | skpShareWrite (val : Nat)
  /-- CXL_REQUEST_TIMEOUT (R292). -/
  | cxlRequestTimeout (port skip stream : Nat)
  /-- CXL_LINK_DOWN (R292). -/
  | cxlLinkDown (port : Nat)
  /-- ADIT_TRAIN (R297). -/
  | aditTrain (adit peerNode peerAdit rtt lanes : Nat)
  /-- LINK_BLOCK_SEND (R299). -/
  | linkBlockSend (adit : Nat)
  /-- LINK_BLOCK_RECEIVE (R300). -/
  | linkBlockReceive (adit block corrected : Nat) (fecOk : Bool)
  /-- ADIT_RETRAIN (R300). -/
  | aditRetrain (adit : Nat)
  /-- RETRAIN_ATTEMPT_END (R300). -/
  | retrainAttemptEnd (adit : Nat) (ok : Bool)
  /-- LANE_FAIL (R302). -/
  | laneFail (adit lane : Nat)
  /-- LANE_SPARE_TRAINED (R302). -/
  | laneSpareTrained (adit : Nat) (ok : Bool)
  /-- PACKET_ROUTE (R312). -/
  | packetRoute (port : Option Nat) (gal : Nat) (esc : Bool)
  /-- ESC_WAIT_EXPIRY (R313). -/
  | escWaitExpiry (port : Option Nat) (gal : Nat)
  /-- ROUTE_ARM (R316). -/
  | routeArm
  /-- ROUTE_ENTRY_WRITE (R316). -/
  | routeEntryWrite (off val : Nat)
  /-- ROUTE_BANK_DRAIN_END (R317). -/
  | routeBankDrainEnd
  /-- GAL_MARK_WRITE (R310). -/
  | galMarkWrite (gal val : Nat)
  /-- HEADROOM_WRITE (R310). -/
  | headroomWrite (val : Nat)
  /-- COUNTED_PACKET_ARRIVE (R321). -/
  | countedPacketArrive (p : Packet)
  /-- XACK_ARRIVE (R323). -/
  | xackArrive (p : Packet)
  /-- XNAK_ARRIVE (R324). -/
  | xnakArrive (p : Packet)
  /-- BUCKET_DEADLINE (R349). -/
  | bucketDeadline (bucket : Nat)
  /-- BUCKET_DELIVER (R343). -/
  | bucketDeliver (bucket : Nat)
  /-- BTAB_BASE_WRITE (R357). -/
  | btabBaseWrite (hi : Bool) (val : Nat)
  /-- CAPACITY_DECIDE (R366). -/
  | capacityDecide (entry : Nat)
  /-- RIFFLE_ROWS_SEND (R365). -/
  | riffleRowsSend (entry : Nat)
  /-- RETURN_ACCUMULATE (R369). -/
  | returnAccumulate (entry : Nat)
  /-- COMBINE_CONVERT (R371). -/
  | combineConvert (entry : Nat)
  /-- RFL_TAB_BASE_WRITE (R376). -/
  | rflTabBaseWrite (hi : Bool) (val : Nat)
  /-- SMELT_CHUNK (R391). -/
  | smeltChunk (smelt : Nat) (mismatch : Bool)
  /-- SMELT_FINISH (R392). -/
  | smeltFinish (smelt : Nat)
  /-- DPT_CTRL_WRITE (R404). -/
  | dptCtrlWrite (val : Nat)
  /-- TICKET_RESOLVE (R411). -/
  | ticketResolve (ticket : Nat)
  /-- VERDICT_ARRIVE (R413). -/
  | verdictArrive (p : Packet)
  /-- POISON_ARRIVE (R416). -/
  | poisonArrive (p : Packet)
  /-- VERDICT_STALL (R415). -/
  | verdictStall (shaft : Nat)
  /-- CANARY_FACE_WRITE (R426). -/
  | canaryFaceWrite (val : Nat)
  /-- PACK_ADDRESS_WRITE (R426). -/
  | packAddressWrite (idx val : Nat)
  /-- RESOLVE_RELEASE (R428). -/
  | resolveRelease
  /-- RESOLVE_ABORT (R428). -/
  | resolveAbort
  /-- COW_COPY (R434). -/
  | cowCopy (granule : Nat)
  /-- SNAPSHOT_REGION_COPY (R435). -/
  | snapshotRegionCopy
  /-- SNAPSHOT_SEAL (R436). -/
  | snapshotSeal
  /-- DROOP_EVENT (R463). -/
  | droopEvent (stope cycles : Nat)
  /-- POWER_ESTIMATE_TICK (R464). -/
  | powerEstimateTick (e : Estimate)
  /-- POWER_MEASUREMENT_SAMPLE (R464). -/
  | powerMeasurementSample (mw : Nat)
  /-- CAP_CONTROL_TICK (R467). -/
  | capControlTick
  /-- DEFER_LIMIT_EXPIRY (R470). -/
  | deferLimitExpiry
  /-- PROTECTION_TICK (R471). -/
  | protectionTick
  /-- DISAGREE_DECLARE (R465). -/
  | disagreeDeclare
  /-- RECALIBRATION_END (R465). -/
  | recalibrationEnd
  /-- DISTRUST_DECLARE (R466). -/
  | distrustDeclare
  /-- DISTRUST_CLEAR (R466). -/
  | distrustClear
  /-- LEVEL_DRAW_WINDOW (R472). -/
  | levelDrawWindow
  /-- SETPOINT_WRITE (R473). -/
  | setpointWrite (val : Nat)
  /-- WORD_RECEIVE (R460). -/
  | wordReceive (p : Packet)
  /-- REPORT_RECEIVE (R461). -/
  | reportReceive (p : Packet)
  /-- TIME_RECEIVE (R456). -/
  | timeReceive (p : Packet) (at_ : Nat)
  /-- FRAMENO_RECEIVE (R456). -/
  | framenoReceive (p : Packet)
  /-- TIMING_LOCKED (R458). -/
  | timingLocked
  /-- HOLDOVER_ENTER (R458). -/
  | holdoverEnter
  /-- UNALIGNED_SET (R458). -/
  | unalignedSet
  /-- WHISTLE_ENABLE (R455). -/
  | whistleEnable (val root : Nat)
  /-- POWER_ON_RESET (R478). -/
  | powerOnReset
  /-- PERST_ASSERT (R478). -/
  | perstAssert
  /-- PERST_DEASSERT (R483). -/
  | perstDeassert
  /-- HOT_RESET (R478). -/
  | hotReset
  /-- LINK_DOWN_RESET (R478). -/
  | linkDownReset
  /-- FUNCTION_LEVEL_RESET (R478). -/
  | functionLevelReset
  /-- MAILBOX_RESET (R478). -/
  | mailboxReset
  /-- SIDEBAND_RESET (R478). -/
  | sidebandReset
  /-- WATCHDOG_EXPIRY (R482). -/
  | watchdogExpiry
  /-- FOREMAN_TAKEOVER (R509). -/
  | foremanTakeover
  /-- THERMAL_TRIP (R475). -/
  | thermalTrip (junction : Int)
  /-- REGULATOR_FAULT (R478). -/
  | regulatorFault (input : Bool)
  /-- STANDBY_LOSS (R530). -/
  | standbyLoss
  /-- RST_OUT_DEASSERT (R483). -/
  | rstOutDeassert (stable : Bool)
  /-- DOMAIN_RELEASE (R484). -/
  | domainRelease (trained : Bool) (link : Nat) (devs : Option CxlDevice × Option CxlDevice)
  /-- RESET_CAUSE_CLEAR (R479). -/
  | resetCauseClear (val : Nat)
  /-- TRIP_RAIL_RESTORE (R481). -/
  | tripRailRestore (tOut : Int)
  /-- REGULATOR_RAIL_RESTORE (R481). -/
  | regulatorRailRestore
  /-- WATCHDOG_KICK (R482). -/
  | watchdogKick
  /-- BLOCK_RESET (R487). -/
  | blockReset (foreman : Bool) (block : Nat)
  /-- BLOCK_OFF (R487). -/
  | blockOff (foreman : Bool) (block : Nat)
  /-- BLOCK_ON (R487). -/
  | blockOn (foreman : Bool) (block : Nat)
  /-- BLOCK_IDLE_REPORT (R488). -/
  | blockIdleReport (block : Nat)
  /-- BLOCK_IDLE_TIMEOUT (R488). -/
  | blockIdleTimeout (block : Nat)
  /-- BLOCK_RESET_HOLD_END (R488). -/
  | blockResetHoldEnd (block : Nat)
  /-- BLOCK_RELEASE_END (R488). -/
  | blockReleaseEnd (block : Nat)
  /-- STRAP_SAMPLE (R491). -/
  | strapSample (ratio : Nat)
  /-- BOOT_VERIFY (R493). -/
  | bootVerify
  /-- INPUT_POWER_APPLY (R536). -/
  | inputPowerApply
  /-- PACKAGE_RAILS_UP (R536). -/
  | packageRailsUp
  /-- MODULE_REMOVE (R537). -/
  | moduleRemove
  /-- GET_VERSION (R497). -/
  | getVersion (via : Nat)
  /-- GET_CAPABILITIES (R497). -/
  | getCapabilities (via version : Nat)
  /-- NEGOTIATE_ALGORITHMS (R497). -/
  | negotiateAlgorithms (via : Nat) (ed25519 sha512 : Bool)
  /-- GET_DIGESTS (R497). -/
  | getDigests (via : Nat)
  /-- GET_CERTIFICATE (R497). -/
  | getCertificate (via slot offset length : Nat)
  /-- CHALLENGE (R497). -/
  | challenge (via slot nonce : Nat)
  /-- GET_MEASUREMENTS (R497). -/
  | getMeasurements (via index : Nat) (signed : Bool) (nonce : Nat)
  /-- BAR2_READ (R503). -/
  | bar2Read (off n : Nat)
  /-- BAR2_WRITE (R503). -/
  | bar2Write (off n val en : Nat)
  /-- ATS_INVALIDATION (R504). -/
  | atsInvalidation (addr n : Nat)
  /-- EVENT_STAT_CLEAR (R506). -/
  | eventStatClear (val raised : Nat)
  /-- EVENT_ENABLE_WRITE (R506). -/
  | eventEnableWrite (val : Nat)
  /-- VECTOR_UNMASK (R507). -/
  | vectorUnmask (vec : Nat) (mask : Bool)
  /-- GET_INFO (R516). -/
  | getInfo (ask : Ask)
  /-- GET_SENSORS (R516). -/
  | getSensors (ask : Ask) (temps : List Nat)
  /-- RESET (R516). -/
  | reset (ask : Ask)
  /-- GET_WAIT_GRAPH (R516). -/
  | getWaitGraph (ask : Ask)
  /-- GET_HEALTH (R516). -/
  | getHealth (ask : Ask)
  /-- GET_MEAS_LOG (R516). -/
  | getMeasLog (ask : Ask)
  /-- FENCE (R516). -/
  | fence (ask : Ask)
  /-- LOAD_PACK (R425). -/
  | loadPack (ask : Ask)
  /-- SET_PACK_KEY (R516). -/
  | setPackKey (ask : Ask)
  /-- FW_STAGE (R517). -/
  | fwStage (ask : Ask)
  /-- FW_ACTIVATE (R518). -/
  | fwActivate (ask : Ask)
  /-- FW_COMMIT (R519). -/
  | fwCommit (ask : Ask)
  /-- REVOKE_SLOT (R494). -/
  | revokeSlot (ask : Ask)
  /-- RAISE_SVN (R494). -/
  | raiseSvn (ask : Ask)
  /-- LONG_COMMAND_COMPLETE (R514). -/
  | longCommandComplete (longId : Nat)
  /-- I3C_ADDRESS_ASSIGN (R521). -/
  | i3cAddressAssign (setdasa : Bool) (static addr : Nat)
  /-- SET_ENDPOINT_ID (R522). -/
  | setEndpointId (via eid : Nat)
  /-- GET_ENDPOINT_ID (R522). -/
  | getEndpointId (via : Nat)
  /-- GET_MCTP_VERSION_SUPPORT (R522). -/
  | getMctpVersionSupport (via type : Nat)
  /-- GET_MESSAGE_TYPE_SUPPORT (R522). -/
  | getMessageTypeSupport (via : Nat)
  /-- GET_VENDOR_MESSAGE_SUPPORT (R522). -/
  | getVendorMessageSupport (via : Nat)
  /-- PLDM_BASE_REQUEST (R522). -/
  | pldmBaseRequest
  /-- PLDM_MONITORING_REQUEST (R522). -/
  | pldmMonitoringRequest (sensor : Nat)
  /-- PLDM_FIRMWARE_UPDATE (R522). -/
  | pldmFirmwareUpdate (bank len data : Nat)
  /-- ACTIVATE_FIRMWARE (R522). -/
  | activateFirmware
  /-- CAGE_DOORBELL (R511). -/
  | cageDoorbell (val : Nat)
  /-- HOST_COMPLETION_TIMEOUT (R525). -/
  | hostCompletionTimeout (skip stream tag : Nat)
  /-- CONFIGURATION_REQUEST (R499). -/
  | configurationRequest (w : ConfigWrite)
deriving DecidableEq, Repr

end Sys2Proof
end

