-- ==== Sys2Proof/Decode.lean ====
section
/-!
DEFINITION. Reading words: the six slots of a bundle (06 R143) and the command that each slot's bits spell (07), with
their encoding back; and the host's two questions on the opcode table, whose rows have no bits.
-/
namespace Sys2Proof

/-- The command a word of the opcode table's bits spells: none, since no row of the table gives bits.
(DESIGN CHOICE: notes/assumptions/3) -/
def decodeTableWord (_nbits _w : Nat) : Option Instr := none

/-! ## The bundle (06 Table 6.2) -/

/-- A bundle's slots, enabled or not, with their bits, and its HOLD bit and reserved bit 7. -/
structure Bundle where
  scalar : Option Slot40
  vector : Option Slot48
  matrix : Option Slot48
  load : Option Slot40
  store : Option Slot40
  sync : Option Slot32
  hold : Bool
  bit7 : Bool
deriving DecidableEq, Repr

/-- Read a bundle (Table 6.2): EN bit i enables slot i. -/
def decodeBundle (w : BundleWord) : Bundle where
  scalar := if w.getLsbD 0 then some (w.extractLsb' 8 40) else none
  vector := if w.getLsbD 1 then some (w.extractLsb' 48 48) else none
  matrix := if w.getLsbD 2 then some (w.extractLsb' 96 48) else none
  load := if w.getLsbD 3 then some (w.extractLsb' 144 40) else none
  store := if w.getLsbD 4 then some (w.extractLsb' 184 40) else none
  sync := if w.getLsbD 5 then some (w.extractLsb' 224 32) else none
  hold := w.getLsbD 6
  bit7 := w.getLsbD 7

/-- Write a bundle (Table 6.2): a disabled slot's bits are 0. -/
def encodeBundle (b : Bundle) : BundleWord :=
  b.sync.getD 0 ++ b.store.getD 0 ++ b.load.getD 0 ++ b.matrix.getD 0 ++ b.vector.getD 0 ++ b.scalar.getD 0
    ++ (BitVec.ofBool b.bit7 ++ BitVec.ofBool b.hold ++ BitVec.ofBool b.sync.isSome ++ BitVec.ofBool b.store.isSome
      ++ BitVec.ofBool b.load.isSome ++ BitVec.ofBool b.matrix.isSome ++ BitVec.ofBool b.vector.isSome
      ++ BitVec.ofBool b.scalar.isSome)

/-! ## The slots (07): a reserved opcode is given to the slot's first row, which performs its skip (R158) -/

/-- The command that a scalar slot's bits spell (Table 7.2). -/
def scalarCommand (c : CrewRef) (w : Slot40) : Instr :=
  match w.toNat >>> 34 with
  | 0x02 => .sub c w
  | 0x03 => .mul c w
  | 0x04 => .mulhu c w
  | 0x05 => .and c w
  | 0x06 => .or c w
  | 0x07 => .xor c w
  | 0x08 => .shl c w
  | 0x09 => .shr c w
  | 0x0A => .sar c w
  | 0x0B => .min c w
  | 0x0C => .max c w
  | 0x0D => .minu c w
  | 0x0E => .maxu c w
  | 0x0F => .slt c w
  | 0x10 => .sltu c w
  | 0x11 => .seq c w
  | 0x17 => .movi c w
  | 0x18 => .addi c w
  | 0x19 => .andi c w
  | 0x1A => .ori c w
  | 0x1B => .xori c w
  | 0x1C => .shli c w
  | 0x1D => .shri c w
  | 0x1E => .sari c w
  | 0x1F => .insi c w
  | 0x20 => .beq c w
  | 0x21 => .bne c w
  | 0x22 => .blt c w
  | 0x23 => .bge c w
  | 0x24 => .bltu c w
  | 0x25 => .bgeu c w
  | 0x26 => .jmp c w
  | 0x28 => .loop c w
  | _ => .add c w

/-- The command that a vector slot's bits spell (Table 7.4). -/
def vectorCommand (c : CrewRef) (w : Slot48) : Instr :=
  match w.toNat >>> 42 with
  | 0x02 => .vsub c w
  | 0x03 => .vmul c w
  | 0x04 => .vfma c w
  | 0x05 => .vmin c w
  | 0x06 => .vmax c w
  | 0x07 => .vabs c w
  | 0x08 => .vneg c w
  | 0x09 => .vcmp c w
  | 0x0A => .vsel c w
  | 0x0B => .vcvt c w
  | 0x0C => .vtr c w
  | 0x10 => .viadd c w
  | 0x11 => .visub c w
  | 0x12 => .vimul c w
  | 0x13 => .vand c w
  | 0x14 => .vor c w
  | 0x15 => .vxor c w
  | 0x16 => .vshl c w
  | 0x17 => .vshr c w
  | 0x18 => .vsar c w
  | 0x19 => .vicmp c w
  | 0x1C => .pand c w
  | 0x1D => .por c w
  | 0x1E => .pxor c w
  | 0x1F => .pnot c w
  | 0x20 => .vbcst c w
  | 0x21 => .viota c w
  | 0x24 => .vdrop c w
  | 0x25 => .vrand c w
  | 0x28 => .vred c ⟨w, false⟩
  | _ => .vadd c w

/-- The command that a matrix slot's bits spell (Table 7.8). -/
def matrixCommand (c : CrewRef) (w : Slot48) : Instr :=
  match w.toNat >>> 42 with
  | 0x11 => .mtZl c w
  | 0x12 => .mtZr c w
  | 0x14 => .mtIc c w
  | 0x15 => .mtIl c w
  | 0x16 => .mtIr c w
  | 0x18 => .mtHc c w
  | 0x19 => .mtHl c w
  | 0x1A => .mtHr c w
  | 0x20 => .mfree c w
  | 0x21 => .mwait c w
  | _ => .mtZc c w

/-- The command that a load slot's bits spell (Table 7.10). -/
def loadCommand (c : CrewRef) (w : Slot40) : Instr :=
  match w.toNat >>> 34 with
  | 0x02 => .ldv c w
  | 0x03 => .ldvw c w
  | 0x04 => .ldp c w
  | 0x05 => .ldxch c w
  | 0x06 => .ldlc c w
  | _ => .lds c w

/-- The command that a store slot's bits spell (Table 7.12). -/
def storeCommand (c : CrewRef) (w : Slot40) : Instr :=
  match w.toNat >>> 34 with
  | 0x02 => .stv c w
  | 0x03 => .stp c w
  | 0x04 => .stadd c w
  | 0x05 => .stladd c w
  | _ => .sts c w

/-- The command that a sync slot's bits spell (Table 7.14). -/
def syncCommand (c : CrewRef) (w : Slot32) : Instr :=
  match w.toNat >>> 26 with
  | 0x02 => .tset c w
  | 0x03 => .twait c w
  | 0x04 => .tread c w
  | 0x08 => .taddx c w
  | 0x09 => .tsetx c w
  | 0x10 => .endOp c w
  | _ => .tadd c w

/-- The commands of a bundle for a crew, in slot order (06 R143-R145). -/
def bundleCommands (c : CrewRef) (b : Bundle) : List Instr :=
  (b.scalar.map (scalarCommand c)).toList ++ (b.vector.map (vectorCommand c)).toList
    ++ (b.matrix.map (matrixCommand c)).toList ++ (b.load.map (loadCommand c)).toList
    ++ (b.store.map (storeCommand c)).toList ++ (b.sync.map (syncCommand c)).toList

/-- The slot number of a command of a bundle, its crew, its opcode and its bits. -/
def slotOf : Instr → Option (Nat × CrewRef × Nat × Nat)
  | .add c w => some (0, c, 0x01, w.toNat)
  | .sub c w => some (0, c, 0x02, w.toNat)
  | .mul c w => some (0, c, 0x03, w.toNat)
  | .mulhu c w => some (0, c, 0x04, w.toNat)
  | .and c w => some (0, c, 0x05, w.toNat)
  | .or c w => some (0, c, 0x06, w.toNat)
  | .xor c w => some (0, c, 0x07, w.toNat)
  | .shl c w => some (0, c, 0x08, w.toNat)
  | .shr c w => some (0, c, 0x09, w.toNat)
  | .sar c w => some (0, c, 0x0A, w.toNat)
  | .min c w => some (0, c, 0x0B, w.toNat)
  | .max c w => some (0, c, 0x0C, w.toNat)
  | .minu c w => some (0, c, 0x0D, w.toNat)
  | .maxu c w => some (0, c, 0x0E, w.toNat)
  | .slt c w => some (0, c, 0x0F, w.toNat)
  | .sltu c w => some (0, c, 0x10, w.toNat)
  | .seq c w => some (0, c, 0x11, w.toNat)
  | .movi c w => some (0, c, 0x17, w.toNat)
  | .addi c w => some (0, c, 0x18, w.toNat)
  | .andi c w => some (0, c, 0x19, w.toNat)
  | .ori c w => some (0, c, 0x1A, w.toNat)
  | .xori c w => some (0, c, 0x1B, w.toNat)
  | .shli c w => some (0, c, 0x1C, w.toNat)
  | .shri c w => some (0, c, 0x1D, w.toNat)
  | .sari c w => some (0, c, 0x1E, w.toNat)
  | .insi c w => some (0, c, 0x1F, w.toNat)
  | .beq c w => some (0, c, 0x20, w.toNat)
  | .bne c w => some (0, c, 0x21, w.toNat)
  | .blt c w => some (0, c, 0x22, w.toNat)
  | .bge c w => some (0, c, 0x23, w.toNat)
  | .bltu c w => some (0, c, 0x24, w.toNat)
  | .bgeu c w => some (0, c, 0x25, w.toNat)
  | .jmp c w => some (0, c, 0x26, w.toNat)
  | .loop c w => some (0, c, 0x28, w.toNat)
  | .vadd c w => some (1, c, 0x01, w.toNat)
  | .vsub c w => some (1, c, 0x02, w.toNat)
  | .vmul c w => some (1, c, 0x03, w.toNat)
  | .vfma c w => some (1, c, 0x04, w.toNat)
  | .vmin c w => some (1, c, 0x05, w.toNat)
  | .vmax c w => some (1, c, 0x06, w.toNat)
  | .vabs c w => some (1, c, 0x07, w.toNat)
  | .vneg c w => some (1, c, 0x08, w.toNat)
  | .vcmp c w => some (1, c, 0x09, w.toNat)
  | .vsel c w => some (1, c, 0x0A, w.toNat)
  | .vcvt c w => some (1, c, 0x0B, w.toNat)
  | .vtr c w => some (1, c, 0x0C, w.toNat)
  | .viadd c w => some (1, c, 0x10, w.toNat)
  | .visub c w => some (1, c, 0x11, w.toNat)
  | .vimul c w => some (1, c, 0x12, w.toNat)
  | .vand c w => some (1, c, 0x13, w.toNat)
  | .vor c w => some (1, c, 0x14, w.toNat)
  | .vxor c w => some (1, c, 0x15, w.toNat)
  | .vshl c w => some (1, c, 0x16, w.toNat)
  | .vshr c w => some (1, c, 0x17, w.toNat)
  | .vsar c w => some (1, c, 0x18, w.toNat)
  | .vicmp c w => some (1, c, 0x19, w.toNat)
  | .pand c w => some (1, c, 0x1C, w.toNat)
  | .por c w => some (1, c, 0x1D, w.toNat)
  | .pxor c w => some (1, c, 0x1E, w.toNat)
  | .pnot c w => some (1, c, 0x1F, w.toNat)
  | .vbcst c w => some (1, c, 0x20, w.toNat)
  | .viota c w => some (1, c, 0x21, w.toNat)
  | .vdrop c w => some (1, c, 0x24, w.toNat)
  | .vrand c w => some (1, c, 0x25, w.toNat)
  | .vred c ⟨w, false⟩ => some (1, c, 0x28, w.toNat)
  | .mtZc c w => some (2, c, 0x10, w.toNat)
  | .mtZl c w => some (2, c, 0x11, w.toNat)
  | .mtZr c w => some (2, c, 0x12, w.toNat)
  | .mtIc c w => some (2, c, 0x14, w.toNat)
  | .mtIl c w => some (2, c, 0x15, w.toNat)
  | .mtIr c w => some (2, c, 0x16, w.toNat)
  | .mtHc c w => some (2, c, 0x18, w.toNat)
  | .mtHl c w => some (2, c, 0x19, w.toNat)
  | .mtHr c w => some (2, c, 0x1A, w.toNat)
  | .mfree c w => some (2, c, 0x20, w.toNat)
  | .mwait c w => some (2, c, 0x21, w.toNat)
  | .lds c w => some (3, c, 0x01, w.toNat)
  | .ldv c w => some (3, c, 0x02, w.toNat)
  | .ldvw c w => some (3, c, 0x03, w.toNat)
  | .ldp c w => some (3, c, 0x04, w.toNat)
  | .ldxch c w => some (3, c, 0x05, w.toNat)
  | .ldlc c w => some (3, c, 0x06, w.toNat)
  | .sts c w => some (4, c, 0x01, w.toNat)
  | .stv c w => some (4, c, 0x02, w.toNat)
  | .stp c w => some (4, c, 0x03, w.toNat)
  | .stadd c w => some (4, c, 0x04, w.toNat)
  | .stladd c w => some (4, c, 0x05, w.toNat)
  | .tadd c w => some (5, c, 0x01, w.toNat)
  | .tset c w => some (5, c, 0x02, w.toNat)
  | .twait c w => some (5, c, 0x03, w.toNat)
  | .tread c w => some (5, c, 0x04, w.toNat)
  | .taddx c w => some (5, c, 0x08, w.toNat)
  | .tsetx c w => some (5, c, 0x09, w.toNat)
  | .endOp c w => some (5, c, 0x10, w.toNat)
  | _ => none

/-- The command that the bits of a slot number spell. -/
def slotCommand (slot : Nat) (c : CrewRef) (w : Nat) : Option Instr :=
  match slot with
  | 0 => some (scalarCommand c (BitVec.ofNat 40 w))
  | 1 => some (vectorCommand c (BitVec.ofNat 48 w))
  | 2 => some (matrixCommand c (BitVec.ofNat 48 w))
  | 3 => some (loadCommand c (BitVec.ofNat 40 w))
  | 4 => some (storeCommand c (BitVec.ofNat 40 w))
  | 5 => some (syncCommand c (BitVec.ofNat 32 w))
  | _ => none

/-- The lowest bit of the opcode in the bits of a slot (Tables 7.1, 7.3, 7.7, 7.9, 7.11, 7.13). -/
def slotOpBit (slot : Nat) : Nat :=
  match slot with
  | 1 | 2 => 42
  | 5 => 26
  | _ => 34

end Sys2Proof
end

