-- ==== Sys2Proof/Config.lean ====
section
/-!
DEFINITION. What an implementation fixes and the spec leaves open: free values. None has a body, so no proof can
see what a value is; a statement about the model holds for every choice.
-/
namespace Sys2Proof

/-- Free values, drawn one after another with the counter `free` of State: the bits of a value the spec leaves open. -/
opaque Config.freeBits : Nat → BitVec 640

/-- The value bits of the image of a breached lode whose value no image of its kind can hold, which the spec does not give (03 R89):
by its step, tile instance, place, kind, anchor, value and term tally. -/
opaque Config.breachedBits : List Int → BitVec 640

/-- How many entries of a top-k state register count as valid when lane 32 holds more than 16, which the spec does not state (05
R133). -/
opaque Config.topkCount : Nat → Nat

/-- The sign of the zero that a hoist MAX or MIN of contributions −0 and +0 delivers for an element (05 R131, 12 R354), by step
number, bucket and element: the two are equal in the order and have one index. The contributions' order does not enter (00 R3). -/
opaque Config.zeroTie : Nat → Nat → Nat → Bool

/-- The row of an HBM address: the mapping of rows, banks and columns within a pseudo-channel belongs to the controller (09 R240).
(DESIGN CHOICE: notes/assumptions/41) -/
opaque Config.hbmRow : Nat → Nat

/-- The Ed25519 signature of a 64-byte digest under the device identity key (18 R496), whose private part the spec
does not give. -/
opaque Config.signIdentity : BitVec 512 → BitVec 512

/-- The outcome of the published Ed25519 verification of a signature over a message under a public key (15 R425).
(DESIGN CHOICE: notes/assumptions/10) -/
opaque Config.verifyEd25519 : BitVec 256 → List (BitVec 8) → BitVec 512 → Bool

/-- The SHA-512 digest of a byte string, a published function (18 R493). (DESIGN CHOICE: notes/assumptions/10) -/
opaque Config.sha512 : List (BitVec 8) → BitVec 512

/-- The code in the cause byte of an ENGINE item (15 Table 15.7) by engine and reason, which the spec does not number.
(DESIGN CHOICE: notes/assumptions/13) -/
opaque Config.engineCause : Nat → Nat → BitVec 8

/-- The code in the payload of an XNAK (11 R324) by reason, which the spec does not number.
(DESIGN CHOICE: notes/assumptions/13) -/
opaque Config.xnakCause : Nat → BitVec 8

/-- A byte of the flash banks as they left manufacture (18 R492), whose contents the spec does not give.
(DESIGN CHOICE: notes/assumptions/12) -/
opaque Config.flashByte : Nat → BitVec 8

/-- The offset in a bank of the image of a type (18 R492), from the directory at offset 0 (its first 4,096 bytes as a
number), whose layout the spec does not give. (DESIGN CHOICE: notes/assumptions/12) -/
opaque Config.imageAt : Nat → Nat → Nat

/-- A key-hash slot of the fuses (18 R493), programmed at manufacture. -/
opaque Config.fuseHash : Nat → BitVec 512

/-- The key-hash slots that manufacture has programmed (18 R493). -/
opaque Config.fuseProgrammed : BitVec 4

/-- The choices by which the factory fuse map picks its spares on a level, one after another (01 R19, 18 R485). -/
opaque Config.fusePick : Nat → Nat → Nat

/-- Take `n` members of a list, each by a choice among those left. -/
def pickMany (choose : Nat → Nat) : Nat → List Nat → List Nat
  | 0, _ => []
  | n + 1, l =>
    match l[choose n % l.length]? with
    | some x => x :: pickMany choose n (l.erase x)
    | none => []

/-- The 8 stopes of the 72 of a level that are spares at shipment (01 R19). -/
def Config.fuseSpares (level : Nat) : List Nat := pickMany (Config.fusePick level) 8 (List.range 72)

/-- Is a stope a spare in the factory fuse map (01 R19, 18 R485). -/
def Config.fuseSpare (stope : Nat) : Bool := (Config.fuseSpares (stope / 72)).contains (stope % 72)

/-- The byte string that a measurement of an index is the digest of, from its values (18 Table 18.8), whose layout the spec
does not give. -/
opaque Config.measured : Nat → List Nat → List (BitVec 8)

/-- The certificate chain of SPDM slot 0 (18 R496): its length and its bytes. -/
opaque Config.certLength : Nat
/-- A byte of the certificate chain of SPDM slot 0. -/
opaque Config.certByte : Nat → BitVec 8

/-- The digest that an SPDM signature is made over (18 R497), from the values of the exchange; the published protocol
defines it, and the spec does not. -/
opaque Config.spdmDigest : List Nat → BitVec 512

/-- The ordering code KLN1-384W (00 R1), as its characters' ASCII codes, the first in the lowest byte.
(DESIGN CHOICE: notes/assumptions/11) -/
def Config.orderingCode : Nat := 0x573438332D314E4C4B

/-- The 16-byte serial number. -/
opaque Config.serialNumber : BitVec 128
/-- The Ternearis enterprise number (19 Table 19.9), which the spec does not state. -/
opaque Config.enterprise : Nat

/-- The response bytes of a Lyselm command, by OPC, for the values of its result (19 Table 19.8), whose layout the spec
does not give; and how many they are. -/
opaque Config.answer : Nat → List Nat → BitVec 15872
/-- The number of response bytes of a Lyselm command. -/
opaque Config.answerLength : Nat → List Nat → Nat

/-- A record of a Lyselm command with output, by OPC, for its values (19 Table 19.8), whose layout the spec does not give. -/
opaque Config.record : Nat → List Nat → BitVec 2048

/-- The size of a record of GET_MEAS_LOG (19 Table 19.8), which the spec does not give. -/
opaque Config.measureRecordBytes : Nat

/-- The versions that Get MCTP Version Support answers for a message type (19 Table 19.9), which the spec does not give. -/
opaque Config.mctpVersion : Nat → Nat

end Sys2Proof
end

