-- ==== Sys2Proof/Machine/Numeric.lean ====
section
/-!
DEFINITION. Element formats, exact values, the three roundings, conversion into element formats and block-scaled
formats, and the keyed generator (02_number_formats R32-R58, R539).
-/
namespace Sys2Proof.Machine

/-- Bits `[hi:lo]` of a natural number. -/
def bits (w hi lo : Nat) : Nat := (w >>> lo) % 2 ^ (hi + 1 - lo)

/-- Two's complement reading of the low `n` bits of `w`. -/
def sext (n w : Nat) : Int :=
  let v := w % 2 ^ n
  if n ≠ 0 ∧ v ≥ 2 ^ (n - 1) then (v : Int) - (2 ^ n : Nat) else (v : Int)

/-- The low `n` bits of an integer in two's complement. -/
def ofInt (n : Nat) (v : Int) : Nat := (v % ((2 ^ n : Nat) : Int)).toNat

/-- Two to an integer power, as a numerator and a denominator. -/
def pow2Num (e : Int) : Nat := if 0 ≤ e then 2 ^ e.toNat else 1
/-- The denominator of two to an integer power. -/
def pow2Den (e : Int) : Nat := if 0 ≤ e then 1 else 2 ^ (-e).toNat

/-- Ceiling of the base-2 logarithm of a positive number. -/
def ceilLog2 (k : Nat) : Nat := if k ≤ 1 then 0 else Nat.log2 (k - 1) + 1

/-- An element format (Table 2.1): width, fraction bits, bias, exponent range, largest significand at `emax`,
and which specials it has (Table 2.2). -/
structure Fmt where
  code : Nat
  width : Nat
  mbits : Nat
  bias : Int
  emin : Int
  emax : Int
  mmax : Nat
  hasInf : Bool
  hasNan : Bool
deriving DecidableEq, Repr

/-- Table 2.1 by format code (3 bits). -/
def Fmt.ofCode (c : Nat) : Fmt :=
  match c % 8 with
  | 0 => ⟨0, 32, 23, 127, -126, 127, 2 ^ 24 - 1, true, true⟩
  | 1 => ⟨1, 16, 7, 127, -126, 127, 255, true, true⟩
  | 2 => ⟨2, 16, 10, 15, -14, 15, 2047, true, true⟩
  | 3 => ⟨3, 8, 2, 15, -14, 15, 7, true, true⟩
  | 4 => ⟨4, 8, 3, 7, -6, 8, 14, false, true⟩
  | 5 => ⟨5, 6, 2, 3, -2, 4, 7, false, false⟩
  | 6 => ⟨6, 6, 3, 1, 0, 2, 15, false, false⟩
  | _ => ⟨7, 4, 1, 1, 0, 2, 3, false, false⟩

/-- Exponent-field width of a format. -/
def Fmt.ebits (f : Fmt) : Nat := f.width - 1 - f.mbits

/-- An exact source or element value: NaN, an infinity, the value ±n/d, or the row-5 source of Table 3.7, a finite
value beyond every format's range. -/
inductive Val where
  | nan
  | inf (neg : Bool)
  | num (neg : Bool) (n : Nat) (d : Nat)
  | huge (neg : Bool)
deriving DecidableEq, Repr

/-- The value zero. -/
def Val.zero (neg : Bool) : Val := .num neg 0 1

/-- Is the value a NaN. -/
def Val.isNan : Val → Bool
  | .nan => true
  | _ => false

/-- Is the value an infinity. -/
def Val.isInf : Val → Bool
  | .inf _ => true
  | _ => false

/-- The sign of a value (a NaN's is positive). -/
def Val.sign : Val → Bool
  | .nan => false
  | .inf s => s
  | .num s _ _ => s
  | .huge s => s

/-- The sign, integer significand and exponent of a finite encoding, after R42's input flush (R33): the value is
±m × 2^(e − M). -/
def Fmt.parts (f : Fmt) (w : Nat) : Bool × Nat × Int :=
  let s := bits w (f.width - 1) (f.width - 1) = 1
  let e := bits w (f.width - 2) f.mbits
  let fr := w % 2 ^ f.mbits
  if e = 0 then (s, (if f.code = 0 then 0 else fr), 1 - f.bias)
  else (s, 2 ^ f.mbits + fr, (e : Int) - f.bias)

/-- Is the encoding a NaN (Table 2.2). -/
def Fmt.isNan (f : Fmt) (w : Nat) : Bool :=
  let e := bits w (f.width - 2) f.mbits
  let fr := w % 2 ^ f.mbits
  if f.code = 4 then w % 128 = 127
  else f.hasNan && (e = 2 ^ f.ebits - 1) && (fr ≠ 0)

/-- Is the encoding an infinity (Table 2.2). -/
def Fmt.isInf (f : Fmt) (w : Nat) : Bool :=
  let e := bits w (f.width - 2) f.mbits
  let fr := w % 2 ^ f.mbits
  f.hasInf && (e = 2 ^ f.ebits - 1) && (fr = 0)

/-- The value of an encoding as read (R33, R34, R42). -/
def Fmt.decode (f : Fmt) (w : Nat) : Val :=
  if f.isNan w then .nan
  else if f.isInf w then .inf (bits w (f.width - 1) (f.width - 1) = 1)
  else
    let p := f.parts w
    let e := p.2.2 - f.mbits
    .num p.1 (p.2.1 * pow2Num e) (pow2Den e)

/-- The canonical NaN of a format (Table 2.2); +0 where it has none. -/
def Fmt.canonNan (f : Fmt) : Nat :=
  match f.code with
  | 0 => 0x7FC00000
  | 1 => 0x7FC0
  | 2 => 0x7E00
  | 3 => 0x7E
  | 4 => 0x7F
  | _ => 0

/-- Add the sign bit to a magnitude encoding. -/
def Fmt.withSign (f : Fmt) (neg : Bool) (w : Nat) : Nat := if neg then w + 2 ^ (f.width - 1) else w

/-- The encoding of an infinity. -/
def Fmt.infBits (f : Fmt) (neg : Bool) : Nat := f.withSign neg ((2 ^ f.ebits - 1) * 2 ^ f.mbits)

/-- The encoding of the largest finite value. -/
def Fmt.maxBits (f : Fmt) (neg : Bool) : Nat :=
  f.withSign neg (((f.emax + f.bias).toNat) * 2 ^ f.mbits + (f.mmax - 2 ^ f.mbits))

/-- What one conversion adds to the status of its engine (R138, R539). -/
structure Status where
  inexact : Bool
  ovf : Bool
  inv : Bool
deriving DecidableEq, Repr

/-- No status. -/
def Status.none : Status := ⟨false, false, false⟩
/-- Statuses combine by OR. -/
def Status.or (a b : Status) : Status := ⟨a.inexact || b.inexact, a.ovf || b.ovf, a.inv || b.inv⟩

/-- The exponent `e` with 2^e ≤ n/d < 2^(e+1), for n, d > 0. -/
def floorLog2 (n d : Nat) : Int :=
  let e : Int := (Nat.log2 n : Int) - (Nat.log2 d : Int)
  -- n/d lies in (2^(e-1), 2^(e+1))
  if n * pow2Den e ≥ d * pow2Num e then e else e - 1

/-- Round the positive magnitude num/den to an integer in mode `rnd` (Table 2.4), with draw `r` for SR (R48). -/
def roundNat (rnd r num den : Nat) : Nat :=
  let t := num / den
  let rem := num % den
  match rnd with
  | 0 => if 2 * rem > den ∨ (2 * rem = den ∧ t % 2 = 1) then t + 1 else t
  | 1 => t
  | _ => if rem * 65536 / den + r ≥ 65536 then t + 1 else t

/-- The result for a magnitude beyond the largest finite value (Table 2.6). -/
def Fmt.outOfRange (f : Fmt) (sat : Bool) (rnd : Nat) (neg : Bool) : Nat × Status :=
  if rnd = 1 then (f.maxBits neg, ⟨true, true, false⟩)
  else match f.code with
    | 0 | 1 | 2 => (f.infBits neg, ⟨true, true, false⟩)
    | 3 => (if sat then f.maxBits neg else f.infBits neg, ⟨true, true, false⟩)
    | 4 => if sat then (f.maxBits neg, ⟨true, true, false⟩) else (f.canonNan, ⟨true, true, true⟩)
    | _ => (f.maxBits neg, ⟨true, true, false⟩)

/-- Round the exact finite value ±n/d into a format (R42, R47, R48, R51): encoding and status. -/
def Fmt.roundNum (f : Fmt) (sat : Bool) (rnd r : Nat) (neg : Bool) (n d : Nat) : Nat × Status :=
  if n = 0 then (f.withSign neg 0, Status.none)
  else
    let e0 := floorLog2 n d
    let e := if f.code = 0 then e0 else max e0 f.emin
    let sh : Int := (f.mbits : Int) - e
    let num := n * pow2Num sh
    let den := d * pow2Den sh
    let t0 := roundNat rnd r num den
    let exact := num % den = 0
    let t := if t0 = 2 ^ (f.mbits + 1) then 2 ^ f.mbits else t0
    let e' := if t0 = 2 ^ (f.mbits + 1) then e + 1 else e
    if e' > f.emax ∨ (e' = f.emax ∧ t > f.mmax) then f.outOfRange sat rnd neg
    else if f.code = 0 ∧ e' < f.emin then (f.withSign neg 0, ⟨true, false, false⟩)
    else
      let w := if t < 2 ^ f.mbits then t else ((e' + f.bias).toNat) * 2 ^ f.mbits + (t - 2 ^ f.mbits)
      (f.withSign neg w, ⟨!exact, false, false⟩)

/-- Convert an exact source into an unscaled element (R43, R45, R47-R51, R539): encoding and status. -/
def Fmt.convert (f : Fmt) (sat : Bool) (rnd r : Nat) (v : Val) : Nat × Status :=
  match v with
  | .nan => if f.hasNan then (f.canonNan, Status.none) else (0, ⟨false, false, true⟩)
  | .inf neg =>
    if f.hasInf then (f.infBits neg, Status.none)
    else if f.hasNan then (f.canonNan, ⟨false, false, true⟩)
    else (f.maxBits neg, ⟨false, false, true⟩)
  | .huge neg => f.outOfRange sat rnd neg
  | .num neg n d => f.roundNum sat rnd r neg n d

/-- The numeric control byte (Table 2.5). -/
structure Ncb where
  fmt : Nat
  mx : Bool
  rnd : Nat
  sat : Bool
  rsv : Bool
deriving DecidableEq, Repr

/-- Read a numeric control byte. -/
def Ncb.ofNat (w : Nat) : Ncb :=
  ⟨bits w 2 0, bits w 3 3 = 1, bits w 5 4, bits w 6 6 = 1, bits w 7 7 = 1⟩

/-- A control byte is consistent (R50). -/
def Ncb.ok (b : Ncb) : Bool := b.rnd ≠ 3 && !(b.mx && b.fmt < 3) && !b.rsv

/-- Emax of the block-scaled formats (R39). -/
def mxEmax (code : Nat) : Int :=
  match code with
  | 3 => 15
  | 4 => 8
  | 5 => 4
  | _ => 2

/-- The larger of two non-negative rationals. -/
def ratMax (a b : Nat × Nat) : Nat × Nat := if a.1 * b.2 < b.1 * a.2 then b else a

/-- Largest magnitude among the finite sources of a block (R39). -/
def blockAmax : List Val → Nat × Nat
  | [] => (0, 1)
  | .num _ n d :: vs => ratMax (n, d) (blockAmax vs)
  | _ :: vs => blockAmax vs

/-- The scale byte of a block (R39, R40). -/
def blockScale (code : Nat) (vs : List Val) : Nat :=
  if code ≥ 5 ∧ vs.any (fun v => v.isNan || v.isInf) then 0xFF
  else
    let a := blockAmax vs
    if a.1 = 0 then 127
    else (min (max (floorLog2 a.1 a.2 - mxEmax code + 127) 0) 254).toNat

/-- A source divided exactly by the scale 2^(x − 127). -/
def scaleDown (x : Nat) : Val → Val
  | .num neg n d => .num neg (n * pow2Num (127 - (x : Int))) (d * pow2Den (127 - (x : Int)))
  | v => v

/-- Convert one element of a block with scale byte `x` (R39, R40, R539). (DEDUCED: notes/assumptions/15) -/
def convertScaled (f : Fmt) (sat : Bool) (rnd r x : Nat) (v : Val) : Nat × Status :=
  if x = 0xFF then (0, ⟨false, false, v.isInf⟩)
  else f.convert sat rnd r (scaleDown x v)

/-- The value of an element of a block with scale byte `x` (R37, R38). (DEDUCED: notes/assumptions/15) -/
def Fmt.decodeScaled (f : Fmt) (x w : Nat) : Val :=
  if x = 0xFF then .nan
  else match f.decode w with
    | .num neg n d => .num neg (n * pow2Num ((x : Int) - 127)) (d * pow2Den ((x : Int) - 127))
    | v => v

/-- Exact sum of two values (R86 for infinities). -/
def Val.add : Val → Val → Val
  | .nan, _ => .nan
  | _, .nan => .nan
  | .inf a, .inf b => if a = b then .inf a else .nan
  | .inf a, _ => .inf a
  | _, .inf b => .inf b
  | .huge a, _ => .huge a
  | _, .huge b => .huge b
  | .num a n1 d1, .num b n2 d2 =>
    let s : Int := (if a then -(n1 * d2 : Int) else (n1 * d2 : Int)) + (if b then -(n2 * d1 : Int) else (n2 * d1 : Int))
    if s = 0 then .num (a && b) 0 1 else .num (s < 0) s.natAbs (d1 * d2)

/-- The opposite value. -/
def Val.neg : Val → Val
  | .nan => .nan
  | .inf s => .inf (!s)
  | .num s n d => .num (!s) n d
  | .huge s => .huge (!s)

/-- Exact product of two values. -/
def Val.mul : Val → Val → Val
  | .nan, _ => .nan
  | _, .nan => .nan
  | .inf a, .num b n _ => if n = 0 then .nan else .inf (xor a b)
  | .num a n _, .inf b => if n = 0 then .nan else .inf (xor a b)
  | .inf a, .inf b => .inf (xor a b)
  | .inf a, .huge b => .inf (xor a b)
  | .huge a, .inf b => .inf (xor a b)
  | .huge a, .huge b => .huge (xor a b)
  | .huge a, .num b n _ => if n = 0 then .zero (xor a b) else .huge (xor a b)
  | .num a n _, .huge b => if n = 0 then .zero (xor a b) else .huge (xor a b)
  | .num a n1 d1, .num b n2 d2 => .num (xor a b) (n1 * n2) (d1 * d2)

/-- Exact quotient of two values, and whether the case is invalid (Table 5.2). -/
def Val.div : Val → Val → Val × Bool
  | .nan, _ => (.nan, false)
  | _, .nan => (.nan, false)
  | .inf _, .inf _ => (.nan, true)
  | .inf a, v => (.inf (xor a v.sign), false)
  | v, .inf b => (.zero (xor v.sign b), false)
  | .huge a, v => (.huge (xor a v.sign), false)
  | v, .huge b => (.zero (xor v.sign b), false)
  | .num a n1 d1, .num b n2 d2 =>
    if n2 = 0 then (if n1 = 0 then (.nan, true) else (.inf (xor a b), false))
    else (.num (xor a b) (n1 * d2) (d1 * n2), false)

/-- Signed numerator over a common denominator: compare two finite values. -/
def Val.numLt (a : Bool) (n1 d1 : Nat) (b : Bool) (n2 d2 : Nat) : Bool :=
  let x : Int := if a then -(n1 * d2 : Int) else (n1 * d2 : Int)
  let y : Int := if b then -(n2 * d1 : Int) else (n2 * d1 : Int)
  x < y

/-- Numeric order below, for values that are not NaN; the zeros are equal. -/
def Val.lt : Val → Val → Bool
  | .nan, _ => false
  | _, .nan => false
  | .inf a, .inf b => a && !b
  | .inf a, _ => a
  | _, .inf b => !b
  | .huge a, .huge b => a && !b
  | .huge a, _ => a
  | _, .huge b => !b
  | .num a n1 d1, .num b n2 d2 => Val.numLt a n1 d1 b n2 d2

/-- Convert an exact value to int32 (07 R182, direction 2): encoding and status. -/
def toInt32 (rnd r : Nat) (v : Val) : Nat × Status :=
  match v with
  | .nan => (0, ⟨false, false, true⟩)
  | .inf neg => (if neg then 0x80000000 else 0x7FFFFFFF, ⟨false, false, true⟩)
  | .huge neg => (if neg then 0x80000000 else 0x7FFFFFFF, ⟨false, false, true⟩)
  | .num neg n d =>
    let t := roundNat rnd r n d
    let i : Int := if neg then -(t : Int) else (t : Int)
    if i > 0x7FFFFFFF then (0x7FFFFFFF, ⟨false, false, true⟩)
    else if i < -0x80000000 then (0x80000000, ⟨false, false, true⟩)
    else (ofInt 32 i, ⟨n % d ≠ 0, false, false⟩)

/-- The value of an int32 lane. -/
def int32Val (w : Nat) : Val :=
  let i := sext 32 w
  .num (i < 0) i.natAbs 1

/-- The words of the keyed generator's state (R53). -/
structure DrawState where
  x0 : BitVec 32
  x1 : BitVec 32
  x2 : BitVec 32
  x3 : BitVec 32
  k0 : BitVec 32
  k1 : BitVec 32
deriving DecidableEq, Repr

/-- One round of the keyed generator (R53). -/
def DrawState.round (s : DrawState) (r : Nat) : DrawState :=
  let x0 := s.x0 + s.x1 + s.k0 + BitVec.ofNat 32 r
  let x3 := (s.x3 ^^^ x0).rotateLeft 16
  let x2 := s.x2 + x3 + s.k1
  let x1 := (s.x1 ^^^ x2).rotateLeft 11
  let x0 := x0 + x1
  let x3 := (x3 ^^^ x0).rotateLeft 9
  let x2 := x2 + x3
  let x1 := (x1 ^^^ x2).rotateLeft 5
  ⟨x0, x1, x2, x3, s.k0 + 0x6A5D39E1#32, s.k1 + 0xC3B27F45#32⟩

/-- The 16-bit keyed draw (R53). -/
def keyedDraw (seed step tensor coord use purpose : Nat) : Nat :=
  let s0 : DrawState :=
    { x0 := BitVec.ofNat 32 coord
      x1 := BitVec.ofNat 32 (coord / 2 ^ 32 % 2 ^ 16 + use % 256 * 2 ^ 16 + purpose % 16 * 2 ^ 24)
      x2 := BitVec.ofNat 32 tensor
      x3 := BitVec.ofNat 32 step
      k0 := BitVec.ofNat 32 seed
      k1 := BitVec.ofNat 32 (seed / 2 ^ 32) ^^^ BitVec.ofNat 32 (step / 2 ^ 32) }
  let s := (List.range 8).foldl DrawState.round s0
  (s.x0 ^^^ s.x2).toNat % 2 ^ 16

/-- Bytes of `n` packed elements of a format (R35). -/
def packedBytes (code n : Nat) : Nat := (n * (Fmt.ofCode code).width + 7) / 8

/-- Element `i` of a packed little-endian word (R35). -/
def packedElem (code w i : Nat) : Nat := (w >>> (i * (Fmt.ofCode code).width)) % 2 ^ (Fmt.ofCode code).width

/-- Pack elements from element 0 up into one little-endian word (R35). -/
def packElems (width : Nat) : List Nat → Nat
  | [] => 0
  | e :: es => e % 2 ^ width + packElems width es * 2 ^ width

/-- The assay exponent of an encoding, if it is finite and non-zero (03 R73). -/
def Fmt.assayExp (f : Fmt) (w : Nat) : Option Int :=
  if f.isNan w || f.isInf w then none
  else
    let p := f.parts w
    if p.2.1 = 0 then none else some p.2.2

end Sys2Proof.Machine
end

