-- ==== Sys2Proof/Machine/Lode.lean ====
section
/-!
DEFINITION. Lodes (03_lode_accumulation R59-R92, R540): products, lode formats, images, adds and conversion
sources. Every exact sum is an integer multiple of 2^-300.
-/
namespace Sys2Proof.Machine

/-- The value of a lode with its side byte (Table 3.6) and term tally (R81). `val` is L, in units of the lode's
bit-0 weight (R68). -/
structure LodeAcc where
  val : Int
  nan : Bool
  pinf : Bool
  ninf : Bool
  inexact : Bool
  breach : Bool
  gexh : Bool
  bsign : Bool
  terms : Nat
deriving DecidableEq, Repr

/-- A lode at zero with no flag and no term. -/
def LodeAcc.zero : LodeAcc := ⟨0, false, false, false, false, false, false, false, 0⟩

/-- The width of a lode kind (Table 3.2). -/
def lodeWidth (kind : Nat) : Nat :=
  match kind with
  | 0 => 128
  | 1 => 256
  | _ => 640

/-- The guaranteed term count of a lode kind (Table 3.2, R82). -/
def lodeGuard (kind : Nat) : Nat :=
  match kind with
  | 0 => 2 ^ 15
  | 1 => 2 ^ 31
  | _ => 2 ^ 51

/-- The weight of bit 0 of a lode kind with anchor `a` (R68). -/
def lodeWeight (kind : Nat) (a : Int) : Int := if kind = 2 then -300 else a

/-- The exponent of the top of the data window (R68). -/
def lodeTop (kind : Nat) (a : Int) : Int :=
  match kind with
  | 0 => a + 112
  | 1 => a + 224
  | _ => 288

/-- Does an integer fit the two's-complement value of a lode kind (R68). -/
def lodeFits (kind : Nat) (v : Int) : Bool :=
  decide (-(2 ^ (lodeWidth kind - 1) : Nat) ≤ v) && decide (v < (2 ^ (lodeWidth kind - 1) : Nat))

/-- The element of an encoding under an optional scale byte as an exact integer multiple of 2^-150 (R60, R38), for
finite elements; `none` for a NaN or an infinity. -/
def Fmt.elemInt (f : Fmt) (mx : Bool) (x w : Nat) : Option Int :=
  if mx && x = 0xFF then none
  else if f.isNan w || f.isInf w then none
  else
    let p := f.parts w
    let e : Int := p.2.2 - f.mbits + (if mx then (x : Int) - 127 else 0) + 150
    let m : Int := p.2.1 * 2 ^ e.toNat
    some (if p.1 then -m else m)

/-- What a product does: a special product, a zero product, or a finite product of significand `m` and exponent `p`
(R61). -/
inductive Product where
  | nan
  | inf (neg : Bool)
  | zero
  | finite (neg : Bool) (m : Nat) (p : Int)
deriving DecidableEq, Repr

/-- One operand element of a product: its encoding class and parts (R33, R37, R38). -/
def Fmt.operand (f : Fmt) (mx : Bool) (x w : Nat) : Val × (Bool × Nat × Int) :=
  if mx && x = 0xFF then (.nan, (false, 0, 0))
  else
    let p := f.parts w
    let e := p.2.2 + (if mx then (x : Int) - 127 else 0)
    if f.isNan w then (.nan, (false, 0, 0))
    else if f.isInf w then (.inf p.1, (p.1, 1, 0))
    else (.num p.1 p.2.1 1, (p.1, p.2.1, e))

/-- The product of two operands (R60, R61, R86). -/
def productOf (a b : Val × (Bool × Nat × Int)) : Product :=
  match a.1, b.1 with
  | .nan, _ => .nan
  | _, .nan => .nan
  | .inf s, _ => if b.2.2.1 = 0 then .nan else .inf (xor s b.2.1)
  | _, .inf s => if a.2.2.1 = 0 then .nan else .inf (xor a.2.1 s)
  | _, _ =>
    if a.2.2.1 * b.2.2.1 = 0 then .zero
    else .finite (xor a.2.1 b.2.1) (a.2.2.1 * b.2.2.1) (a.2.2.2 + b.2.2.2)

/-- A special product acts on the flags (R86). -/
def LodeAcc.special (l : LodeAcc) : Product → LodeAcc
  | .nan => { l with nan := true }
  | .inf false => { l with pinf := true }
  | .inf true => { l with ninf := true }
  | _ => l

/-- `n` more terms (R81), with GEXH past the guaranteed count (R82). The tally is 64 bits. -/
def LodeAcc.count (kind n : Nat) (l : LodeAcc) : LodeAcc :=
  let t := (l.terms + n) % 2 ^ 64
  { l with terms := t, gexh := l.gexh || decide (lodeGuard kind < l.terms + n) }

/-- OR the flags of `b` other than BREACH and BSIGN into `a`, and add its term tally (R540). -/
def LodeAcc.gather (a b : LodeAcc) : LodeAcc :=
  LodeAcc.count 2 b.terms
    { a with nan := a.nan || b.nan, pinf := a.pinf || b.pinf, ninf := a.ninf || b.ninf,
             inexact := a.inexact || b.inexact, gexh := a.gexh || b.gexh }

/-- Add a full-lode value into a full lode image (R128, R540). (DEDUCED: notes/assumptions/18) -/
def LodeAcc.addFull (a b : LodeAcc) : LodeAcc :=
  let g := a.gather b
  if a.breach then { g with nan := g.nan || (b.breach && (a.bsign != b.bsign)) }
  else if b.breach then { g with breach := true, bsign := b.bsign }
  else
    let v := a.val + b.val
    if lodeFits 2 v then { g with val := v }
    else { g with breach := true, bsign := decide (v < 0) }

/-- One element, times 1.0, as a full-lode value of one term (R91). -/
def Fmt.elemLode (f : Fmt) (mx : Bool) (x w : Nat) : LodeAcc :=
  let one : LodeAcc := { LodeAcc.zero with terms := 1 }
  if (mx && x = 0xFF) || f.isNan w then { one with nan := true }
  else if f.isInf w then
    if bits w (f.width - 1) (f.width - 1) = 1 then { one with ninf := true } else { one with pinf := true }
  else match f.elemInt mx x w with
    | some i => { one with val := i * 2 ^ 150 }
    | none => one

/-- The product of two elements as a full-lode value of one term (R128). -/
def Fmt.prodLode (f : Fmt) (wa wb : Nat) : LodeAcc :=
  let one : LodeAcc := { LodeAcc.zero with terms := 1 }
  match f.elemInt false 0 wa, f.elemInt false 0 wb with
  | some i, some j => { one with val := i * j }
  | _, _ => one.special (productOf (f.operand false 0 wa) (f.operand false 0 wb))

/-- Exact accumulation of full-lode values inside the merge buffer or a reduction (R128, R540). -/
def lodeSum (l : List LodeAcc) : LodeAcc := l.foldl LodeAcc.addFull LodeAcc.zero

/-- The side byte (Table 3.6). -/
def LodeAcc.side (l : LodeAcc) : Nat :=
  l.nan.toNat + 2 * l.pinf.toNat + 4 * l.ninf.toNat + 8 * l.inexact.toNat + 16 * l.breach.toNat
    + 32 * l.gexh.toNat + 64 * l.bsign.toNat

/-- The size of a lode image (Table 3.8). -/
def imageBytes (kind : Nat) : Nat :=
  match kind with
  | 0 => 32
  | 1 => 48
  | _ => 96

/-- A lode image as a little-endian number (Table 3.8, R89). `open_` gives the value bits of a breached lode whose
value does not fit. -/
def LodeAcc.image (l : LodeAcc) (kind : Nat) (anchor : Int) (open_ : Nat) : Nat :=
  let w := lodeWidth kind
  let v := if lodeFits kind l.val then ofInt w l.val else open_ % 2 ^ w
  let a := if kind = 2 then 0 else ofInt 16 anchor
  v + (l.side + kind * 2 ^ 8 + a * 2 ^ 16 + l.terms % 2 ^ 64 * 2 ^ 64) * 2 ^ w

/-- The kind byte of a full-size image (Table 3.8): byte 81 of a full image. -/
def fullImageKind (img : Nat) : Nat := bits img 655 648

/-- Read the lode of an image of a given kind (Table 3.8). -/
def LodeAcc.ofImage (kind img : Nat) : LodeAcc × Int :=
  let w := lodeWidth kind
  let sb := img >>> w
  ({ val := sext w img, nan := sb.testBit 0, pinf := sb.testBit 1, ninf := sb.testBit 2, inexact := sb.testBit 3,
     breach := sb.testBit 4, gexh := sb.testBit 5, bsign := sb.testBit 6, terms := bits sb 127 64 },
   if kind = 2 then 0 else sext 16 (bits sb 31 16))

/-- The conversion source of a lode (Table 3.7). -/
def LodeAcc.source (l : LodeAcc) (kind : Nat) (anchor : Int) : Val :=
  if l.nan || (l.pinf && l.ninf) then .nan
  else if l.pinf then .inf false
  else if l.ninf then .inf true
  else if l.breach then (if kind = 2 then .huge l.bsign else .nan)
  else
    let w := lodeWeight kind anchor
    .num (decide (l.val < 0)) (l.val.natAbs * pow2Num w) (pow2Den w)

/-- The lode control word (Table 3.3). -/
structure Lcw where
  anchor : Int
  autoWiden : Bool
  amode : Bool
  kind : Nat
  rsv : Nat
deriving DecidableEq, Repr

/-- Decode a lode control word (Table 3.3). -/
def Lcw.ofNat (w : Nat) : Lcw := ⟨sext 10 (bits w 15 6), w.testBit 5, w.testBit 4, bits w 3 2, bits w 1 0⟩

/-- A lode control word is consistent (R71). -/
def Lcw.ok (l : Lcw) : Bool :=
  decide (l.kind ≠ 3) && decide (l.rsv = 0)
    && (l.kind = 2 || l.amode || (decide (-330 ≤ l.anchor) && decide (l.anchor ≤ 100)))

/-- Widen a lode exactly by one kind, or to full (R90): the value in the wider lode, and whether it does not fit.
(DEDUCED: notes/assumptions/18) -/
def LodeAcc.widen (l : LodeAcc) (kind kind' : Nat) (anchor : Int) : LodeAcc × Bool :=
  if kind' = kind ∨ kind' = 1 then (l, false)
  else
    let sh := anchor + 300
    let v : Int := if 0 ≤ sh then l.val * 2 ^ sh.toNat else l.val / 2 ^ (-sh).toNat
    if lodeFits 2 v then ({ l with val := v }, false)
    else ({ l with val := v, breach := true, bsign := decide (l.val < 0) }, true)

/-- The auto-anchor of a tile (R75). -/
def autoAnchor (xa xb : Int) (k kind : Nat) : Int :=
  if xa = -0x8000 ∨ xb = -0x8000 then 0
  else
    let t := xa + xb + (ceilLog2 k : Int) + 1
    min (max (if kind = 0 then t - 111 else t - 223) (-330)) 100

end Sys2Proof.Machine
end

