-- ==== Sys2Proof/Machine/Store.lean ====
section
/-!
DEFINITION. Sparse tables: a list of (key, value) pairs with strictly rising keys and no entry equal to the
table's default value, so that equal tables are equal lists. Every indexed piece of state of the module
(registers, crews, lodes, tallies, memory) is held in this one canonical form.
-/
namespace Sys2Proof.Machine

/-- A sparse table from a Nat key to `α`; an unlisted key holds the table's default. -/
abbrev Store (α : Type) := List (Nat × α)

/-- The value at key `k`, `d` where unlisted. -/
def Store.get {α : Type} (d : α) : Store α → Nat → α
  | [], _ => d
  | (k', v) :: m, k => if k = k' then v else Store.get d m k

/-- The listed value at key `k`, if any. -/
def Store.find {α : Type} : Store α → Nat → Option α
  | [], _ => none
  | (k', v) :: m, k => if k = k' then some v else Store.find m k

/-- Remove the entry at `k`. -/
def Store.erase {α : Type} (m : Store α) (k : Nat) : Store α := m.filter fun e => e.1 != k

/-- List `v` at `k`, in the place of an entry there. -/
def Store.insert {α : Type} (v : α) : Store α → Nat → Store α
  | [], k => [(k, v)]
  | (k', v') :: m, k =>
    if k < k' then (k, v) :: (k', v') :: m
    else if k = k' then (k, v) :: m
    else (k', v') :: Store.insert v m k

/-- Store `v` at `k`, dropping the entry when `drop` says that `v` is the default. -/
def Store.put {α : Type} (drop : Bool) (v : α) (m : Store α) (k : Nat) : Store α :=
  if drop then Store.erase m k else Store.insert v m k

/-- Store `v` at `k` in a table whose default is `d`. -/
def Store.set {α : Type} [DecidableEq α] (d : α) (m : Store α) (k : Nat) (v : α) : Store α :=
  Store.put (v = d) v m k

/-- Change the value at `k` by `f`. -/
def Store.modify {α : Type} [DecidableEq α] (d : α) (m : Store α) (k : Nat) (f : α → α) : Store α :=
  Store.set d m k (f (Store.get d m k))

/-- Keys strictly rising, all above `lo` (when given). -/
def Store.keysFrom {α : Type} : Option Nat → Store α → Bool
  | _, [] => true
  | none, (k, _) :: m => Store.keysFrom (some k) m
  | some lo, (k, _) :: m => decide (lo < k) && Store.keysFrom (some k) m

/-- The canonical form: keys strictly rising and no entry equal to the default. -/
def Store.wf {α : Type} [DecidableEq α] (d : α) (m : Store α) : Bool :=
  Store.keysFrom none m && m.all (fun e => decide (e.2 ≠ d))

end Sys2Proof.Machine
end

