-- ==== Sys2Proof/Machine/CoreTypes.lean ====
section
/-!
DEFINITION. The hidden state of the compute side: crews and instances (06), drills (03, 04), shafts, steps and
work lists (08), memory background state (09), skips and streams (10), tickets, canaries and the pit log (15),
restart records (16). Registers visible to software stand in the control space, not here.
-/
namespace Sys2Proof.Machine

/-- A step of a step sequence (08 R215): the sequence and the step number. -/
structure StepId where
  seq : Nat
  num : Nat
deriving DecidableEq, Repr

/-- A parsed tensor descriptor (08 Table 8.4). -/
structure TensorDesc where
  base : Nat
  scale : Nat
  assay : Nat
  tid : Nat
  fmt : Nat
  mx : Bool
  stepScoped : Bool
  rank : Nat
  bdim : Nat
  dim : List Nat
  stride : List Nat
  rsv : Nat
deriving DecidableEq, Repr

/-- One level of the loop stack (06 Table 6.1). -/
structure LoopLevel where
  first : Nat
  last : Nat
  count : Nat
deriving DecidableEq, Repr

/-- Where a bundle issued, as a skip record names it (06 Table 6.5): its face offset and the loop levels open then. -/
structure Site where
  foff : Nat
  depth : Nat
deriving DecidableEq, Repr

/-- One merge-buffer entry (05 R128), with the site of the first bundle that entered it (06 R160). -/
structure MergeEntry where
  target : Nat
  lode : LodeAcc
  site : Site
deriving DecidableEq, Repr

/-- The state of a tile handle (07 R187). -/
inductive Handle where
  | invalid
  | pending (ctx : Nat)
  | retained (ctx : Nat)
deriving DecidableEq, Repr

/-- A pending sync-slot wait of a crew (07 R199, R200; 08 R227, R231, R232): `sat` is the count that satisfied it, `late` the
count at its deadline and whether its timeout blocks the seal. -/
structure CrewWait where
  tally : Nat
  thresh : Nat
  dst : Nat
  timeout : Nat
  frames : Bool
  since : Nat
  age : Nat
  left : Nat
  declared : Option Nat
  foff : Nat
  sat : Option Nat
  late : Option (Nat × Bool)
deriving DecidableEq, Repr

/-- What one tally has met in the present cycle (08 R226): the largest set and the sum of the adds. -/
structure SignalSum where
  tally : Nat
  top : Nat
  sum : Nat
deriving DecidableEq, Repr

/-- A recorded skip of an instance (16 Table 16.3): face offset, slot code, cause. -/
structure SkipKey where
  foff : Nat
  slot : Nat
  cause : Nat
deriving DecidableEq, Repr

/-- A tally signal of a sync slot (16 R446): target in the layout of R198, set or add, value. -/
structure SignalRec where
  target : Nat
  set : Bool
  value : Nat
deriving DecidableEq, Repr

/-- A completed stream of a restart record (16 R446). -/
structure StreamRec where
  idx : Nat
  residue : Nat
deriving DecidableEq, Repr

/-- The restart record of an instance and what its lost run reported (16 R446-R448); of a restarted run, whether it has differed
from the record. -/
structure Restart where
  signals : List SignalRec
  streams : List StreamRec
  skips : List SkipKey
  past : Bool
  differs : Bool
deriving DecidableEq, Repr

/-- An empty restart record. -/
def Restart.empty : Restart := ⟨[], [], [], false, false⟩

/-- Where an instance came from: a work list, or the deputy's test pack. -/
inductive Origin where
  | dispatch (id : Nat) (idx : Nat)
  | canary (pack : Nat) (idx : Nat) (runlimit : Nat) (expect : Nat)
deriving DecidableEq, Repr

/-- A tile instance on a crew (06 R141, R166; 08 R219; 15 R404-R408). -/
structure Instance where
  tile : Nat
  step : StepId
  args : Nat
  coord : Nat
  entry : Nat
  kface : Nat
  klen : Nat
  seed : Nat
  keyStep : Nat
  origin : Origin
  ballast : Bool
  prio : Nat
  shaft : Nat
  pos : Nat
  level : Nat
  ticket : Nat
  born : Nat
  tickets : List Nat
  oldTickets : List Nat
  shadow : Bool
  pair : Nat
  started : Nat
  order : Nat
  bad : Option Nat
  ended : Bool
  result : Nat
  faultEnd : Bool
  noImage : Bool
  canaryFail : Option Nat
  refusals : List MergeEntry
  storeRefusals : List Site
  restart : Restart
  done : Restart
  nSignal : Nat
  nSkip : Nat
  nPost : Nat
  mergesOut : Nat
  mergeIssued : Bool
deriving DecidableEq, Repr

/-- A duplicate of a vector bundle pending on a crew (05 R136, R137): its number on the stope, the bundle's face offset and the
cycle of its issue, the lane group checked, and whether it has issued. -/
structure Duplicate where
  n : Nat
  foff : Nat
  at_ : Nat
  lanes : Nat
  issued : Bool
deriving DecidableEq, Repr

/-- The activity of a crew (06 Table 6.7, CRW_STATE). -/
inductive CrewPhase where
  | idle | running | waiting | draining
deriving DecidableEq, Repr

/-- The registers of a crew (06 Table 6.1). -/
structure CrewRegs where
  s : Store Dword
  v : Store VReg
  p : Store PReg
deriving DecidableEq, Repr

/-- A scalar, vector or predicate register written in the current bundle (06 R159). -/
inductive RegRef where
  | s (i : Nat)
  | v (i : Nat)
  | p (i : Nat)
  | l (i : Nat)
deriving DecidableEq, Repr

/-- A register with a write pending (06 R146): the slot and the cycle of the bundle that writes it, and the first cycle in which a
bundle that reads it may issue. -/
structure Busy where
  reg : RegRef
  slot : Nat
  issued : Nat
  ready : Nat
deriving DecidableEq, Repr

/-- The crew state (06 Table 6.1), the state of the bundle in issue (06 R145, R159), and what holds the next bundle back (06 R146,
R165): registers with a write pending, the first cycle after a taken branch, the cycle of the last issue, a load slot of the
bundle that has still to read before its store slot writes (06 R147), and SLC_CTRL as the bundle issued with it (05 R139). -/
structure Crew where
  phase : CrewPhase
  inst : Option Instance
  regs : CrewRegs
  pc : Nat
  loops : List LoopLevel
  merge : List MergeEntry
  handles : Store Handle
  snap : CrewRegs
  curFoff : Nat
  curLoops : List LoopLevel
  written : List RegRef
  wait : Option CrewWait
  dups : List Duplicate
  dupCount : Nat
  saveSlot : Option Nat
  preempted : Bool
  saveLen : Nat
  savedH : List (Nat × Nat)
  busy : List Busy
  stall : Nat
  issued : Nat
  loadDue : Bool
  slc : Nat
deriving DecidableEq, Repr

/-- No registers written: every register reads 0 (06 R141). -/
def CrewRegs.zero : CrewRegs := ⟨[], [], []⟩

/-- An idle crew after reset. -/
def Crew.idle : Crew :=
  ⟨.idle, none, CrewRegs.zero, 0, [], [], [], CrewRegs.zero, 0, [], [], none, [], 0, none, false, 0, [], [], 0, 0, false, 0⟩

/-- A pan slot in use: band, cycle of last use, pan (03 R64). -/
structure Pan where
  band : Int
  last : Nat
  val : Int
deriving DecidableEq, Repr

/-- A product waiting for its pan: band and integer in the pan's unit (03 R63). -/
structure PanProduct where
  band : Int
  val : Int
deriving DecidableEq, Repr

/-- One output of the array: three pan slots and the products still pending (03 R64, R65). -/
structure OutCell where
  p0 : Option Pan
  p1 : Option Pan
  p2 : Option Pan
  pend : List PanProduct
deriving DecidableEq, Repr

/-- An output with free slots and nothing pending. -/
def OutCell.empty : OutCell := ⟨none, none, none, []⟩

/-- What a breach record says (03 Table 3.5). -/
structure Breach where
  row : Nat
  col : Nat
  kidx : Nat
  band : Int
  kind : Nat
  cause : Nat
  anchor : Int
  terms : Nat
deriving DecidableEq, Repr

/-- What a tile context is doing (04 R100, R107, R112). -/
inductive TilePhase where
  | ready | running (place : Nat) | stopped | waitUnits | done | retained
deriving DecidableEq, Repr

/-- The checksum state of a tile in units of 2^-300 (04 R114). -/
structure CheckState where
  col : Store Int
  row : Store Int
  colRem : Store Int
  rowRem : Store Int
  residueBad : Bool
deriving DecidableEq, Repr

/-- An empty checksum state. -/
def CheckState.empty : CheckState := ⟨[], [], [], [], false⟩

/-- A tile context of a drill (04 R105, R106, Table 4.6). -/
structure TileCtx where
  id : Nat
  crew : Nat
  handle : Nat
  tile : Nat
  shape : Nat
  ncb : Nat
  lcw : Nat
  mx : Bool
  fmt : Nat
  start : Nat
  out : Nat
  adesc : Nat
  bdesc : Nat
  odesc : Nat
  a : TensorDesc
  b : TensorDesc
  o : TensorDesc
  trow : Nat
  tcol : Nat
  run : Nat
  kind : Nat
  anchor : Int
  widen : Bool
  quad : Bool
  check : Bool
  record : Bool
  recordEvent : Bool
  skipEvent : Bool
  slab : Nat
  pass : Nat
  kpos : Nat
  phase : TilePhase
  lodes : Store LodeAcc
  startLodes : Store LodeAcc
  startKind : Nat
  startAnchor : Int
  cells : Store OutCell
  chk : CheckState
  first : Option Breach
  recs : List Breach
  breached : Bool
  outcome : Option Bool
  units : Nat
deriving DecidableEq, Repr

/-- A place of the array, a quadrant 0-3 or the whole array 4: folds owed, and for a quadrant the folds that fall due in its next
cycles and the pans that each of its 4 row groups has to drain when it starts its next pass (04 R103). -/
structure ArrayPlace where
  owed : Nat
  drains : List Nat
  left : List Nat
deriving DecidableEq, Repr

/-- A place with no fold owed. -/
def ArrayPlace.idle : ArrayPlace := ⟨0, [], []⟩

/-- The drill of a stope (04): contexts in order of admission, array places, the cycle number of last uses and the
hidden quarter remainders of R118. -/
structure Drill where
  ctxs : List TileCtx
  places : Store ArrayPlace
  cycle : Nat
  qIssue : Nat
  qSplit : Nat
  qFold : Nat
  qOpnd : Nat
  held : Nat
  badUnits : Nat
deriving DecidableEq, Repr

/-- A drill after reset. -/
def Drill.idle : Drill := ⟨[], [], 0, 0, 0, 0, 0, 0, 0⟩

/-- A command header and payload as decoded (08 Table 8.1), with its ring index; `met` once its wait is satisfied, `sat` once it
has resumed. -/
structure Command where
  id : Nat
  pos : Nat
  raw : Nat
  unread : Bool
  age : Nat
  declared : Option Nat
  met : Bool
  sat : Bool
deriving DecidableEq, Repr

/-- The execution state of a started command (08 R210, R211). -/
inductive CmdState where
  | working
  | done
deriving DecidableEq, Repr

/-- A started command: whether its work is done, the step it works for, the tickets its commit waits for, and `old` once
the ring has been abandoned under it, so that its completion no longer moves HEAD. -/
structure Started where
  cmd : Command
  state : CmdState
  step : Option StepId
  covers : List Nat
  old : Bool
  failed : Bool
  stallAge : Nat
  stallCounted : Bool
deriving DecidableEq, Repr

/-- The hidden state of a shaft (08 R205-R215, R235). -/
structure Shaft where
  decoded : List Command
  started : List Started
  step : Option StepId
  rejudge : Bool
deriving DecidableEq, Repr

/-- A shaft after reset. -/
def Shaft.idle : Shaft := ⟨[], [], none, false⟩

/-- A re-queued or untaken instance of a dispatch (08 R221-R223). -/
structure Requeued where
  inst : Instance
  levels : Nat
deriving DecidableEq, Repr

/-- A DISPATCH in progress (08 R218-R221). -/
structure Dispatch where
  id : Nat
  shaft : Nat
  cmd : Nat
  pos : Nat
  step : StepId
  list : Nat
  count : Nat
  klen : Nat
  kimg : Nat
  kface : Nat
  levels : Nat
  itally : Option Nat
  prio : Nat
  next : Nat
  finished : Nat
  waitSince : Nat
  copied : List Nat
  copying : List (Nat × Nat)
  copyFailed : List Nat
deriving DecidableEq, Repr

/-- A pit log item (15 Table 15.7): type, flags, source and 56-byte body. -/
structure Item where
  kind : Nat
  blocks : Bool
  late : Bool
  source : Nat
  body : Nat
deriving DecidableEq, Repr

/-- The life of a step (15 R421-R429). -/
inductive StepState where
  | begun | blocked | sealed | aborted | released
deriving DecidableEq, Repr

/-- A step begun on the module (08 R214, R215; 15 R416-R430). -/
structure StepRec where
  id : StepId
  seed : Nat
  bframe : Nat
  shafts : List Nat
  level : Option Nat
  nend : Nat
  endStarted : Nat
  endDone : Nat
  endFrame : Option Nat
  poison : Option Nat
  state : StepState
  items : List Item
  dropSeal : Bool
  nskip : Nat
  vgood : Nat
  vbad : Nat
  digest : Nat
  suspect : Bool
  resolve : Option Bool
deriving DecidableEq, Repr

/-- An unresolved check ticket (15 R407-R413). -/
structure Ticket where
  id : Nat
  step : StepId
  own : Bool
  outcome : Option (Option Nat)
  deps : List Nat
  depBad : Option Nat
  dests : List Nat
  multi : Bool
  waitTile : Option Nat
  joined : List Nat
  born : Nat
deriving DecidableEq, Repr

/-- Traffic of a level-2 run that leaves its stope (15 R405): a kind and its words. -/
structure Traffic where
  kind : Nat
  words : List Nat
deriving DecidableEq, Repr

/-- A level-2 pair (15 R405, R406): what each run has sent and the other has not, whether they differed, which have ended,
the primary's own outcome, the run that waits for a stope, and the primary once it has ended alone. -/
structure Pair where
  id : Nat
  stope : Nat
  primary : List Traffic
  shadow : List Traffic
  mismatch : Bool
  endedP : Bool
  endedS : Bool
  badP : Option Nat
  waitingShadow : Option Instance
  kept : Option Instance
deriving DecidableEq, Repr

/-- A saved crew context (06 R168, R169), with the crew that it was on. -/
structure SavedCtx where
  stope : Nat
  crew : Nat
  slot : Nat
  inst : Instance
  pc : Nat
  wait : Option CrewWait
  preempted : Bool
  ready : Bool
  tiles : List (Nat × TileCtx)
  sites : List Site
deriving DecidableEq, Repr

/-- A stream descriptor (10 Table 10.1). -/
structure StreamDesc where
  src : Nat
  dst : Nat
  rowlen : Nat
  rows : Nat
  sstride : Nat
  dstride : Nat
  sface : Bool
  dface : Bool
  remote : Bool
  gal : Nat
  ctally : Nat
  cadd : Nat
  dnode : Nat
  rtally : Nat
  rate : Nat
  burst : Nat
  rsig : Bool
  rsvOk : Bool
  tag : Nat
deriving DecidableEq, Repr

/-- What a stream is for (10 R271, R272). -/
inductive StreamUse where
  | posted (crew : Nat) (tile : Nat) (idx : Nat) (order : Nat)
  | copy (shaft cmd : Nat) (didx : Nat)
  | image (dispatch : Nat)
  | merge (crew : Nat) (site : Site) (lode : LodeAcc)
deriving DecidableEq, Repr

/-- A tag in flight (10 R277): its number, byte offset and length, its physical runs and its addresses before
translation. -/
structure Tag where
  id : Nat
  off : Nat
  len : Nat
  src : List (Nat × Nat)
  dst : List (Nat × Nat)
  vsrc : Nat
  vdst : Nat
  since : Nat
deriving DecidableEq, Repr

/-- The phase of a stream (10 R268, R285-R287). -/
inductive StreamPhase where
  | queued | running | halted (fid record : Nat) (side : Bool) | ended
deriving DecidableEq, Repr

/-- A stream of a skip (10 R266, R271), with the cycle in which it was accepted, the residue of its destination bytes so far and the one its restart record
expects (16 R446, R447). -/
structure Stream where
  id : Nat
  taken : Nat
  use : StreamUse
  step : StepId
  at_ : Nat
  byVa : Bool
  desc : Option StreamDesc
  phase : StreamPhase
  next : Nat
  tags : List Tag
  tokens : Nat
  refill : Nat
  ticket : Nat
  born : Nat
  tickets : List Nat
  bad : Option Nat
  xfer : Nat
  acked : Bool
  committed : Bool
  shadow : Bool
  pair : Nat
  residue : Nat
  expect : Option Nat
deriving DecidableEq, Repr

/-- A stream that waits to be accepted (10 R270, R271). -/
def Stream.waiting (id : Nat) (use : StreamUse) (step : StepId) (at_ : Nat) (byVa : Bool) : Stream :=
  { id, taken := 0, use, step, at_, byVa, desc := none, phase := .queued, next := 0, tags := [], tokens := 0, refill := 0,
    ticket := 0, born := 0, tickets := [], bad := none, xfer := 0, acked := false, committed := false, shadow := false,
    pair := 0, residue := 0, expect := none }

/-- A cached translation (10 R283): page number, page shift, physical page base, write permission. -/
structure TlbEntry where
  va : Nat
  shift : Nat
  pa : Nat
  w : Bool
deriving DecidableEq, Repr

/-- A skip (10 R266-R284): its streams, its TLB, its next tag number, the issue slots of its group, the slots since its last kibble,
the bytes below 4 KiB that it has moved, and the cycle after its last issue with the tags issued in it. -/
structure Skip where
  streams : List Stream
  tlb : List TlbEntry
  nextTag : Nat
  slot : Nat
  sinceKibble : Nat
  bytes : Nat
  turn : Nat
  issued : Nat
deriving DecidableEq, Repr

/-- A skip after reset. -/
def Skip.idle : Skip := ⟨[], [], 0, 0, 8, 0, 0, 0⟩

/-- An invalidation in progress (10 R284): the tags it waits for, by skip and number. -/
structure Invalidation where
  waits : List (Nat × Nat)
deriving DecidableEq, Repr

/-- A locked sequence in progress (09 R247, R248): the memory, its banks and spare buffers, its owner port, what it applies at
its end (none: applied when it was granted), the crew or else the step that it works for, its first cycle and its length. -/
structure LockedSeq where
  id : Nat
  mem : BankMem
  banks : List Nat
  port : Nat
  op : Option LockOp
  crew : Option CrewRef
  step : Option Nat
  since : Nat
  cycles : Nat
  site : Site
deriving DecidableEq, Repr

/-- Denials of one port at one bank (09 R245): how many consecutive cycles, the cycle after the last of them, and whether it is
promoted. -/
structure PortAge where
  denied : Nat
  next : Nat
  promoted : Bool
deriving DecidableEq, Repr

/-- A port that has not been denied. -/
def PortAge.none : PortAge := ⟨0, 0, false⟩

/-- The steps of a region test (09 R257, R259): copy in, march, repair, the march once more, copy back; or the region stays on
its spare buffer for good. -/
inductive TestPhase where
  | copyIn | march | repair | again | copyBack | retired
deriving DecidableEq, Repr

/-- A region test in progress (09 R257): the memory region, its step, the rows copied in or back, and the failing rows. -/
structure RegionTest where
  mem : TestMem
  region : Nat
  phase : TestPhase
  pos : Nat
  failing : List Nat
deriving DecidableEq, Repr

/-- The hidden state of an HBM controller (09 R260-R263, R265): corrected errors of tracked rows, marked rows with an
address in each, rows in the row cache, one more than the frames of the last sparing, recalibration and scrub, the scrub
position within its unit, bit 38 of the last uncorrectable line with its latched copy, and the lines that its atomic unit holds
with the cycle in which each is free again (R249). -/
structure HbmCtl where
  rowErr : Store Nat
  marked : List (Nat × Nat)
  cached : List Nat
  sparedFrame : Nat
  calFrame : Nat
  scrubFrame : Nat
  line : Nat
  ueTop : Bool
  latched : Option Bool
  atomic : List (Nat × Nat)
deriving DecidableEq, Repr

/-- A controller after reset. -/
def HbmCtl.idle : HbmCtl := ⟨[], [], [], 0, 0, 0, 0, false, none, []⟩

/-- A stope's management state (15 R423, R426; 01 R19, R20): a requested fence, gating and ungating, its canaries, the crew
served last, whether it is held out of service until a canary passes, and one has passed (16 R453, 19 R516), the cycle after the
last one that issued a vector operation (05 R136), the first cycles in which the transcendental and the reduction unit are free
(05 R121), the cycles after the last one that a duplicate took, and took from a bundle (05 R136), and what it leaves service for, 3 gating, 4 a
fence, with the cause (10 R275). -/
structure StopeCtl where
  fence : Nat
  ungate : Bool
  gate : Bool
  canaryNext : Nat
  canaryAge : Nat
  canaryForced : Bool
  canaryLate : Bool
  canaryBusy : Bool
  lastCrew : Nat
  dupSeq : Nat
  imagesOf : List Nat
  returning : Bool
  passed : Bool
  vecNext : Nat
  transFree : Nat
  redFree : Nat
  dupTook : Nat
  stole : Nat
  leaving : Nat
  leaveCause : Nat
  lastGood : Nat
deriving DecidableEq, Repr

/-- A stope's management state after reset. -/
def StopeCtl.idle : StopeCtl := ⟨0, false, false, 0, 0, false, false, false, 15, 0, [], false, false, 0, 0, 0, 0, 0, 0, 0, 0⟩

/-- An armed or frozen region of a manifest (15 Table 15.8): address, length in granules, writable. -/
structure Region where
  va : Nat
  len : Nat
  writable : Bool
deriving DecidableEq, Repr

/-- A snapshot in progress (15 R433-R437): its command, step, manifest, regions and destinations, whether copy-on-write is
armed, the granules copied, the data copied by place in the image, and the tickets its seal waits for. -/
structure Snapshot where
  shaft : Nat
  cmd : Nat
  step : StepId
  man : Nat
  regions : List Region
  host : Bool
  cxldst : Nat
  hostdst : Nat
  armed : Bool
  copied : List Nat
  data : Store Nat
  covers : List Nat
deriving DecidableEq, Repr

/-- A test pack entry (15 Table 15.5). -/
structure PackEntry where
  koff : Nat
  klen : Nat
  entry : Nat
  seed : Nat
  step : Nat
  expect : Nat
  runlimit : Nat
  argoff : Nat
  foff : Nat
  flen : Nat
deriving DecidableEq, Repr

/-- A test pack in the pack region (15 R425, R426): version, the half that holds it, entries, and its SHA-512 digest. -/
structure Pack where
  version : Nat
  half : Nat
  entries : List PackEntry
  digest : Nat
deriving DecidableEq, Repr

/-- A fault that a check has handed to the deputy (04 R115, 05 R137): 0 a duplicate, 1 the comparator trees, 2 a residue of a sum,
3 a tile's exact check; the stope, crew and tile instance, the bundle's face offset, the lane group, and the mismatching rows
and columns of the tile. -/
structure Finding where
  kind : Nat
  stope : Nat
  crew : Nat
  tile : Nat
  foff : Nat
  lanes : Nat
  rows : List Nat
  cols : List Nat
deriving DecidableEq, Repr

/-- Who waits for room, or for a copy: a packet in its gallery, the next entry of a DISPATCH, a re-queued instance (its ticket), a
stream (skip, number), a bucket, a riffle operation (with the part of its work that waits), or a SMELT. -/
inductive WaitKey where
  | packet (p : Packet)
  | entry (dispatch next : Nat)
  | again (ticket : Nat)
  | stream (skip id : Nat)
  | bucket (num part : Nat)
  | riffle (id part : Nat)
  | smelt (tag : Nat)
deriving DecidableEq, Repr

/-- What is waited for: a completion entry (11 R321), a ticket (15 R410), the copies of granules (15 R434), a bucket (12 R336) or an
operation slot (13 R364). -/
inductive WaitFor where
  | completion
  | ticket
  | copies (spans : List (Nat × Nat))
  | bucketPlace
  | rifflePlace
deriving DecidableEq, Repr

/-- Does a packet wait for this in its gallery. -/
def WaitFor.inGallery : WaitFor → Bool
  | .copies _ => false
  | _ => true

/-- A packet in the buffer it came in by (11 R308, R312-R315): the number of its buffer, one for all its copies; where it came in
(none: injected here); since when it has found no adaptive candidate; whether it is held; the dimension and direction of a
multicast copy; and, of a packet that has reached its module, whether its LAST bit has been looked at. It keeps its place until
its last copy has left. -/
structure QPkt where
  pkt : Packet
  buf : Nat
  port : Option Nat
  since : Option Nat
  held : Bool
  way : Option (Nat × Nat)
  seen : Bool
deriving DecidableEq, Repr

/-- A link block as sent (11 R299): sequence number, NAK, LCTL, LARG, SOP, IDLE, its 512 bytes of flits, how many
packets end in it, and whether it has been resent since the last NAK. -/
structure LinkBlock where
  seq : Nat
  nak : Bool
  lctl : Nat
  larg : Nat
  sop : Nat
  idle : Nat
  flits : Nat
  ends : Nat
  resent : Bool
deriving DecidableEq, Repr

/-- The hidden state of an adit (11 R299-R302, R306-R309): output queue, the packet being sent and its flits still to go, replay
buffer and the next block of it to send again, the block that NAKs name and how many of its resends have failed, sequence numbers, NAKs, what the peer's trailers said, received flits of a packet still arriving, the
receive buffer, the flow states it sends, and its lanes. -/
structure Adit where
  queue : List QPkt
  sending : Option QPkt
  cur : List Nat
  txSeq : Nat
  replay : List LinkBlock
  resend : Option Nat
  nakSeq : Nat
  fails : Nat
  rxSeq : Nat
  nak : Bool
  dropping : Bool
  peerOn : Nat
  part : List Nat
  rx : List QPkt
  adaptOff : Nat
  escOff : Nat
  turn : Nat
  attempts : Nat
  lanePending : Bool
  lctl : Nat
  larg : Nat
  peerRetrain : Bool
deriving DecidableEq, Repr

/-- An adit after reset. -/
def Adit.idle : Adit :=
  ⟨[], none, [], 0, [], none, 0, 0, 4095, false, false, 0, [], [], 0, 0, 0, 0, false, 0, 0, false⟩

/-- An entry of the completion table (11 R321): sender, transfer, tally epoch, packets counted, COUNT once known, and
whether the transfer is refused. -/
structure CplEntry where
  src : Nat
  xfer : Nat
  epoch : Nat
  n : Nat
  c : Option Nat
  refused : Bool
deriving DecidableEq, Repr

/-- A stage of a bucket (12 R341, R345, Table 12.5): pass, all-gather, index of its dimension among the selected ones,
reshift round. -/
structure HstStage where
  pass : Nat
  ag : Bool
  i : Nat
  round : Nat
deriving DecidableEq, Repr

/-- What has arrived of a set of blocks in the current stage (12 R351): mask and count with the own part in, and whether
it has been sent on. -/
structure HstSet where
  mask : Nat
  count : Nat
  sent : Bool
deriving DecidableEq, Repr

/-- An open bucket (12 R333-R356): its entry, the own command and contribution, the muster, the stage and its sets (keyed
32 x direction + digit), the counts held from the stage before, anchors, assay and census bytes, and for a gather the
slices and DONE transfers of the W peers. -/
structure Bucket where
  num : Nat
  entry : Nat
  step : StepId
  cmd : Option (Nat × Nat)
  src : Option TensorDesc
  dest : Option TensorDesc
  mode : Nat
  included : Option Bool
  muster : Nat
  f0 : Option Nat
  deadline : Nat
  finalSeal : Bool
  tailEvent : Bool
  first : Nat
  stage : Option HstStage
  sets : Store HstSet
  own : List Nat
  prev : Store Nat
  firstMask : Nat
  total : Nat
  anchors : Store Int
  data : Store Nat
  flagged : List Nat
  reshifts : Nat
  failed : Bool
  delivered : Bool
  wsent : Bool
  wgot : List Nat
  doneFrom : List Nat
deriving DecidableEq, Repr

/-- A hoist or riffle transfer that waits for its XACK (12 R328): its identifier, ticket, engine (1 hoist, 2 riffle), and
the bucket or operation it belongs to. -/
structure Xfer where
  xfer : Nat
  ticket : Nat
  engine : Nat
  key : Nat
deriving DecidableEq, Repr

/-- A choice of a riffle dispatch (13 Table 13.6): the member it belongs to or decides it, global token, local expert,
choice, slot, and whether it is kept. -/
structure RflItem where
  member : Nat
  token : Nat
  expert : Nat
  j : Nat
  slot : Nat
  kept : Bool
deriving DecidableEq, Repr

/-- An open riffle operation (13 R364): 1 DISPATCH, 2 COMBINE, 3 TEACH; its entry and command, the transfers still to send
(phase and member), what has been received of each phase, and for a COMBINE the returned pieces held, the bytes added and whether its outcome is bad. -/
structure Riffle where
  id : Nat
  num : Nat
  entry : Nat
  oper : Nat
  step : StepId
  cmd : Option (Nat × Nat)
  raw : Nat
  badSeal : Bool
  dropEvent : Bool
  todo : List (Nat × Nat)
  census : List RflItem
  censusFrom : List Nat
  verdicts : List RflItem
  verdictFrom : List Nat
  decided : Bool
  masked : Bool
  rowsFrom : List Nat
  held : List Packet
  added : Nat
  converted : Bool
  bad : Bool
  outd : Option TensorDesc
  failed : Bool
  finished : Bool
deriving DecidableEq, Repr

/-- A begin mark of a phase that has no end yet (14 R398, R399): frame, cycles since its boundary and frequency code. -/
structure PhaseMark where
  phase : Nat
  mb : Nat
  frame : Nat
  cyc : Nat
  freq : Nat
deriving DecidableEq, Repr

/-- The phase times of the smelter (14 R399-R401): begins without an end, newest first; the last durations of each phase,
oldest first; and whether an end record of this frame was LONG. -/
structure PhaseCtl where
  begun : List PhaseMark
  kept : Store (List Nat)
  long : Bool
deriving DecidableEq, Repr

/-- The tensors of a SMELT (14 Table 14.3), read as it starts: GRAD, WOUT and the four states, and whether a descriptor holds a
marked word. -/
structure SmeltDescs where
  grad : Option TensorDesc
  wout : Option TensorDesc
  states : List (Option TensorDesc)
  bad : Bool
deriving DecidableEq, Repr

/-- A SMELT in progress (14 R380-R395): its command, operation, step, block, program and seam header as read at its start,
SML_CTRL and SML_REBASE as they stood, the next chunk, the anchor in use and the rebase it applies, the sums of R393, the
counts and the residue so far, the largest magnitude, the flags OVF, retried and begun writing. -/
structure Smelt where
  id : Nat
  shaft : Nat
  cmd : Nat
  oper : Nat
  delta : Int
  step : StepId
  block : Nat
  prog : Nat
  hdr : Nat
  ctrl : Nat
  rebase : Nat
  chunk : Nat
  anchor : Int
  shift : Nat
  sd : Nat
  sw : Nat
  lost : Nat
  residue : Nat
  top : Nat
  ovf : Bool
  retried : Bool
  writing : Bool
  descs : SmeltDescs
deriving DecidableEq, Repr

/-- A WORD held for its frame (17 R460): effective frame, code, sequence, and whether it arrived late. -/
structure FreqWord where
  frame : Nat
  code : Nat
  seq : Nat
  late : Bool
deriving DecidableEq, Repr

/-- A REPORT that has arrived (17 R461). -/
structure BankReport where
  gated : Nat
  defer : Nat
  head : Int
  long : Bool
deriving DecidableEq, Repr

/-- The hidden state of the whistle and the banksman (17 R455-R462): the root's node address, frames in a row with a small
correction, frames since a timing input, frames of holdover, whether a timing input came in this frame and how large its
correction was, the words held, the sequence of the last word applied, the reports of this frame, and the banksman's
counts, code and next sequence. -/
structure Whistle where
  root : Nat
  lockRun : Nat
  quiet : Nat
  held : Nat
  seen : Bool
  corr : Nat
  words : List FreqWord
  lastSeq : Option Nat
  reports : List BankReport
  up : Nat
  down : Nat
  code : Option Nat
  seq : Nat
deriving DecidableEq, Repr

/-- The whistle after reset. -/
def Whistle.idle : Whistle := ⟨0, 0, 0, 0, false, 0, [], none, [], 0, 0, none, 0⟩

/-- Sums of samples of a frame, in mW. -/
structure Mean where
  sum : Nat
  n : Nat
deriving DecidableEq, Repr

/-- The hidden state of the power loops (17 R463-R475), draws in mW: the last samples of the estimate and its shares
(raw, estimate, links, memory, headframe and the rest, compute), of the measurement and of the controlled draw, their sums
over the frame, microseconds since the last telemetry sample, frames in a row of disagreement, of valid measurement under
distrust and of recalibration with its sums, whether the last frame mean was low, draw per active stope over the last
frame, the coolant cut, low flow, the levels being throttled and those throttled in this frame, the deferral (frames since its first tick),
whether a frame had a deferral, of how many W, or protection, protection asked for by the cap, by the limit and by heat, its stretch ratio,
whether ballast is held back or wanted, the ramped target and its step in nW, and the last frames' controlled draw and
target. -/
structure Power where
  raw : Nat
  est : Nat
  links : Nat
  hbm : Nat
  other : Nat
  compute : Nat
  meas : Nat
  ctl : Nat
  mRaw : Mean
  mEst : Mean
  mMeas : Mean
  mCtl : Mean
  mCompute : Mean
  age : Nat
  disagree : Nat
  valid : Nat
  recal : Nat
  sumMeas : Nat
  sumRaw : Nat
  low : Bool
  perStope : Nat
  cut : Nat
  slow : Bool
  hot : List Nat
  hotFrame : Bool
  defers : Nat
  deferFrame : Bool
  deferW : Nat
  protectFrame : Bool
  needCap : Bool
  needLimit : Bool
  needHeat : Bool
  stretch : Nat
  noBallast : Bool
  extra : Bool
  target : Nat
  ramp : Nat
  window : List (Nat × Nat)
  windowEnd : Bool
deriving DecidableEq, Repr

/-- The power loops after reset: the target stands at the reset value of PWR_SETPOINT. -/
def Power.idle : Power where
  raw := 0
  est := 0
  links := 0
  hbm := 0
  other := 0
  compute := 0
  meas := 0
  ctl := 0
  mRaw := ⟨0, 0⟩
  mEst := ⟨0, 0⟩
  mMeas := ⟨0, 0⟩
  mCtl := ⟨0, 0⟩
  mCompute := ⟨0, 0⟩
  age := 0
  disagree := 0
  valid := 0
  recal := 0
  sumMeas := 0
  sumRaw := 0
  low := false
  perStope := 0
  cut := 0
  slow := false
  hot := []
  hotFrame := false
  defers := 0
  deferFrame := false
  deferW := 0
  protectFrame := false
  needCap := false
  needLimit := false
  needHeat := false
  stretch := 0
  noBallast := false
  extra := false
  target := 1200000000000
  ramp := 0
  window := []
  windowEnd := false

/-- A block reset in progress (18 R488): the instant of its idle request once made, in the parts of a ps that cycles are counted
in, whether it was idle at the end of a cycle up to its deadline cycle, the cycle in which the state it is in began, and the state
and fence cause that a stope had before. -/
structure BlockCtl where
  asked : Option Nat
  idle : Bool
  since : Nat
  prior : Nat
deriving DecidableEq, Repr

/-- No block reset. -/
def BlockCtl.rest : BlockCtl := ⟨none, false, 0, 0⟩

/-- A reset that a command has scheduled (19 R516, R523): its bit in RST_CAUSE, SCOPE and instant in ps. -/
structure DueReset where
  cause : Nat
  scope : Nat
  at_ : Nat
deriving DecidableEq, Repr

/-- The lamp room's power, resets and fuses (18 R478-R494; 20 R528-R537): the inputs present, the package rails, the pins
PERST#, RST_OUT# and THERM_TRIP# (true: asserted), PRSNT#, instants in ps, the module reset in progress (1: FLR, 2:
module domains), domains released, the strap measurement (0 done, 1 one reading, 2 power-on sampling) with its last code,
its run and its count, whether images run, whether HBM is trained, rails held off after a trip or a fault, restarts in a
row, the watchdog, a takeover in progress, block resets, scheduled resets, revocation bits and security version fused,
flash written since manufacture, banks whose staging did not end well, the fence record, spares brought in, rows made
hard repairs, the operator pack key (0: none), and the stopes that a block reset held OFF when the module was reset (R485). -/
structure Lamp where
  standby : Bool
  input : Bool
  inputAt : Nat
  rails : Bool
  present : Bool
  perst : Bool
  rstOut : Bool
  tripPin : Bool
  scope : Nat
  resetAt : Nat
  released : Nat
  strapMode : Nat
  strapLast : Option Nat
  strapRun : Nat
  strapCount : Nat
  strapBad : Bool
  booted : Bool
  trained : Bool
  tripHold : Bool
  tripAt : Nat
  faultHold : Bool
  faultAt : Nat
  restarts : Nat
  restartAt : Nat
  watchAt : Nat
  takeover : Bool
  blocks : Store BlockCtl
  due : List DueReset
  revoked : Nat
  svn : Nat
  flash : Store Byte
  badBanks : List Nat
  fences : Store Nat
  spares : List Nat
  hard : List (Nat × Nat)
  packKey : Nat
  heldOff : List Nat
deriving DecidableEq, Repr

/-- The lamp room just after a power-on reset: standby present, PERST# pulled up, nothing else on. -/
def Lamp.idle : Lamp where
  standby := true
  input := false
  inputAt := 0
  rails := false
  present := true
  perst := false
  rstOut := true
  tripPin := false
  scope := 2
  resetAt := 0
  released := 0
  strapMode := 2
  strapLast := none
  strapRun := 0
  strapCount := 0
  strapBad := true
  booted := false
  trained := false
  tripHold := false
  tripAt := 0
  faultHold := false
  faultAt := 0
  restarts := 0
  restartAt := 0
  watchAt := 0
  takeover := false
  blocks := []
  due := []
  revoked := 0
  svn := 0
  flash := []
  badBanks := []
  fences := []
  spares := []
  hard := []
  packKey := 0
  heldOff := []

/-- An entry of the measurement log (18 R495). -/
structure MeasEntry where
  index : Nat
  digest : Nat
  frame : Nat
deriving DecidableEq, Repr

/-- A command that the foreman has acknowledged (19 R512): its cage, and the header and the request as copied. -/
structure CageCopy where
  cage : Nat
  head : Nat
  req : Nat
deriving DecidableEq, Repr

/-- A long command that runs (19 R513, R514): identifier, OPC, TAG, where it came from (0 cage, 1 sideband cage, 2 PLDM),
its request, and the bytes that came with it (PLDM). -/
structure LongCmd where
  id : Nat
  opc : Nat
  tag : Nat
  via : Nat
  req : Nat
  reqlen : Nat
  data : Nat
deriving DecidableEq, Repr

/-- The foreman (19 R508-R523): the acknowledged cage, the cage served last, the long commands and their next identifier,
the image types that an activation has switched (the foreman, the engines by number, the tables), the measurement log, the
endpoint identifiers of the sideband and of PCIe, the dynamic I3C address, and whether an I3C CCC has arrived. -/
structure Foreman where
  acked : Option CageCopy
  lastCage : Nat
  longs : List LongCmd
  nextId : Nat
  handed : Bool
  engines : List Nat
  tables : Bool
  log : List MeasEntry
  eidSide : Nat
  eidPcie : Nat
  i3c : Option Nat
  ccc : Bool
deriving DecidableEq, Repr

/-- The foreman after a cold reset. -/
def Foreman.idle : Foreman where
  acked := none
  lastCage := 15
  longs := []
  nextId := 1
  handed := false
  engines := []
  tables := false
  log := []
  eidSide := 0
  eidPcie := 0
  i3c := none
  ccc := false

/-- The host port (19 R499-R507; 10 R292): power state D3hot, log2 of the size of BAR2, ATS enabled, pages in the
translation cache, vectors unmasked and pending, retraining attempts at the CXL ports, and writes to the control space that
engines have sent and that are not yet performed. -/
structure HostPort where
  d3 : Bool
  bar2 : Nat
  atsOn : Bool
  ats : List Nat
  open_ : Store Bool
  waiting : Store Bool
  cxlTries : Store Nat
  posted : List (Nat × Nat × Nat)
deriving DecidableEq, Repr

/-- The host port after reset: BAR2 of 64 GiB, every vector masked. (PRESUMED: notes/assumptions/71) -/
def HostPort.idle : HostPort where
  d3 := false
  bar2 := 36
  atsOn := false
  ats := []
  open_ := []
  waiting := []
  cxlTries := []
  posted := []

end Sys2Proof.Machine
end

