-- ==== Sys2Proof/Machine/RegMap.lean ====
section
/-!
DEFINITION. The control space (19_host_lamproom R501, Table 19.3): every register of the register tables of
the spec's chapters, at its offset, with each field's bits, access code (00_scope Table 0.1) and reset value,
transcribed from Tables 2.8, 3.9, 4.7, 5.6, 6.7, 8.8, 8.9, 9.6, 9.7, 10.9, 10.10, 11.7, 11.8, 12.7, 13.7,
14.7, 15.10-15.12, 16.4, 17.4, 17.5, 18.10, 19.10 and 19.11.
-/
namespace Sys2Proof.Machine

/-- The access codes of Table 0.1; `rsv` is a reserved field (R8). -/
inductive Access where
  | rw | ro | rov | w1c | w1s | rws | rsv
deriving DecidableEq, Repr

/-- A field of a register table row: bits, access code, reset value. -/
structure FieldSpec where
  hi : Nat
  lo : Nat
  acc : Access
  reset : Nat
deriving DecidableEq, Repr

/-- A row of a register table: base offset, stride, number of instances, fields. -/
structure RegSpec where
  base : Nat
  stride : Nat
  count : Nat
  fields : List FieldSpec
deriving DecidableEq, Repr

/-- The bits of a named field. -/
structure Fld where
  hi : Nat
  lo : Nat
deriving DecidableEq, Repr

/-- Registers of the SFT block, part 0. -/
def regTableSFT0 : List RegSpec := [
  ⟨0x300100, 0x0, 1, [⟨31, 0, .rw, 0x0⟩]⟩,
  ⟨0x300104, 0x0, 1, [⟨31, 0, .rw, 0x0⟩]⟩,
  ⟨0x300108, 0x0, 1, [⟨31, 0, .rov, 0x0⟩]⟩,
  ⟨0x30010c, 0x0, 1, [⟨31, 0, .rov, 0x0⟩]⟩,
  ⟨0x300000, 0x0, 1, [⟨31, 3, .rsv, 0x0⟩, ⟨2, 2, .rw, 0x1⟩, ⟨1, 1, .rw, 0x1⟩, ⟨0, 0, .rw, 0x1⟩]⟩,
  ⟨0x300004, 0x0, 1, [⟨31, 16, .rsv, 0x0⟩, ⟨15, 0, .rw, 0x9c4⟩]⟩,
  ⟨0x300008, 0x0, 1, [⟨31, 0, .rw, 0x100000⟩]⟩,
  ⟨0x30000c, 0x0, 1, [⟨31, 3, .rsv, 0x0⟩, ⟨2, 0, .rov, 0x0⟩]⟩,
  ⟨0x30001c, 0x0, 1, [⟨31, 0, .rov, 0x0⟩]⟩,
  ⟨0x301000, 0x40, 256, [⟨31, 12, .rw, 0x0⟩, ⟨11, 0, .rsv, 0x0⟩]⟩,
  ⟨0x301004, 0x40, 256, [⟨31, 25, .rsv, 0x0⟩, ⟨24, 0, .rw, 0x0⟩]⟩,
  ⟨0x301008, 0x40, 256, [⟨31, 20, .rsv, 0x0⟩, ⟨19, 16, .rw, 0x6⟩, ⟨15, 6, .rsv, 0x0⟩, ⟨5, 4, .rw, 0x0⟩, ⟨3, 3, .w1s, 0x0⟩, ⟨2, 2, .w1s, 0x0⟩, ⟨1, 1, .rsv, 0x0⟩, ⟨0, 0, .rw, 0x0⟩]⟩]

/-- Registers of the SFT block, part 1. -/
def regTableSFT1 : List RegSpec := [
  ⟨0x30100c, 0x40, 256, [⟨31, 16, .rsv, 0x0⟩, ⟨15, 0, .rw, 0x0⟩]⟩,
  ⟨0x301010, 0x40, 256, [⟨31, 16, .rsv, 0x0⟩, ⟨15, 0, .rov, 0x0⟩]⟩,
  ⟨0x301014, 0x40, 256, [⟨31, 16, .rsv, 0x0⟩, ⟨15, 0, .rov, 0x0⟩]⟩,
  ⟨0x301018, 0x40, 256, [⟨31, 30, .rov, 0x0⟩, ⟨29, 24, .rsv, 0x0⟩, ⟨23, 16, .rov, 0x0⟩, ⟨15, 0, .rov, 0x0⟩]⟩,
  ⟨0x30101c, 0x40, 256, [⟨31, 0, .rov, 0x0⟩]⟩,
  ⟨0x300010, 0x0, 1, [⟨31, 0, .rov, 0x0⟩]⟩,
  ⟨0x300014, 0x0, 1, [⟨31, 0, .rov, 0x0⟩]⟩,
  ⟨0x300018, 0x0, 1, [⟨31, 0, .rov, 0x0⟩]⟩]

/-- The SFT block. -/
def regTableSFT : List RegSpec := regTableSFT0 ++ regTableSFT1

/-- Registers of the LOD block, part 0. -/
def regTableLOD0 : List RegSpec := [
  ⟨0x600000, 0x0, 1, [⟨31, 2, .rsv, 0x0⟩, ⟨1, 1, .rw, 0x1⟩, ⟨0, 0, .rw, 0x0⟩]⟩,
  ⟨0x600004, 0x0, 1, [⟨31, 0, .rov, 0x0⟩]⟩,
  ⟨0x601000, 0x20, 144, [⟨31, 0, .rov, 0x0⟩]⟩,
  ⟨0x601004, 0x20, 144, [⟨31, 0, .rov, 0x0⟩]⟩,
  ⟨0x601008, 0x20, 144, [⟨31, 0, .rov, 0x0⟩]⟩,
  ⟨0x60100c, 0x20, 144, [⟨31, 0, .rov, 0x0⟩]⟩,
  ⟨0x601010, 0x20, 144, [⟨31, 0, .rov, 0x0⟩]⟩,
  ⟨0x601014, 0x20, 144, [⟨31, 0, .rov, 0x0⟩]⟩]

/-- The LOD block. -/
def regTableLOD : List RegSpec := regTableLOD0

/-- Registers of the DRL block, part 0. -/
def regTableDRL0 : List RegSpec := [
  ⟨0x500000, 0x0, 1, [⟨31, 3, .rsv, 0x0⟩, ⟨2, 2, .rw, 0x1⟩, ⟨1, 1, .rw, 0x0⟩, ⟨0, 0, .rw, 0x0⟩]⟩,
  ⟨0x500010, 0x0, 1, [⟨31, 0, .rw, 0x0⟩]⟩,
  ⟨0x500014, 0x0, 1, [⟨31, 25, .rsv, 0x0⟩, ⟨24, 0, .rw, 0x0⟩]⟩,
  ⟨0x500018, 0x0, 1, [⟨31, 16, .rsv, 0x0⟩, ⟨15, 0, .rw, 0x0⟩]⟩,
  ⟨0x50001c, 0x0, 1, [⟨31, 16, .rsv, 0x0⟩, ⟨15, 0, .rov, 0x0⟩]⟩,
  ⟨0x500020, 0x0, 1, [⟨31, 16, .rsv, 0x0⟩, ⟨15, 0, .rw, 0x0⟩]⟩,
  ⟨0x500024, 0x0, 1, [⟨31, 0, .rov, 0x0⟩]⟩,
  ⟨0x501000, 0x40, 144, [⟨31, 24, .rsv, 0x0⟩, ⟨23, 16, .rov, 0x60⟩, ⟨15, 8, .rov, 0x0⟩, ⟨7, 1, .rsv, 0x0⟩, ⟨0, 0, .rov, 0x0⟩]⟩,
  ⟨0x501004, 0x40, 144, [⟨31, 0, .rov, 0x0⟩]⟩,
  ⟨0x501008, 0x40, 144, [⟨31, 0, .rov, 0x0⟩]⟩,
  ⟨0x50100c, 0x40, 144, [⟨31, 0, .rov, 0x0⟩]⟩,
  ⟨0x501010, 0x40, 144, [⟨31, 0, .rov, 0x0⟩]⟩]

/-- Registers of the DRL block, part 1. -/
def regTableDRL1 : List RegSpec := [
  ⟨0x501014, 0x40, 144, [⟨31, 0, .rov, 0x0⟩]⟩,
  ⟨0x501018, 0x40, 144, [⟨31, 0, .rov, 0x0⟩]⟩,
  ⟨0x50101c, 0x40, 144, [⟨31, 0, .rov, 0x0⟩]⟩,
  ⟨0x501020, 0x40, 144, [⟨31, 0, .rov, 0x0⟩]⟩,
  ⟨0x501024, 0x40, 144, [⟨31, 0, .rov, 0x0⟩]⟩,
  ⟨0x501028, 0x40, 144, [⟨31, 0, .rov, 0x0⟩]⟩,
  ⟨0x50102c, 0x40, 144, [⟨31, 0, .rov, 0x0⟩]⟩]

/-- The DRL block. -/
def regTableDRL : List RegSpec := regTableDRL0 ++ regTableDRL1

/-- Registers of the SLC block, part 0. -/
def regTableSLC0 : List RegSpec := [
  ⟨0x700000, 0x0, 1, [⟨31, 16, .rsv, 0x0⟩, ⟨15, 8, .rw, 0x10⟩, ⟨7, 2, .rsv, 0x0⟩, ⟨1, 1, .rw, 0x1⟩, ⟨0, 0, .rw, 0x0⟩]⟩,
  ⟨0x701000, 0x40, 144, [⟨31, 0, .rov, 0x0⟩]⟩,
  ⟨0x701004, 0x40, 144, [⟨31, 0, .rov, 0x0⟩]⟩,
  ⟨0x701008, 0x40, 144, [⟨31, 0, .rov, 0x0⟩]⟩,
  ⟨0x70100c, 0x40, 144, [⟨31, 0, .rov, 0x0⟩]⟩,
  ⟨0x701010, 0x40, 144, [⟨31, 0, .rov, 0x0⟩]⟩,
  ⟨0x701014, 0x40, 144, [⟨31, 0, .rov, 0x0⟩]⟩,
  ⟨0x701018, 0x40, 144, [⟨31, 0, .rov, 0x0⟩]⟩,
  ⟨0x70101c, 0x40, 144, [⟨31, 0, .rov, 0x0⟩]⟩,
  ⟨0x701020, 0x40, 144, [⟨31, 0, .rov, 0x0⟩]⟩,
  ⟨0x701024, 0x40, 144, [⟨31, 0, .rov, 0x0⟩]⟩,
  ⟨0x701028, 0x40, 144, [⟨31, 0, .rov, 0x0⟩]⟩]

/-- The SLC block. -/
def regTableSLC : List RegSpec := regTableSLC0

/-- Registers of the CRW block, part 0. -/
def regTableCRW0 : List RegSpec := [
  ⟨0x800000, 0x0, 1, [⟨31, 3, .rsv, 0x0⟩, ⟨2, 2, .rw, 0x0⟩, ⟨1, 1, .rw, 0x0⟩, ⟨0, 0, .rw, 0x1⟩]⟩,
  ⟨0x800004, 0x0, 1, [⟨31, 0, .rw, 0x1000⟩]⟩,
  ⟨0x800010, 0x0, 1, [⟨31, 0, .rw, 0x0⟩]⟩,
  ⟨0x800014, 0x0, 1, [⟨31, 25, .rsv, 0x0⟩, ⟨24, 0, .rw, 0x0⟩]⟩,
  ⟨0x800018, 0x0, 1, [⟨31, 13, .rsv, 0x0⟩, ⟨12, 0, .rw, 0x0⟩]⟩,
  ⟨0x80001c, 0x0, 1, [⟨31, 13, .rsv, 0x0⟩, ⟨12, 0, .rov, 0x0⟩]⟩,
  ⟨0x800020, 0x0, 1, [⟨31, 0, .rw, 0x0⟩]⟩,
  ⟨0x800024, 0x0, 1, [⟨31, 25, .rsv, 0x0⟩, ⟨24, 0, .rw, 0x0⟩]⟩,
  ⟨0x800028, 0x0, 1, [⟨31, 16, .rsv, 0x0⟩, ⟨15, 0, .rw, 0x0⟩]⟩,
  ⟨0x80002c, 0x0, 1, [⟨31, 16, .rsv, 0x0⟩, ⟨15, 0, .rov, 0x0⟩]⟩,
  ⟨0x800030, 0x0, 1, [⟨31, 16, .rsv, 0x0⟩, ⟨15, 0, .rw, 0x0⟩]⟩,
  ⟨0x800034, 0x0, 1, [⟨31, 0, .rov, 0x0⟩]⟩]

/-- Registers of the CRW block, part 1. -/
def regTableCRW1 : List RegSpec := [
  ⟨0x801000, 0x40, 144, [⟨31, 0, .rov, 0x0⟩]⟩,
  ⟨0x801004, 0x40, 144, [⟨31, 0, .rov, 0x0⟩]⟩,
  ⟨0x801008, 0x40, 144, [⟨31, 0, .rov, 0x0⟩]⟩,
  ⟨0x80100c, 0x40, 144, [⟨31, 0, .rov, 0x0⟩]⟩,
  ⟨0x801010, 0x40, 144, [⟨31, 0, .rov, 0x0⟩]⟩,
  ⟨0x801014, 0x40, 144, [⟨31, 0, .rov, 0x0⟩]⟩,
  ⟨0x801018, 0x40, 144, [⟨31, 0, .rov, 0x0⟩]⟩,
  ⟨0x80101c, 0x40, 144, [⟨31, 0, .rov, 0x0⟩]⟩,
  ⟨0x801020, 0x40, 144, [⟨31, 0, .rov, 0x0⟩]⟩]

/-- The CRW block. -/
def regTableCRW : List RegSpec := regTableCRW0 ++ regTableCRW1

/-- Registers of the TLY block, part 0. -/
def regTableTLY0 : List RegSpec := [
  ⟨0x400000, 0x0, 1, [⟨31, 16, .rsv, 0x0⟩, ⟨15, 8, .rov, 0x0⟩, ⟨7, 0, .rw, 0x0⟩]⟩,
  ⟨0x400008, 0x0, 1, [⟨31, 0, .rw, 0x0⟩]⟩,
  ⟨0x40000c, 0x0, 1, [⟨31, 0, .rw, 0x0⟩]⟩,
  ⟨0x400010, 0x0, 1, [⟨31, 0, .rw, 0x0⟩]⟩,
  ⟨0x400014, 0x0, 1, [⟨31, 17, .rsv, 0x0⟩, ⟨16, 16, .rw, 0x0⟩, ⟨15, 0, .rw, 0x0⟩]⟩,
  ⟨0x400020, 0x0, 1, [⟨31, 0, .rov, 0x0⟩]⟩,
  ⟨0x400024, 0x0, 1, [⟨31, 0, .rov, 0x0⟩]⟩,
  ⟨0x400028, 0x0, 1, [⟨31, 0, .rov, 0x0⟩]⟩,
  ⟨0x40002c, 0x0, 1, [⟨31, 0, .rov, 0x0⟩]⟩,
  ⟨0x440000, 0x4, 65536, [⟨31, 0, .rov, 0x0⟩]⟩]

/-- The TLY block. -/
def regTableTLY : List RegSpec := regTableTLY0

/-- Registers of the MEM block, part 0. -/
def regTableMEM0 : List RegSpec := [
  ⟨0x900000, 0x0, 1, [⟨31, 4, .rsv, 0x0⟩, ⟨3, 3, .rw, 0x1⟩, ⟨2, 2, .rw, 0x0⟩, ⟨1, 1, .rw, 0x1⟩, ⟨0, 0, .rw, 0x1⟩]⟩,
  ⟨0x900004, 0x0, 1, [⟨31, 20, .rsv, 0x0⟩, ⟨19, 0, .rw, 0xfa0⟩]⟩,
  ⟨0x900008, 0x0, 1, [⟨31, 0, .rov, 0x0⟩]⟩,
  ⟨0x900010, 0x0, 1, [⟨31, 0, .rov, 0x0⟩]⟩,
  ⟨0x900014, 0x0, 1, [⟨31, 16, .rsv, 0x0⟩, ⟨15, 0, .rov, 0x0⟩]⟩,
  ⟨0x900018, 0x0, 1, [⟨31, 24, .rov, 0x0⟩, ⟨23, 16, .rov, 0x0⟩, ⟨15, 7, .rsv, 0x0⟩, ⟨6, 0, .rov, 0x0⟩]⟩,
  ⟨0x901000, 0x20, 144, [⟨31, 0, .rov, 0x0⟩]⟩,
  ⟨0x901004, 0x20, 144, [⟨31, 0, .rov, 0x0⟩]⟩,
  ⟨0x901008, 0x20, 144, [⟨31, 0, .rov, 0x0⟩]⟩,
  ⟨0x90100c, 0x20, 144, [⟨31, 0, .rov, 0x0⟩]⟩,
  ⟨0x901010, 0x20, 144, [⟨31, 16, .rov, 0x0⟩, ⟨15, 0, .rov, 0x0⟩]⟩,
  ⟨0x901014, 0x20, 144, [⟨31, 0, .rov, 0x0⟩]⟩]

/-- Registers of the MEM block, part 1. -/
def regTableMEM1 : List RegSpec := [
  ⟨0x904000, 0x40, 2, [⟨31, 0, .rov, 0x0⟩]⟩,
  ⟨0x904004, 0x40, 2, [⟨31, 0, .rov, 0x0⟩]⟩,
  ⟨0x904008, 0x40, 2, [⟨31, 0, .rov, 0x0⟩]⟩,
  ⟨0x90400c, 0x40, 2, [⟨31, 0, .rov, 0x0⟩]⟩,
  ⟨0x904010, 0x40, 2, [⟨31, 0, .rov, 0x0⟩]⟩,
  ⟨0x904014, 0x40, 2, [⟨31, 5, .rsv, 0x0⟩, ⟨4, 0, .rov, 0x0⟩]⟩,
  ⟨0x904018, 0x40, 2, [⟨31, 0, .rov, 0x0⟩]⟩,
  ⟨0x90401c, 0x40, 3, [⟨31, 0, .rov, 0x0⟩]⟩,
  ⟨0x904020, 0x40, 3, [⟨31, 0, .rov, 0x0⟩]⟩]

/-- The MEM block. -/
def regTableMEM : List RegSpec := regTableMEM0 ++ regTableMEM1

/-- Registers of the HBM block, part 0. -/
def regTableHBM0 : List RegSpec := [
  ⟨0xa00000, 0x0, 1, [⟨31, 8, .rsv, 0x0⟩, ⟨7, 4, .rw, 0x4⟩, ⟨3, 3, .rsv, 0x0⟩, ⟨2, 2, .rw, 0x1⟩, ⟨1, 1, .rw, 0x1⟩, ⟨0, 0, .rw, 0x0⟩]⟩,
  ⟨0xa00004, 0x0, 1, [⟨31, 0, .rov, 0x0⟩]⟩,
  ⟨0xa01000, 0x40, 8, [⟨31, 12, .rsv, 0x0⟩, ⟨11, 8, .rov, 0x0⟩, ⟨7, 2, .rsv, 0x0⟩, ⟨1, 1, .rov, 0x0⟩, ⟨0, 0, .rov, 0x0⟩]⟩,
  ⟨0xa01004, 0x40, 8, [⟨31, 0, .rov, 0x0⟩]⟩,
  ⟨0xa01008, 0x40, 8, [⟨31, 0, .rov, 0x0⟩]⟩,
  ⟨0xa0100c, 0x40, 8, [⟨31, 0, .rov, 0x0⟩]⟩,
  ⟨0xa01010, 0x40, 8, [⟨31, 0, .rov, 0x0⟩]⟩,
  ⟨0xa01014, 0x40, 8, [⟨31, 0, .rov, 0x0⟩]⟩,
  ⟨0xa01018, 0x40, 8, [⟨31, 0, .rov, 0x0⟩]⟩,
  ⟨0xa0101c, 0x40, 8, [⟨31, 0, .rov, 0x0⟩]⟩,
  ⟨0xa01020, 0x40, 8, [⟨31, 1, .rsv, 0x0⟩, ⟨0, 0, .rov, 0x0⟩]⟩]

/-- The HBM block. -/
def regTableHBM : List RegSpec := regTableHBM0

/-- Registers of the SKP block, part 0. -/
def regTableSKP0 : List RegSpec := [
  ⟨0xb00000, 0x0, 1, [⟨31, 3, .rsv, 0x0⟩, ⟨2, 2, .rw, 0x1⟩, ⟨1, 1, .rw, 0x1⟩, ⟨0, 0, .rw, 0x0⟩]⟩,
  ⟨0xb00004, 0x0, 1, [⟨31, 24, .rsv, 0x0⟩, ⟨23, 16, .rw, 0x2⟩, ⟨15, 8, .rw, 0x3⟩, ⟨7, 0, .rw, 0x5⟩]⟩,
  ⟨0xb00008, 0x0, 1, [⟨31, 12, .rw, 0x0⟩, ⟨11, 0, .rsv, 0x0⟩]⟩,
  ⟨0xb0000c, 0x0, 1, [⟨31, 16, .rsv, 0x0⟩, ⟨15, 0, .rw, 0x0⟩]⟩,
  ⟨0xb00010, 0x0, 1, [⟨31, 16, .rw, 0x0⟩, ⟨15, 0, .rsv, 0x0⟩]⟩,
  ⟨0xb00014, 0x0, 1, [⟨31, 25, .rsv, 0x0⟩, ⟨24, 0, .rw, 0x0⟩]⟩,
  ⟨0xb00018, 0x0, 1, [⟨31, 31, .rov, 0x0⟩, ⟨30, 2, .rsv, 0x0⟩, ⟨1, 1, .rw, 0x0⟩, ⟨0, 0, .rw, 0x0⟩]⟩,
  ⟨0xb00020, 0x0, 1, [⟨31, 0, .rw, 0x0⟩]⟩,
  ⟨0xb00024, 0x0, 1, [⟨31, 25, .rsv, 0x0⟩, ⟨24, 0, .rw, 0x0⟩]⟩,
  ⟨0xb00028, 0x0, 1, [⟨31, 16, .rsv, 0x0⟩, ⟨15, 0, .rw, 0x0⟩]⟩,
  ⟨0xb0002c, 0x0, 1, [⟨31, 16, .rsv, 0x0⟩, ⟨15, 0, .rov, 0x0⟩]⟩,
  ⟨0xb00030, 0x0, 1, [⟨31, 16, .rsv, 0x0⟩, ⟨15, 0, .rw, 0x0⟩]⟩]

/-- Registers of the SKP block, part 1. -/
def regTableSKP1 : List RegSpec := [
  ⟨0xb00034, 0x0, 1, [⟨31, 0, .rov, 0x0⟩]⟩,
  ⟨0xb00038, 0x0, 1, [⟨31, 17, .rsv, 0x0⟩, ⟨16, 16, .rw, 0x0⟩, ⟨15, 0, .rw, 0x0⟩]⟩,
  ⟨0xb0003c, 0x0, 1, [⟨31, 0, .rov, 0x0⟩]⟩,
  ⟨0xb01000, 0x40, 160, [⟨31, 0, .rov, 0x0⟩]⟩,
  ⟨0xb01004, 0x40, 160, [⟨31, 0, .rov, 0x0⟩]⟩,
  ⟨0xb01008, 0x40, 160, [⟨31, 0, .rov, 0x0⟩]⟩,
  ⟨0xb0100c, 0x40, 160, [⟨31, 0, .rov, 0x0⟩]⟩,
  ⟨0xb01010, 0x40, 160, [⟨31, 0, .rov, 0x0⟩]⟩,
  ⟨0xb01014, 0x40, 160, [⟨31, 0, .rov, 0x0⟩]⟩,
  ⟨0xb01018, 0x40, 160, [⟨31, 0, .rov, 0x0⟩]⟩,
  ⟨0xb0101c, 0x40, 160, [⟨31, 0, .rov, 0x0⟩]⟩]

/-- The SKP block. -/
def regTableSKP : List RegSpec := regTableSKP0 ++ regTableSKP1

/-- Registers of the CXL block, part 0. -/
def regTableCXL0 : List RegSpec := [
  ⟨0xc00000, 0x0, 1, [⟨31, 16, .rsv, 0x0⟩, ⟨15, 0, .rw, 0x64⟩]⟩,
  ⟨0xc01000, 0x40, 2, [⟨31, 18, .rov, 0x0⟩, ⟨17, 16, .rov, 0x0⟩, ⟨15, 8, .rov, 0x0⟩, ⟨7, 3, .rsv, 0x0⟩, ⟨2, 0, .rov, 0x0⟩]⟩,
  ⟨0xc01004, 0x40, 2, [⟨31, 0, .rov, 0x0⟩]⟩,
  ⟨0xc01008, 0x40, 2, [⟨31, 0, .rov, 0x0⟩]⟩,
  ⟨0xc0100c, 0x40, 2, [⟨31, 0, .rov, 0x0⟩]⟩,
  ⟨0xc01010, 0x40, 2, [⟨31, 0, .rov, 0x0⟩]⟩]

/-- The CXL block. -/
def regTableCXL : List RegSpec := regTableCXL0

/-- Registers of the BNL block, part 0. -/
def regTableBNL0 : List RegSpec := [
  ⟨0xd00000, 0x0, 1, [⟨31, 3, .rsv, 0x0⟩, ⟨2, 2, .rw, 0x1⟩, ⟨1, 1, .rw, 0x1⟩, ⟨0, 0, .rw, 0x0⟩]⟩,
  ⟨0xd00004, 0x0, 1, [⟨31, 18, .rsv, 0x0⟩, ⟨17, 0, .rw, 0x0⟩]⟩,
  ⟨0xd00008, 0x0, 1, [⟨31, 18, .rsv, 0x0⟩, ⟨17, 0, .rw, 0x0⟩]⟩,
  ⟨0xd0000c, 0x0, 1, [⟨31, 9, .rsv, 0x0⟩, ⟨8, 0, .rw, 0xc0⟩]⟩,
  ⟨0xd00010, 0x0, 1, [⟨31, 16, .rsv, 0x0⟩, ⟨15, 0, .rw, 0x40⟩]⟩,
  ⟨0xd00018, 0x0, 1, [⟨31, 1, .rsv, 0x0⟩, ⟨0, 0, .w1s, 0x0⟩]⟩,
  ⟨0xd0001c, 0x0, 1, [⟨31, 16, .rsv, 0x0⟩, ⟨15, 8, .rov, 0x0⟩, ⟨7, 3, .rsv, 0x0⟩, ⟨2, 2, .rov, 0x0⟩, ⟨1, 1, .rov, 0x0⟩, ⟨0, 0, .rov, 0x0⟩]⟩,
  ⟨0xd00020, 0x4, 8, [⟨31, 1, .rsv, 0x0⟩, ⟨0, 0, .rw, 0x0⟩]⟩,
  ⟨0xd00040, 0x4, 16, [⟨31, 16, .rsv, 0x0⟩, ⟨15, 8, .rw, 0x6⟩, ⟨7, 0, .rw, 0x3⟩]⟩,
  ⟨0xd00080, 0x0, 1, [⟨31, 0, .rov, 0x0⟩]⟩,
  ⟨0xd00084, 0x0, 1, [⟨31, 0, .rov, 0x0⟩]⟩,
  ⟨0xd00088, 0x0, 1, [⟨31, 0, .rov, 0x0⟩]⟩]

/-- Registers of the BNL block, part 1. -/
def regTableBNL1 : List RegSpec := [
  ⟨0xd0008c, 0x0, 1, [⟨31, 0, .rov, 0x0⟩]⟩,
  ⟨0xd00090, 0x0, 1, [⟨31, 0, .rov, 0x0⟩]⟩,
  ⟨0xd00094, 0x0, 1, [⟨31, 0, .rov, 0x0⟩]⟩,
  ⟨0xd00098, 0x0, 1, [⟨31, 0, .rov, 0x0⟩]⟩,
  ⟨0xd01000, 0x40, 24, [⟨31, 29, .rov, 0x0⟩, ⟨28, 26, .rov, 0x0⟩, ⟨25, 25, .rov, 0x0⟩, ⟨24, 21, .rov, 0x0⟩, ⟨20, 16, .rsv, 0x0⟩, ⟨15, 0, .rov, 0x0⟩]⟩,
  ⟨0xd01004, 0x40, 24, [⟨31, 0, .rov, 0x0⟩]⟩,
  ⟨0xd01008, 0x40, 24, [⟨31, 0, .rov, 0x0⟩]⟩,
  ⟨0xd0100c, 0x40, 24, [⟨31, 0, .rov, 0x0⟩]⟩,
  ⟨0xd01010, 0x40, 24, [⟨31, 0, .rov, 0x0⟩]⟩,
  ⟨0xd01014, 0x40, 24, [⟨31, 0, .rov, 0x0⟩]⟩,
  ⟨0xd01018, 0x40, 24, [⟨31, 0, .rov, 0x0⟩]⟩,
  ⟨0xd10000, 0x4, 256, [⟨31, 0, .rw, 0x3f⟩]⟩]

/-- Registers of the BNL block, part 2. -/
def regTableBNL2 : List RegSpec := [
  ⟨0xd11000, 0x8, 512, [⟨31, 0, .rw, 0x0⟩]⟩,
  ⟨0xd11004, 0x8, 512, [⟨31, 0, .rw, 0x0⟩]⟩,
  ⟨0xd12000, 0x20, 64, [⟨31, 19, .rsv, 0x0⟩, ⟨18, 18, .rw, 0x0⟩, ⟨17, 0, .rw, 0x0⟩]⟩,
  ⟨0xd12004, 0x20, 64, [⟨31, 18, .rsv, 0x0⟩, ⟨17, 0, .rw, 0x0⟩]⟩,
  ⟨0xd12008, 0x20, 64, [⟨31, 8, .rsv, 0x0⟩, ⟨7, 0, .rw, 0x0⟩]⟩,
  ⟨0xd1200c, 0x20, 64, [⟨31, 0, .rw, 0x0⟩]⟩,
  ⟨0xd12010, 0x20, 64, [⟨31, 0, .rw, 0x0⟩]⟩,
  ⟨0xd12014, 0x20, 64, [⟨31, 0, .rw, 0x0⟩]⟩]

/-- The BNL block. -/
def regTableBNL : List RegSpec := regTableBNL0 ++ regTableBNL1 ++ regTableBNL2

/-- Registers of the HST block, part 0. -/
def regTableHST0 : List RegSpec := [
  ⟨0xe00000, 0x0, 1, [⟨31, 2, .rsv, 0x0⟩, ⟨1, 1, .rw, 0x0⟩, ⟨0, 0, .rw, 0x1⟩]⟩,
  ⟨0xe00004, 0x0, 1, [⟨31, 16, .rsv, 0x0⟩, ⟨15, 0, .rw, 0x7d⟩]⟩,
  ⟨0xe00008, 0x0, 1, [⟨31, 0, .rw, 0x0⟩]⟩,
  ⟨0xe0000c, 0x0, 1, [⟨31, 25, .rsv, 0x0⟩, ⟨24, 0, .rw, 0x0⟩]⟩,
  ⟨0xe00010, 0x0, 1, [⟨31, 7, .rsv, 0x0⟩, ⟨6, 0, .rov, 0x0⟩]⟩,
  ⟨0xe00020, 0x0, 1, [⟨31, 0, .rov, 0x0⟩]⟩,
  ⟨0xe00024, 0x0, 1, [⟨31, 0, .rov, 0x0⟩]⟩,
  ⟨0xe00028, 0x0, 1, [⟨31, 0, .rov, 0x0⟩]⟩,
  ⟨0xe0002c, 0x0, 1, [⟨31, 0, .rov, 0x0⟩]⟩,
  ⟨0xe00030, 0x0, 1, [⟨31, 0, .rov, 0x0⟩]⟩,
  ⟨0xe00034, 0x0, 1, [⟨31, 0, .rov, 0x0⟩]⟩,
  ⟨0xe00038, 0x0, 1, [⟨31, 0, .rov, 0x0⟩]⟩]

/-- Registers of the HST block, part 1. -/
def regTableHST1 : List RegSpec := [
  ⟨0xe0003c, 0x0, 1, [⟨31, 0, .rov, 0x0⟩]⟩,
  ⟨0xe00040, 0x0, 1, [⟨31, 0, .rov, 0x0⟩]⟩,
  ⟨0xe00044, 0x0, 1, [⟨31, 0, .rov, 0x0⟩]⟩,
  ⟨0xe00048, 0x0, 1, [⟨31, 0, .rov, 0x0⟩]⟩]

/-- The HST block. -/
def regTableHST : List RegSpec := regTableHST0 ++ regTableHST1

/-- Registers of the RFL block, part 0. -/
def regTableRFL0 : List RegSpec := [
  ⟨0xf00000, 0x0, 1, [⟨31, 2, .rsv, 0x0⟩, ⟨1, 1, .rw, 0x0⟩, ⟨0, 0, .rw, 0x1⟩]⟩,
  ⟨0xf00008, 0x0, 1, [⟨31, 0, .rw, 0x0⟩]⟩,
  ⟨0xf0000c, 0x0, 1, [⟨31, 25, .rsv, 0x0⟩, ⟨24, 0, .rw, 0x0⟩]⟩,
  ⟨0xf00010, 0x0, 1, [⟨31, 5, .rsv, 0x0⟩, ⟨4, 0, .rov, 0x0⟩]⟩,
  ⟨0xf00020, 0x0, 1, [⟨31, 0, .rov, 0x0⟩]⟩,
  ⟨0xf00024, 0x0, 1, [⟨31, 0, .rov, 0x0⟩]⟩,
  ⟨0xf00028, 0x0, 1, [⟨31, 0, .rov, 0x0⟩]⟩,
  ⟨0xf0002c, 0x0, 1, [⟨31, 0, .rov, 0x0⟩]⟩,
  ⟨0xf00030, 0x0, 1, [⟨31, 0, .rov, 0x0⟩]⟩,
  ⟨0xf00034, 0x0, 1, [⟨31, 0, .rov, 0x0⟩]⟩,
  ⟨0xf00038, 0x0, 1, [⟨31, 0, .rov, 0x0⟩]⟩,
  ⟨0xf0003c, 0x0, 1, [⟨31, 0, .rov, 0x0⟩]⟩]

/-- Registers of the RFL block, part 1. -/
def regTableRFL1 : List RegSpec := [
  ⟨0xf00040, 0x0, 1, [⟨31, 0, .rov, 0x0⟩]⟩,
  ⟨0xf00100, 0x10, 16, [⟨31, 21, .rw, 0x0⟩, ⟨20, 1, .rsv, 0x0⟩, ⟨0, 0, .rw, 0x0⟩]⟩,
  ⟨0xf00104, 0x10, 16, [⟨31, 25, .rsv, 0x0⟩, ⟨24, 0, .rw, 0x0⟩]⟩,
  ⟨0xf00108, 0x10, 16, [⟨31, 0, .rw, 0x0⟩]⟩]

/-- The RFL block. -/
def regTableRFL : List RegSpec := regTableRFL0 ++ regTableRFL1

/-- Registers of the SML block, part 0. -/
def regTableSML0 : List RegSpec := [
  ⟨0x1000000, 0x0, 1, [⟨31, 5, .rsv, 0x0⟩, ⟨4, 4, .rw, 0x0⟩, ⟨3, 3, .rw, 0x1⟩, ⟨2, 2, .rw, 0x1⟩, ⟨1, 1, .rw, 0x1⟩, ⟨0, 0, .rw, 0x1⟩]⟩,
  ⟨0x1000004, 0x0, 1, [⟨31, 16, .rsv, 0x0⟩, ⟨15, 8, .rw, 0x4⟩, ⟨7, 0, .rw, 0x14⟩]⟩,
  ⟨0x1000008, 0x0, 1, [⟨31, 8, .rsv, 0x0⟩, ⟨7, 0, .rw, 0x18⟩]⟩,
  ⟨0x1000010, 0x0, 1, [⟨31, 0, .rw, 0x0⟩]⟩,
  ⟨0x1000014, 0x0, 1, [⟨31, 25, .rsv, 0x0⟩, ⟨24, 0, .rw, 0x0⟩]⟩,
  ⟨0x1000018, 0x0, 1, [⟨31, 16, .rsv, 0x0⟩, ⟨15, 0, .rw, 0x0⟩]⟩,
  ⟨0x100001c, 0x0, 1, [⟨31, 16, .rsv, 0x0⟩, ⟨15, 0, .rov, 0x0⟩]⟩,
  ⟨0x1000020, 0x0, 1, [⟨31, 16, .rsv, 0x0⟩, ⟨15, 0, .rw, 0x0⟩]⟩,
  ⟨0x1000024, 0x0, 1, [⟨31, 0, .rov, 0x0⟩]⟩,
  ⟨0x1000030, 0x0, 1, [⟨31, 0, .rov, 0x0⟩]⟩,
  ⟨0x1000034, 0x0, 1, [⟨31, 0, .rov, 0x0⟩]⟩,
  ⟨0x1000038, 0x0, 1, [⟨31, 0, .rov, 0x0⟩]⟩]

/-- Registers of the SML block, part 1. -/
def regTableSML1 : List RegSpec := [
  ⟨0x100003c, 0x0, 1, [⟨31, 0, .rov, 0x0⟩]⟩,
  ⟨0x1000040, 0x0, 1, [⟨31, 0, .rov, 0x0⟩]⟩,
  ⟨0x1000044, 0x0, 1, [⟨31, 0, .rov, 0x0⟩]⟩,
  ⟨0x1000048, 0x0, 1, [⟨31, 0, .rov, 0x0⟩]⟩,
  ⟨0x100004c, 0x0, 1, [⟨31, 0, .rov, 0x0⟩]⟩,
  ⟨0x1000050, 0x0, 1, [⟨31, 0, .rov, 0x0⟩]⟩,
  ⟨0x1000054, 0x0, 1, [⟨31, 4, .rsv, 0x0⟩, ⟨3, 0, .rov, 0x0⟩]⟩]

/-- The SML block. -/
def regTableSML : List RegSpec := regTableSML0 ++ regTableSML1

/-- Registers of the DPT block, part 0. -/
def regTableDPT0 : List RegSpec := [
  ⟨0x1100000, 0x0, 1, [⟨31, 6, .rsv, 0x0⟩, ⟨5, 5, .rw, 0x1⟩, ⟨4, 4, .rw, 0x1⟩, ⟨3, 3, .rw, 0x1⟩, ⟨2, 2, .rw, 0x1⟩, ⟨1, 0, .rw, 0x1⟩]⟩,
  ⟨0x1100004, 0x0, 1, [⟨31, 16, .rsv, 0x0⟩, ⟨15, 0, .rw, 0x9c4⟩]⟩,
  ⟨0x1100008, 0x0, 1, [⟨31, 16, .rsv, 0x0⟩, ⟨15, 0, .rw, 0x8ca⟩]⟩,
  ⟨0x110000c, 0x0, 1, [⟨31, 7, .rsv, 0x0⟩, ⟨6, 6, .rw, 0x0⟩, ⟨5, 0, .rw, 0x0⟩]⟩,
  ⟨0x1100010, 0x0, 1, [⟨31, 16, .rov, 0x0⟩, ⟨15, 0, .rov, 0x0⟩]⟩,
  ⟨0x1100018, 0x0, 1, [⟨31, 0, .rov, 0x0⟩]⟩,
  ⟨0x110001c, 0x0, 1, [⟨31, 0, .rov, 0x0⟩]⟩,
  ⟨0x1100020, 0x0, 1, [⟨31, 15, .rsv, 0x0⟩, ⟨14, 0, .rov, 0x0⟩]⟩,
  ⟨0x1100040, 0x0, 1, [⟨31, 0, .rov, 0x0⟩]⟩,
  ⟨0x1100044, 0x0, 1, [⟨31, 0, .rov, 0x0⟩]⟩,
  ⟨0x1100048, 0x0, 1, [⟨31, 0, .rov, 0x0⟩]⟩,
  ⟨0x110004c, 0x0, 1, [⟨31, 0, .rov, 0x0⟩]⟩]

/-- Registers of the DPT block, part 1. -/
def regTableDPT1 : List RegSpec := [
  ⟨0x1100050, 0x0, 1, [⟨31, 0, .rov, 0x0⟩]⟩,
  ⟨0x1100054, 0x0, 1, [⟨31, 0, .rov, 0x0⟩]⟩,
  ⟨0x1100058, 0x0, 1, [⟨31, 0, .rov, 0x0⟩]⟩,
  ⟨0x110005c, 0x0, 1, [⟨31, 0, .rov, 0x0⟩]⟩,
  ⟨0x1100060, 0x0, 1, [⟨31, 16, .rw, 0x0⟩, ⟨15, 0, .rsv, 0x0⟩]⟩,
  ⟨0x1100064, 0x0, 1, [⟨31, 16, .rsv, 0x0⟩, ⟨15, 0, .rw, 0x0⟩]⟩,
  ⟨0x1100068, 0x0, 1, [⟨31, 16, .rw, 0x0⟩, ⟨15, 0, .rsv, 0x0⟩]⟩,
  ⟨0x110006c, 0x0, 1, [⟨31, 25, .rsv, 0x0⟩, ⟨24, 0, .rw, 0x0⟩]⟩,
  ⟨0x1100070, 0x0, 1, [⟨31, 28, .rsv, 0x0⟩, ⟨27, 16, .rw, 0xf0⟩, ⟨15, 12, .rsv, 0x0⟩, ⟨11, 0, .rw, 0xb00⟩]⟩,
  ⟨0x1101000, 0x10, 144, [⟨31, 28, .rov, 0x0⟩, ⟨27, 24, .rov, 0x0⟩, ⟨23, 0, .rsv, 0x0⟩]⟩,
  ⟨0x1101004, 0x10, 144, [⟨31, 0, .rov, 0x0⟩]⟩,
  ⟨0x1101008, 0x10, 144, [⟨31, 0, .rov, 0x0⟩]⟩]

/-- The DPT block. -/
def regTableDPT : List RegSpec := regTableDPT0 ++ regTableDPT1

/-- Registers of the PLG block, part 0. -/
def regTablePLG0 : List RegSpec := [
  ⟨0x1200000, 0x0, 1, [⟨31, 2, .rsv, 0x0⟩, ⟨1, 1, .rw, 0x1⟩, ⟨0, 0, .rw, 0x0⟩]⟩,
  ⟨0x1200004, 0x0, 1, [⟨31, 0, .rw, 0x0⟩]⟩,
  ⟨0x1200008, 0x0, 1, [⟨31, 25, .rsv, 0x0⟩, ⟨24, 0, .rw, 0x0⟩]⟩,
  ⟨0x120000c, 0x0, 1, [⟨31, 0, .rw, 0x0⟩]⟩,
  ⟨0x1200010, 0x0, 1, [⟨31, 0, .rov, 0x0⟩]⟩,
  ⟨0x1200014, 0x0, 1, [⟨31, 0, .rw, 0x0⟩]⟩,
  ⟨0x1200018, 0x0, 1, [⟨31, 0, .rov, 0x0⟩]⟩,
  ⟨0x120001c, 0x0, 1, [⟨31, 0, .rov, 0x0⟩]⟩,
  ⟨0x1200020, 0x0, 1, [⟨31, 0, .rov, 0x0⟩]⟩,
  ⟨0x1200024, 0x0, 1, [⟨31, 0, .rov, 0x0⟩]⟩,
  ⟨0x1200028, 0x0, 1, [⟨31, 0, .rw, 0x0⟩]⟩,
  ⟨0x120002c, 0x0, 1, [⟨31, 0, .rw, 0x0⟩]⟩]

/-- Registers of the PLG block, part 1. -/
def regTablePLG1 : List RegSpec := [
  ⟨0x1200030, 0x0, 1, [⟨31, 2, .rsv, 0x0⟩, ⟨1, 0, .rw, 0x0⟩]⟩,
  ⟨0x1200034, 0x0, 1, [⟨31, 1, .rsv, 0x0⟩, ⟨0, 0, .rov, 0x0⟩]⟩,
  ⟨0x1200038, 0x0, 1, [⟨31, 0, .rov, 0x0⟩]⟩]

/-- The PLG block. -/
def regTablePLG : List RegSpec := regTablePLG0 ++ regTablePLG1

/-- Registers of the STR block, part 0. -/
def regTableSTR0 : List RegSpec := [
  ⟨0x1300000, 0x0, 1, [⟨31, 1, .rsv, 0x0⟩, ⟨0, 0, .rw, 0x1⟩]⟩,
  ⟨0x1300004, 0x0, 1, [⟨31, 2, .rsv, 0x0⟩, ⟨1, 1, .rov, 0x0⟩, ⟨0, 0, .rov, 0x0⟩]⟩,
  ⟨0x1300008, 0x0, 1, [⟨31, 0, .rov, 0x0⟩]⟩,
  ⟨0x130000c, 0x0, 1, [⟨31, 0, .rov, 0x0⟩]⟩,
  ⟨0x1300010, 0x0, 1, [⟨31, 0, .rov, 0x0⟩]⟩,
  ⟨0x1300014, 0x0, 1, [⟨31, 0, .rov, 0x0⟩]⟩,
  ⟨0x1300018, 0x0, 1, [⟨31, 0, .rov, 0x0⟩]⟩,
  ⟨0x130001c, 0x0, 1, [⟨31, 0, .rov, 0x0⟩]⟩]

/-- The STR block. -/
def regTableSTR : List RegSpec := regTableSTR0

/-- Registers of the WHS block, part 0. -/
def regTableWHS0 : List RegSpec := [
  ⟨0x1500000, 0x0, 1, [⟨31, 4, .rsv, 0x0⟩, ⟨3, 3, .rw, 0x1⟩, ⟨2, 1, .rw, 0x0⟩, ⟨0, 0, .rw, 0x0⟩]⟩,
  ⟨0x1500004, 0x0, 1, [⟨31, 17, .rsv, 0x0⟩, ⟨16, 0, .rw, 0x9c40⟩]⟩,
  ⟨0x1500008, 0x0, 1, [⟨31, 0, .rw, 0x0⟩]⟩,
  ⟨0x150000c, 0x0, 1, [⟨31, 0, .rw, 0x0⟩]⟩,
  ⟨0x1500010, 0x0, 1, [⟨31, 16, .rsv, 0x0⟩, ⟨15, 8, .rov, 0xff⟩, ⟨7, 3, .rsv, 0x0⟩, ⟨2, 2, .rov, 0x0⟩, ⟨1, 1, .rov, 0x0⟩, ⟨0, 0, .rov, 0x0⟩]⟩,
  ⟨0x1500014, 0x0, 1, [⟨31, 0, .rov, 0x0⟩]⟩,
  ⟨0x1500018, 0x0, 1, [⟨31, 16, .rsv, 0x0⟩, ⟨15, 0, .rw, 0xfa⟩]⟩,
  ⟨0x150001c, 0x0, 1, [⟨31, 13, .rsv, 0x0⟩, ⟨12, 8, .rov, 0x8⟩, ⟨7, 5, .rsv, 0x0⟩, ⟨4, 0, .rov, 0x8⟩]⟩,
  ⟨0x1500020, 0x0, 1, [⟨31, 0, .rov, 0x0⟩]⟩,
  ⟨0x1500024, 0x0, 1, [⟨31, 0, .rov, 0x0⟩]⟩,
  ⟨0x1500028, 0x0, 1, [⟨31, 0, .rov, 0x0⟩]⟩,
  ⟨0x150002c, 0x0, 1, [⟨31, 0, .rov, 0x0⟩]⟩]

/-- Registers of the WHS block, part 1. -/
def regTableWHS1 : List RegSpec := [
  ⟨0x1500030, 0x0, 1, [⟨31, 0, .rov, 0x0⟩]⟩]

/-- The WHS block. -/
def regTableWHS : List RegSpec := regTableWHS0 ++ regTableWHS1

/-- Registers of the PWR block, part 0. -/
def regTablePWR0 : List RegSpec := [
  ⟨0x1400000, 0x0, 1, [⟨31, 3, .rsv, 0x0⟩, ⟨2, 2, .rw, 0x1⟩, ⟨1, 1, .rw, 0x0⟩, ⟨0, 0, .rw, 0x0⟩]⟩,
  ⟨0x1400004, 0x0, 1, [⟨31, 11, .rsv, 0x0⟩, ⟨10, 0, .rw, 0x578⟩]⟩,
  ⟨0x1400008, 0x0, 1, [⟨31, 11, .rsv, 0x0⟩, ⟨10, 0, .rw, 0x578⟩]⟩,
  ⟨0x140000c, 0x0, 1, [⟨31, 11, .rsv, 0x0⟩, ⟨10, 0, .rw, 0x4b0⟩]⟩,
  ⟨0x1400010, 0x0, 1, [⟨31, 13, .rsv, 0x0⟩, ⟨12, 8, .rw, 0x10⟩, ⟨7, 5, .rsv, 0x0⟩, ⟨4, 0, .rw, 0x0⟩]⟩,
  ⟨0x1400014, 0x0, 1, [⟨31, 30, .rsv, 0x0⟩, ⟨29, 24, .rw, 0x0⟩, ⟨23, 18, .rsv, 0x0⟩, ⟨17, 0, .rw, 0x0⟩]⟩,
  ⟨0x1400018, 0x0, 1, [⟨31, 24, .rw, 0x19⟩, ⟨23, 16, .rw, 0x3⟩, ⟨15, 8, .rw, 0x28⟩, ⟨7, 0, .rw, 0x14⟩]⟩,
  ⟨0x140001c, 0x0, 1, [⟨31, 16, .rsv, 0x0⟩, ⟨15, 0, .rw, 0x64⟩]⟩,
  ⟨0x1400020, 0x0, 1, [⟨31, 16, .rov, 0x0⟩, ⟨15, 0, .rov, 0x0⟩]⟩,
  ⟨0x1400024, 0x0, 1, [⟨31, 16, .rov, 0x0⟩, ⟨15, 0, .rov, 0x0⟩]⟩,
  ⟨0x1400028, 0x0, 1, [⟨31, 24, .rov, 0x0⟩, ⟨23, 6, .rsv, 0x0⟩, ⟨5, 5, .rov, 0x0⟩, ⟨4, 4, .rov, 0x0⟩, ⟨3, 3, .rov, 0x0⟩, ⟨2, 2, .rov, 0x0⟩, ⟨1, 1, .rov, 0x0⟩, ⟨0, 0, .rov, 0x0⟩]⟩,
  ⟨0x140002c, 0x0, 1, [⟨31, 0, .rov, 0x10000⟩]⟩]

/-- Registers of the PWR block, part 1. -/
def regTablePWR1 : List RegSpec := [
  ⟨0x1400030, 0x0, 1, [⟨31, 16, .rov, 0x0⟩, ⟨15, 0, .rov, 0x0⟩]⟩,
  ⟨0x1400034, 0x0, 1, [⟨31, 16, .rov, 0x0⟩, ⟨15, 0, .rov, 0x0⟩]⟩,
  ⟨0x1400038, 0x0, 1, [⟨31, 16, .rsv, 0x0⟩, ⟨15, 0, .rov, 0x0⟩]⟩,
  ⟨0x140003c, 0x0, 1, [⟨31, 16, .rsv, 0x0⟩, ⟨15, 0, .rov, 0x0⟩]⟩,
  ⟨0x1400040, 0x0, 1, [⟨31, 16, .rsv, 0x0⟩, ⟨15, 0, .rw, 0x1004⟩]⟩,
  ⟨0x1400080, 0x0, 1, [⟨31, 0, .rov, 0x0⟩]⟩,
  ⟨0x1400084, 0x0, 1, [⟨31, 0, .rov, 0x0⟩]⟩,
  ⟨0x1400088, 0x0, 1, [⟨31, 0, .rov, 0x0⟩]⟩,
  ⟨0x140008c, 0x0, 1, [⟨31, 0, .rov, 0x0⟩]⟩,
  ⟨0x1400090, 0x0, 1, [⟨31, 0, .rov, 0x0⟩]⟩,
  ⟨0x1400094, 0x0, 1, [⟨31, 0, .rov, 0x0⟩]⟩,
  ⟨0x1400098, 0x0, 1, [⟨31, 0, .rov, 0x0⟩]⟩]

/-- Registers of the PWR block, part 2. -/
def regTablePWR2 : List RegSpec := [
  ⟨0x140009c, 0x0, 1, [⟨31, 0, .rov, 0x0⟩]⟩,
  ⟨0x1401000, 0x10, 144, [⟨31, 0, .rov, 0x0⟩]⟩,
  ⟨0x1402000, 0x4, 2, [⟨31, 0, .rov, 0x0⟩]⟩]

/-- The PWR block. -/
def regTablePWR : List RegSpec := regTablePWR0 ++ regTablePWR1 ++ regTablePWR2

/-- Registers of the RST block, part 0. -/
def regTableRST0 : List RegSpec := [
  ⟨0x0, 0x0, 1, [⟨31, 10, .rsv, 0x0⟩, ⟨9, 9, .w1c, 0x0⟩, ⟨8, 8, .w1c, 0x0⟩, ⟨7, 7, .w1c, 0x0⟩, ⟨6, 6, .w1c, 0x0⟩, ⟨5, 5, .w1c, 0x0⟩, ⟨4, 4, .w1c, 0x0⟩, ⟨3, 3, .w1c, 0x0⟩, ⟨2, 2, .w1c, 0x0⟩, ⟨1, 1, .w1c, 0x0⟩, ⟨0, 0, .w1c, 0x1⟩]⟩,
  ⟨0x4, 0x0, 1, [⟨31, 4, .rsv, 0x0⟩, ⟨3, 3, .rw, 0x1⟩, ⟨2, 2, .rw, 0x1⟩, ⟨1, 1, .rw, 0x0⟩, ⟨0, 0, .rw, 0x1⟩]⟩,
  ⟨0x8, 0x0, 1, [⟨31, 3, .rsv, 0x0⟩, ⟨2, 2, .rov, 0x0⟩, ⟨1, 1, .rov, 0x0⟩, ⟨0, 0, .rov, 0x0⟩]⟩,
  ⟨0xc, 0x0, 1, [⟨31, 16, .rsv, 0x0⟩, ⟨15, 8, .rov, 0x0⟩, ⟨7, 7, .rov, 0x0⟩, ⟨6, 6, .rov, 0x0⟩, ⟨5, 5, .rov, 0x0⟩, ⟨4, 4, .rsv, 0x0⟩, ⟨3, 0, .rov, 0x0⟩]⟩,
  ⟨0x10, 0x0, 1, [⟨31, 20, .rsv, 0x0⟩, ⟨19, 0, .rw, 0x2710⟩]⟩,
  ⟨0x14, 0x0, 1, [⟨31, 18, .rsv, 0x0⟩, ⟨17, 16, .rw, 0x0⟩, ⟨15, 9, .rsv, 0x0⟩, ⟨8, 0, .rw, 0x0⟩]⟩,
  ⟨0x18, 0x0, 1, [⟨31, 16, .rsv, 0x0⟩, ⟨15, 0, .rw, 0x3e8⟩]⟩,
  ⟨0x1c, 0x0, 1, [⟨31, 1, .rsv, 0x0⟩, ⟨0, 0, .w1s, 0x0⟩]⟩,
  ⟨0x20, 0x0, 1, [⟨31, 28, .rov, 0x0⟩, ⟨27, 24, .rov, 0x0⟩, ⟨23, 6, .rsv, 0x0⟩, ⟨5, 0, .rov, 0x0⟩]⟩,
  ⟨0x24, 0x0, 1, [⟨31, 18, .rsv, 0x0⟩, ⟨17, 16, .rov, 0x0⟩, ⟨15, 8, .rov, 0x0⟩, ⟨7, 0, .rov, 0x0⟩]⟩,
  ⟨0x40, 0x0, 1, [⟨31, 0, .rov, 0x0⟩]⟩,
  ⟨0x44, 0x0, 1, [⟨31, 0, .rov, 0x0⟩]⟩]

/-- Registers of the RST block, part 1. -/
def regTableRST1 : List RegSpec := [
  ⟨0x48, 0x0, 1, [⟨31, 0, .rov, 0x0⟩]⟩,
  ⟨0x1000, 0x4, 23, [⟨31, 6, .rsv, 0x0⟩, ⟨5, 4, .rov, 0x0⟩, ⟨3, 3, .rov, 0x0⟩, ⟨2, 0, .rov, 0x0⟩]⟩,
  ⟨0x1400, 0x4, 144, [⟨31, 6, .rsv, 0x0⟩, ⟨5, 4, .rov, 0x0⟩, ⟨3, 3, .rov, 0x0⟩, ⟨2, 0, .rov, 0x0⟩]⟩]

/-- The RST block. -/
def regTableRST : List RegSpec := regTableRST0 ++ regTableRST1

/-- Registers of the LMP block, part 0. -/
def regTableLMP0 : List RegSpec := [
  ⟨0x100000, 0x0, 1, [⟨31, 18, .rsv, 0x0⟩, ⟨17, 0, .w1c, 0x0⟩]⟩,
  ⟨0x100004, 0x0, 1, [⟨31, 18, .rsv, 0x0⟩, ⟨17, 0, .rws, 0x0⟩]⟩,
  ⟨0x100008, 0x0, 1, [⟨31, 6, .rsv, 0x0⟩, ⟨5, 5, .w1c, 0x0⟩, ⟨4, 4, .w1c, 0x0⟩, ⟨3, 3, .w1c, 0x0⟩, ⟨2, 2, .w1c, 0x0⟩, ⟨1, 1, .w1c, 0x0⟩, ⟨0, 0, .w1c, 0x0⟩]⟩,
  ⟨0x10000c, 0x0, 1, [⟨31, 0, .rov, 0x0⟩]⟩,
  ⟨0x100010, 0x0, 1, [⟨31, 16, .rsv, 0x0⟩, ⟨15, 0, .w1s, 0x0⟩]⟩,
  ⟨0x100014, 0x0, 1, [⟨31, 0, .rov, 0x0⟩]⟩,
  ⟨0x100020, 0x0, 1, [⟨31, 0, .rws, 0x0⟩]⟩,
  ⟨0x100024, 0x0, 1, [⟨31, 0, .rws, 0x0⟩]⟩,
  ⟨0x100028, 0x0, 1, [⟨31, 16, .rsv, 0x0⟩, ⟨15, 0, .rws, 0x0⟩]⟩,
  ⟨0x10002c, 0x0, 1, [⟨31, 16, .rsv, 0x0⟩, ⟨15, 0, .rov, 0x0⟩]⟩,
  ⟨0x100030, 0x0, 1, [⟨31, 16, .rsv, 0x0⟩, ⟨15, 0, .rws, 0x0⟩]⟩,
  ⟨0x100034, 0x0, 1, [⟨31, 0, .rov, 0x0⟩]⟩]

/-- Registers of the LMP block, part 1. -/
def regTableLMP1 : List RegSpec := [
  ⟨0x100040, 0x0, 1, [⟨31, 4, .rsv, 0x0⟩, ⟨3, 3, .rov, 0x0⟩, ⟨2, 2, .rov, 0x0⟩, ⟨1, 1, .rov, 0x0⟩, ⟨0, 0, .rov, 0x0⟩]⟩,
  ⟨0x100100, 0x4, 18, [⟨31, 11, .rsv, 0x0⟩, ⟨10, 0, .rws, 0x0⟩]⟩,
  ⟨0x100200, 0x4, 16, [⟨31, 2, .rsv, 0x0⟩, ⟨1, 0, .rov, 0x0⟩]⟩]

/-- The LMP block. -/
def regTableLMP : List RegSpec := regTableLMP0 ++ regTableLMP1

/-- Registers of the PCI block, part 0. -/
def regTablePCI0 : List RegSpec := [
  ⟨0x200000, 0x0, 1, [⟨31, 16, .rsv, 0x0⟩, ⟨15, 8, .rov, 0x0⟩, ⟨7, 3, .rsv, 0x0⟩, ⟨2, 2, .rov, 0x0⟩, ⟨1, 0, .rov, 0x0⟩]⟩,
  ⟨0x200008, 0x0, 1, [⟨31, 30, .rw, 0x0⟩, ⟨29, 0, .rsv, 0x0⟩]⟩,
  ⟨0x20000c, 0x0, 1, [⟨31, 16, .rsv, 0x0⟩, ⟨15, 0, .rw, 0x0⟩]⟩,
  ⟨0x200010, 0x0, 1, [⟨31, 0, .rov, 0x0⟩]⟩,
  ⟨0x200014, 0x0, 1, [⟨31, 0, .rov, 0x0⟩]⟩,
  ⟨0x200018, 0x0, 1, [⟨31, 0, .rov, 0x0⟩]⟩,
  ⟨0x20001c, 0x0, 1, [⟨31, 0, .rov, 0x0⟩]⟩]

/-- The PCI block. -/
def regTablePCI : List RegSpec := regTablePCI0

/-- The block window that holds an offset (Table 19.3): every block occupies 1 MiB. -/
def regBlock (off : Nat) : List RegSpec :=
  match off / 0x100000 with
  | 0 => regTableRST
  | 1 => regTableLMP
  | 2 => regTablePCI
  | 3 => regTableSFT
  | 4 => regTableTLY
  | 5 => regTableDRL
  | 6 => regTableLOD
  | 7 => regTableSLC
  | 8 => regTableCRW
  | 9 => regTableMEM
  | 10 => regTableHBM
  | 11 => regTableSKP
  | 12 => regTableCXL
  | 13 => regTableBNL
  | 14 => regTableHST
  | 15 => regTableRFL
  | 16 => regTableSML
  | 17 => regTableDPT
  | 18 => regTablePLG
  | 19 => regTableSTR
  | 20 => regTablePWR
  | 21 => regTableWHS
  | _ => []

/-- SFT_JOB_SEED[0] (Table 2.8). -/
def Reg.sftJobSeed0 : Nat := 0x300100
/-- SFT_JOB_SEED[1] (Table 2.8). -/
def Reg.sftJobSeed1 : Nat := 0x300104
/-- SFT_STEP_NUM[0] (Table 2.8). -/
def Reg.sftStepNum0 : Nat := 0x300108
/-- SFT_STEP_NUM[1] (Table 2.8). -/
def Reg.sftStepNum1 : Nat := 0x30010c
/-- LOD_CTRL (Table 3.9). -/
def Reg.lodCtrl : Nat := 0x600000
/-- LOD_ASSAY_FAIL_CNT (Table 3.9). -/
def Reg.lodAssayFailCnt : Nat := 0x600004
/-- LOD_BREACH_CNT[s] (Table 3.9). -/
def Reg.lodBreachCnt (s : Nat) : Nat := 0x601000 + 0x20 * s
/-- LOD_WIDEN_CNT[s] (Table 3.9). -/
def Reg.lodWidenCnt (s : Nat) : Nat := 0x601004 + 0x20 * s
/-- LOD_INEXACT_CNT[s] (Table 3.9). -/
def Reg.lodInexactCnt (s : Nat) : Nat := 0x601008 + 0x20 * s
/-- LOD_GUARD_EXH_CNT[s] (Table 3.9). -/
def Reg.lodGuardExhCnt (s : Nat) : Nat := 0x60100c + 0x20 * s
/-- LOD_FULL_OVF_CNT[s] (Table 3.9). -/
def Reg.lodFullOvfCnt (s : Nat) : Nat := 0x601010 + 0x20 * s
/-- LOD_NO_ASSAY_CNT[s] (Table 3.9). -/
def Reg.lodNoAssayCnt (s : Nat) : Nat := 0x601014 + 0x20 * s
/-- DRL_CTRL (Table 4.7). -/
def Reg.drlCtrl : Nat := 0x500000
/-- DRL_EXCQ_BASE[0] (Table 4.7). -/
def Reg.drlExcqBase0 : Nat := 0x500010
/-- DRL_EXCQ_BASE[1] (Table 4.7). -/
def Reg.drlExcqBase1 : Nat := 0x500014
/-- DRL_EXCQ_SIZE (Table 4.7). -/
def Reg.drlExcqSize : Nat := 0x500018
/-- DRL_EXCQ_HEAD (Table 4.7). -/
def Reg.drlExcqHead : Nat := 0x50001c
/-- DRL_EXCQ_TAIL (Table 4.7). -/
def Reg.drlExcqTail : Nat := 0x500020
/-- DRL_EXCQ_DROP_CNT (Table 4.7). -/
def Reg.drlExcqDropCnt : Nat := 0x500024
/-- DRL_STAT[s] (Table 4.7). -/
def Reg.drlStat (s : Nat) : Nat := 0x501000 + 0x40 * s
/-- DRL_TILE_CNT[s] (Table 4.7). -/
def Reg.drlTileCnt (s : Nat) : Nat := 0x501004 + 0x40 * s
/-- DRL_ISSUE_CNT[s] (Table 4.7). -/
def Reg.drlIssueCnt (s : Nat) : Nat := 0x501008 + 0x40 * s
/-- DRL_EVICT_CNT[s] (Table 4.7). -/
def Reg.drlEvictCnt (s : Nat) : Nat := 0x50100c + 0x40 * s
/-- DRL_SPLIT_CNT[s] (Table 4.7). -/
def Reg.drlSplitCnt (s : Nat) : Nat := 0x501010 + 0x40 * s
/-- DRL_FOLD_STALL_CNT[s] (Table 4.7). -/
def Reg.drlFoldStallCnt (s : Nat) : Nat := 0x501014 + 0x40 * s
/-- DRL_OPND_STALL_CNT[s] (Table 4.7). -/
def Reg.drlOpndStallCnt (s : Nat) : Nat := 0x501018 + 0x40 * s
/-- DRL_LODE_WAIT_CNT[s] (Table 4.7). -/
def Reg.drlLodeWaitCnt (s : Nat) : Nat := 0x50101c + 0x40 * s
/-- DRL_CHK_FAIL_CNT[s] (Table 4.7). -/
def Reg.drlChkFailCnt (s : Nat) : Nat := 0x501020 + 0x40 * s
/-- DRL_CHK_SKIP_CNT[s] (Table 4.7). -/
def Reg.drlChkSkipCnt (s : Nat) : Nat := 0x501024 + 0x40 * s
/-- DRL_CTX_SAVE_CNT[s] (Table 4.7). -/
def Reg.drlCtxSaveCnt (s : Nat) : Nat := 0x501028 + 0x40 * s
/-- DRL_CTX_RESTORE_CNT[s] (Table 4.7). -/
def Reg.drlCtxRestoreCnt (s : Nat) : Nat := 0x50102c + 0x40 * s
/-- SLC_CTRL (Table 5.6). -/
def Reg.slcCtrl : Nat := 0x700000
/-- SLC_OP_CNT[s] (Table 5.6). -/
def Reg.slcOpCnt (s : Nat) : Nat := 0x701000 + 0x40 * s
/-- SLC_TRANS_CNT[s] (Table 5.6). -/
def Reg.slcTransCnt (s : Nat) : Nat := 0x701004 + 0x40 * s
/-- SLC_RED_CNT[s] (Table 5.6). -/
def Reg.slcRedCnt (s : Nat) : Nat := 0x701008 + 0x40 * s
/-- SLC_INEXACT_CNT[s] (Table 5.6). -/
def Reg.slcInexactCnt (s : Nat) : Nat := 0x70100c + 0x40 * s
/-- SLC_OVF_CNT[s] (Table 5.6). -/
def Reg.slcOvfCnt (s : Nat) : Nat := 0x701010 + 0x40 * s
/-- SLC_INVALID_CNT[s] (Table 5.6). -/
def Reg.slcInvalidCnt (s : Nat) : Nat := 0x701014 + 0x40 * s
/-- SLC_MERGE_CNT[s] (Table 5.6). -/
def Reg.slcMergeCnt (s : Nat) : Nat := 0x701018 + 0x40 * s
/-- SLC_MERGE_BAD_CNT[s] (Table 5.6). -/
def Reg.slcMergeBadCnt (s : Nat) : Nat := 0x70101c + 0x40 * s
/-- SLC_DUP_CNT[s] (Table 5.6). -/
def Reg.slcDupCnt (s : Nat) : Nat := 0x701020 + 0x40 * s
/-- SLC_DUP_STEAL_CNT[s] (Table 5.6). -/
def Reg.slcDupStealCnt (s : Nat) : Nat := 0x701024 + 0x40 * s
/-- SLC_DUP_FAIL_CNT[s] (Table 5.6). -/
def Reg.slcDupFailCnt (s : Nat) : Nat := 0x701028 + 0x40 * s
/-- CRW_CTRL (Table 6.7). -/
def Reg.crwCtrl : Nat := 0x800000
/-- CRW_SWITCH_WAIT (Table 6.7). -/
def Reg.crwSwitchWait : Nat := 0x800004
/-- CRW_SAVE_BASE[0] (Table 6.7). -/
def Reg.crwSaveBase0 : Nat := 0x800010
/-- CRW_SAVE_BASE[1] (Table 6.7). -/
def Reg.crwSaveBase1 : Nat := 0x800014
/-- CRW_SAVE_SLOTS (Table 6.7). -/
def Reg.crwSaveSlots : Nat := 0x800018
/-- CRW_SAVE_USED (Table 6.7). -/
def Reg.crwSaveUsed : Nat := 0x80001c
/-- CRW_SKIPQ_BASE[0] (Table 6.7). -/
def Reg.crwSkipqBase0 : Nat := 0x800020
/-- CRW_SKIPQ_BASE[1] (Table 6.7). -/
def Reg.crwSkipqBase1 : Nat := 0x800024
/-- CRW_SKIPQ_SIZE (Table 6.7). -/
def Reg.crwSkipqSize : Nat := 0x800028
/-- CRW_SKIPQ_HEAD (Table 6.7). -/
def Reg.crwSkipqHead : Nat := 0x80002c
/-- CRW_SKIPQ_TAIL (Table 6.7). -/
def Reg.crwSkipqTail : Nat := 0x800030
/-- CRW_SKIPQ_DROP_CNT (Table 6.7). -/
def Reg.crwSkipqDropCnt : Nat := 0x800034
/-- CRW_STATE[s] (Table 6.7). -/
def Reg.crwState (s : Nat) : Nat := 0x801000 + 0x40 * s
/-- CRW_BUNDLE_CNT[s] (Table 6.7). -/
def Reg.crwBundleCnt (s : Nat) : Nat := 0x801004 + 0x40 * s
/-- CRW_SKIP_CNT[s] (Table 6.7). -/
def Reg.crwSkipCnt (s : Nat) : Nat := 0x801008 + 0x40 * s
/-- CRW_LOOP_ZERO_CNT[s] (Table 6.7). -/
def Reg.crwLoopZeroCnt (s : Nat) : Nat := 0x80100c + 0x40 * s
/-- CRW_LOOP_EXIT_CNT[s] (Table 6.7). -/
def Reg.crwLoopExitCnt (s : Nat) : Nat := 0x801010 + 0x40 * s
/-- CRW_SWITCH_OUT_CNT[s] (Table 6.7). -/
def Reg.crwSwitchOutCnt (s : Nat) : Nat := 0x801014 + 0x40 * s
/-- CRW_SWITCH_IN_CNT[s] (Table 6.7). -/
def Reg.crwSwitchInCnt (s : Nat) : Nat := 0x801018 + 0x40 * s
/-- CRW_NOSLOT_CNT[s] (Table 6.7). -/
def Reg.crwNoslotCnt (s : Nat) : Nat := 0x80101c + 0x40 * s
/-- CRW_IDLE_CNT[s] (Table 6.7). -/
def Reg.crwIdleCnt (s : Nat) : Nat := 0x801020 + 0x40 * s
/-- SFT_CTRL (Table 8.8). -/
def Reg.sftCtrl : Nat := 0x300000
/-- SFT_STALL_LIMIT (Table 8.8). -/
def Reg.sftStallLimit : Nat := 0x300004
/-- SFT_PREEMPT_WAIT (Table 8.8). -/
def Reg.sftPreemptWait : Nat := 0x300008
/-- SFT_STEPS (Table 8.8). -/
def Reg.sftSteps : Nat := 0x30000c
/-- SFT_DB_BAD_CNT (Table 8.8). -/
def Reg.sftDbBadCnt : Nat := 0x30001c
/-- SFT_RING_LO[n] (Table 8.8). -/
def Reg.sftRingLo (n : Nat) : Nat := 0x301000 + 0x40 * n
/-- SFT_RING_HI[n] (Table 8.8). -/
def Reg.sftRingHi (n : Nat) : Nat := 0x301004 + 0x40 * n
/-- SFT_SHAFT_CTRL[n] (Table 8.8). -/
def Reg.sftShaftCtrl (n : Nat) : Nat := 0x301008 + 0x40 * n
/-- SFT_DOORBELL[n] (Table 8.8). -/
def Reg.sftDoorbell (n : Nat) : Nat := 0x30100c + 0x40 * n
/-- SFT_HEAD[n] (Table 8.8). -/
def Reg.sftHead (n : Nat) : Nat := 0x301010 + 0x40 * n
/-- SFT_DECODE[n] (Table 8.8). -/
def Reg.sftDecode (n : Nat) : Nat := 0x301014 + 0x40 * n
/-- SFT_SHAFT_STAT[n] (Table 8.8). -/
def Reg.sftShaftStat (n : Nat) : Nat := 0x301018 + 0x40 * n
/-- SFT_CPL_CNT[n] (Table 8.8). -/
def Reg.sftCplCnt (n : Nat) : Nat := 0x30101c + 0x40 * n
/-- TLY_EPOCH (Table 8.9). -/
def Reg.tlyEpoch : Nat := 0x400000
/-- TLY_REMOTE_EN[0] (Table 8.9). -/
def Reg.tlyRemoteEn0 : Nat := 0x400008
/-- TLY_REMOTE_EN[1] (Table 8.9). -/
def Reg.tlyRemoteEn1 : Nat := 0x40000c
/-- TLY_HOST_ARG (Table 8.9). -/
def Reg.tlyHostArg : Nat := 0x400010
/-- TLY_HOST_OP (Table 8.9). -/
def Reg.tlyHostOp : Nat := 0x400014
/-- TLY_REMOTE_DROP_CNT (Table 8.9). -/
def Reg.tlyRemoteDropCnt : Nat := 0x400020
/-- TLY_STALE_CNT (Table 8.9). -/
def Reg.tlyStaleCnt : Nat := 0x400024
/-- TLY_STALL_CNT (Table 8.9). -/
def Reg.tlyStallCnt : Nat := 0x400028
/-- TLY_TIMEOUT_CNT (Table 8.9). -/
def Reg.tlyTimeoutCnt : Nat := 0x40002c
/-- TLY_COUNT[n] (Table 8.9). -/
def Reg.tlyCount (n : Nat) : Nat := 0x440000 + 0x4 * n
/-- MEM_CTRL (Table 9.6). -/
def Reg.memCtrl : Nat := 0x900000
/-- MEM_BG_WIN (Table 9.6). -/
def Reg.memBgWin : Nat := 0x900004
/-- MEM_UNMAPPED_CNT (Table 9.6). -/
def Reg.memUnmappedCnt : Nat := 0x900008
/-- MEM_UE_ADDR[0] (Table 9.6). -/
def Reg.memUeAddr0 : Nat := 0x900010
/-- MEM_UE_ADDR[1] (Table 9.6). -/
def Reg.memUeAddr1 : Nat := 0x900014
/-- MEM_UE_INFO (Table 9.6). -/
def Reg.memUeInfo : Nat := 0x900018
/-- MEM_FACE_CE_CNT[s] (Table 9.6). -/
def Reg.memFaceCeCnt (s : Nat) : Nat := 0x901000 + 0x20 * s
/-- MEM_FACE_UE_CNT[s] (Table 9.6). -/
def Reg.memFaceUeCnt (s : Nat) : Nat := 0x901004 + 0x20 * s
/-- MEM_FACE_OVT_CNT[s] (Table 9.6). -/
def Reg.memFaceOvtCnt (s : Nat) : Nat := 0x901008 + 0x20 * s
/-- MEM_FACE_DEAD_CNT[s] (Table 9.6). -/
def Reg.memFaceDeadCnt (s : Nat) : Nat := 0x90100c + 0x20 * s
/-- MEM_FACE_SPARE[s] (Table 9.6). -/
def Reg.memFaceSpare (s : Nat) : Nat := 0x901010 + 0x20 * s
/-- MEM_FACE_TEST_CNT[s] (Table 9.6). -/
def Reg.memFaceTestCnt (s : Nat) : Nat := 0x901014 + 0x20 * s
/-- MEM_SP_CE_CNT[l] (Table 9.6). -/
def Reg.memSpCeCnt (l : Nat) : Nat := 0x904000 + 0x40 * l
/-- MEM_SP_UE_CNT[l] (Table 9.6). -/
def Reg.memSpUeCnt (l : Nat) : Nat := 0x904004 + 0x40 * l
/-- MEM_SP_OVT_CNT[l] (Table 9.6). -/
def Reg.memSpOvtCnt (l : Nat) : Nat := 0x904008 + 0x40 * l
/-- MEM_SP_DEAD_CNT[l] (Table 9.6). -/
def Reg.memSpDeadCnt (l : Nat) : Nat := 0x90400c + 0x40 * l
/-- MEM_SP_SPARE[l] (Table 9.6). -/
def Reg.memSpSpare (l : Nat) : Nat := 0x904010 + 0x40 * l
/-- MEM_SP_RETIRED[l] (Table 9.6). -/
def Reg.memSpRetired (l : Nat) : Nat := 0x904014 + 0x40 * l
/-- MEM_SP_TEST_CNT[l] (Table 9.6). -/
def Reg.memSpTestCnt (l : Nat) : Nat := 0x904018 + 0x40 * l
/-- MEM_OTHER_CE_CNT[l] (Table 9.6). -/
def Reg.memOtherCeCnt (l : Nat) : Nat := 0x90401c + 0x40 * l
/-- MEM_OTHER_UE_CNT[l] (Table 9.6). -/
def Reg.memOtherUeCnt (l : Nat) : Nat := 0x904020 + 0x40 * l
/-- HBM_CTRL (Table 9.7). -/
def Reg.hbmCtrl : Nat := 0xa00000
/-- HBM_RETIRE_CNT (Table 9.7). -/
def Reg.hbmRetireCnt : Nat := 0xa00004
/-- HBM_STAT[k] (Table 9.7). -/
def Reg.hbmStat (k : Nat) : Nat := 0xa01000 + 0x40 * k
/-- HBM_CE_CNT[k] (Table 9.7). -/
def Reg.hbmCeCnt (k : Nat) : Nat := 0xa01004 + 0x40 * k
/-- HBM_UE_CNT[k] (Table 9.7). -/
def Reg.hbmUeCnt (k : Nat) : Nat := 0xa01008 + 0x40 * k
/-- HBM_SCRUB_POS[k] (Table 9.7). -/
def Reg.hbmScrubPos (k : Nat) : Nat := 0xa0100c + 0x40 * k
/-- HBM_SCRUB_PASS_CNT[k] (Table 9.7). -/
def Reg.hbmScrubPassCnt (k : Nat) : Nat := 0xa01010 + 0x40 * k
/-- HBM_SPARE_CNT[k] (Table 9.7). -/
def Reg.hbmSpareCnt (k : Nat) : Nat := 0xa01014 + 0x40 * k
/-- HBM_CAL_CNT[k] (Table 9.7). -/
def Reg.hbmCalCnt (k : Nat) : Nat := 0xa01018 + 0x40 * k
/-- HBM_UE_ADDR[k] (Table 9.7). -/
def Reg.hbmUeAddr (k : Nat) : Nat := 0xa0101c + 0x40 * k
/-- HBM_UE_ADDR_TOP[k] (Table 9.7). -/
def Reg.hbmUeAddrTop (k : Nat) : Nat := 0xa01020 + 0x40 * k
/-- SKP_CTRL (Table 10.9). -/
def Reg.skpCtrl : Nat := 0xb00000
/-- SKP_SHARE (Table 10.9). -/
def Reg.skpShare : Nat := 0xb00004
/-- SKP_PT_ROOT[0] (Table 10.9). -/
def Reg.skpPtRoot0 : Nat := 0xb00008
/-- SKP_PT_ROOT[1] (Table 10.9). -/
def Reg.skpPtRoot1 : Nat := 0xb0000c
/-- SKP_INV_ADDR[0] (Table 10.9). -/
def Reg.skpInvAddr0 : Nat := 0xb00010
/-- SKP_INV_ADDR[1] (Table 10.9). -/
def Reg.skpInvAddr1 : Nat := 0xb00014
/-- SKP_INV_CTRL (Table 10.9). -/
def Reg.skpInvCtrl : Nat := 0xb00018
/-- SKP_FLTQ_BASE[0] (Table 10.9). -/
def Reg.skpFltqBase0 : Nat := 0xb00020
/-- SKP_FLTQ_BASE[1] (Table 10.9). -/
def Reg.skpFltqBase1 : Nat := 0xb00024
/-- SKP_FLTQ_SIZE (Table 10.9). -/
def Reg.skpFltqSize : Nat := 0xb00028
/-- SKP_FLTQ_HEAD (Table 10.9). -/
def Reg.skpFltqHead : Nat := 0xb0002c
/-- SKP_FLTQ_TAIL (Table 10.9). -/
def Reg.skpFltqTail : Nat := 0xb00030
/-- SKP_FLTQ_DROP_CNT (Table 10.9). -/
def Reg.skpFltqDropCnt : Nat := 0xb00034
/-- SKP_RESUME (Table 10.9). -/
def Reg.skpResume : Nat := 0xb00038
/-- SKP_RESUME_BAD_CNT (Table 10.9). -/
def Reg.skpResumeBadCnt : Nat := 0xb0003c
/-- SKP_BYTES_CNT[k] (Table 10.9). -/
def Reg.skpBytesCnt (k : Nat) : Nat := 0xb01000 + 0x40 * k
/-- SKP_STREAM_CNT[k] (Table 10.9). -/
def Reg.skpStreamCnt (k : Nat) : Nat := 0xb01004 + 0x40 * k
/-- SKP_KIBBLE_CNT[k] (Table 10.9). -/
def Reg.skpKibbleCnt (k : Nat) : Nat := 0xb01008 + 0x40 * k
/-- SKP_THROTTLE_CNT[k] (Table 10.9). -/
def Reg.skpThrottleCnt (k : Nat) : Nat := 0xb0100c + 0x40 * k
/-- SKP_FAULT_CNT[k] (Table 10.9). -/
def Reg.skpFaultCnt (k : Nat) : Nat := 0xb01010 + 0x40 * k
/-- SKP_ERR_CNT[k] (Table 10.9). -/
def Reg.skpErrCnt (k : Nat) : Nat := 0xb01014 + 0x40 * k
/-- SKP_POISON_CNT[k] (Table 10.9). -/
def Reg.skpPoisonCnt (k : Nat) : Nat := 0xb01018 + 0x40 * k
/-- SKP_POST_BAD_CNT[k] (Table 10.9). -/
def Reg.skpPostBadCnt (k : Nat) : Nat := 0xb0101c + 0x40 * k
/-- CXL_CTRL (Table 10.10). -/
def Reg.cxlCtrl : Nat := 0xc00000
/-- CXL_PORT_STAT[p] (Table 10.10). -/
def Reg.cxlPortStat (p : Nat) : Nat := 0xc01000 + 0x40 * p
/-- CXL_ERR_CNT[p] (Table 10.10). -/
def Reg.cxlErrCnt (p : Nat) : Nat := 0xc01004 + 0x40 * p
/-- CXL_TIMEOUT_CNT[p] (Table 10.10). -/
def Reg.cxlTimeoutCnt (p : Nat) : Nat := 0xc01008 + 0x40 * p
/-- CXL_POISON_CNT[p] (Table 10.10). -/
def Reg.cxlPoisonCnt (p : Nat) : Nat := 0xc0100c + 0x40 * p
/-- CXL_RETRAIN_CNT[p] (Table 10.10). -/
def Reg.cxlRetrainCnt (p : Nat) : Nat := 0xc01010 + 0x40 * p
/-- BNL_CTRL (Table 11.7). -/
def Reg.bnlCtrl : Nat := 0xd00000
/-- BNL_NODE (Table 11.7). -/
def Reg.bnlNode : Nat := 0xd00004
/-- BNL_RING (Table 11.7). -/
def Reg.bnlRing : Nat := 0xd00008
/-- BNL_HEADROOM (Table 11.7). -/
def Reg.bnlHeadroom : Nat := 0xd0000c
/-- BNL_ESC_WAIT (Table 11.7). -/
def Reg.bnlEscWait : Nat := 0xd00010
/-- BNL_ROUTE_CTRL (Table 11.7). -/
def Reg.bnlRouteCtrl : Nat := 0xd00018
/-- BNL_ROUTE_STAT (Table 11.7). -/
def Reg.bnlRouteStat : Nat := 0xd0001c
/-- BNL_PORT_CFG[g] (Table 11.7). -/
def Reg.bnlPortCfg (g : Nat) : Nat := 0xd00020 + 0x4 * g
/-- BNL_GAL_MARK[g] (Table 11.7). -/
def Reg.bnlGalMark (g : Nat) : Nat := 0xd00040 + 0x4 * g
/-- BNL_NOROUTE_CNT (Table 11.7). -/
def Reg.bnlNorouteCnt : Nat := 0xd00080
/-- BNL_HOPLIM_CNT (Table 11.7). -/
def Reg.bnlHoplimCnt : Nat := 0xd00084
/-- BNL_RESTAMP_CNT (Table 11.7). -/
def Reg.bnlRestampCnt : Nat := 0xd00088
/-- BNL_LOST_CNT (Table 11.7). -/
def Reg.bnlLostCnt : Nat := 0xd0008c
/-- BNL_STALE_XFER_CNT (Table 11.7). -/
def Reg.bnlStaleXferCnt : Nat := 0xd00090
/-- BNL_REFUSE_CNT (Table 11.7). -/
def Reg.bnlRefuseCnt : Nat := 0xd00094
/-- BNL_CPL_FULL_CNT (Table 11.7). -/
def Reg.bnlCplFullCnt : Nat := 0xd00098
/-- BNL_PORT_STAT[a] (Table 11.7). -/
def Reg.bnlPortStat (a : Nat) : Nat := 0xd01000 + 0x40 * a
/-- BNL_RETRY_CNT[a] (Table 11.7). -/
def Reg.bnlRetryCnt (a : Nat) : Nat := 0xd01004 + 0x40 * a
/-- BNL_FEC_CORR_CNT[a] (Table 11.7). -/
def Reg.bnlFecCorrCnt (a : Nat) : Nat := 0xd01008 + 0x40 * a
/-- BNL_FEC_UNC_CNT[a] (Table 11.7). -/
def Reg.bnlFecUncCnt (a : Nat) : Nat := 0xd0100c + 0x40 * a
/-- BNL_TX_FLIT_CNT[a] (Table 11.7). -/
def Reg.bnlTxFlitCnt (a : Nat) : Nat := 0xd01010 + 0x40 * a
/-- BNL_RX_FLIT_CNT[a] (Table 11.7). -/
def Reg.bnlRxFlitCnt (a : Nat) : Nat := 0xd01014 + 0x40 * a
/-- BNL_RETRAIN_CNT[a] (Table 11.7). -/
def Reg.bnlRetrainCnt (a : Nat) : Nat := 0xd01018 + 0x40 * a
/-- BNL_DIM_ENT[i] (Table 11.8). -/
def Reg.bnlDimEnt (i : Nat) : Nat := 0xd10000 + 0x4 * i
/-- BNL_DETOUR_LO[i] (Table 11.8). -/
def Reg.bnlDetourLo (i : Nat) : Nat := 0xd11000 + 0x8 * i
/-- BNL_DETOUR_HI[i] (Table 11.8). -/
def Reg.bnlDetourHi (i : Nat) : Nat := 0xd11004 + 0x8 * i
/-- BNL_BOX_LO[m] (Table 11.8). -/
def Reg.bnlBoxLo (m : Nat) : Nat := 0xd12000 + 0x20 * m
/-- BNL_BOX_HI[m] (Table 11.8). -/
def Reg.bnlBoxHi (m : Nat) : Nat := 0xd12004 + 0x20 * m
/-- BNL_BOX_WMASK[m] (Table 11.8). -/
def Reg.bnlBoxWmask (m : Nat) : Nat := 0xd12008 + 0x20 * m
/-- BNL_BOX_XMASK[m] (Table 11.8). -/
def Reg.bnlBoxXmask (m : Nat) : Nat := 0xd1200c + 0x20 * m
/-- BNL_BOX_YMASK[m] (Table 11.8). -/
def Reg.bnlBoxYmask (m : Nat) : Nat := 0xd12010 + 0x20 * m
/-- BNL_BOX_ZMASK[m] (Table 11.8). -/
def Reg.bnlBoxZmask (m : Nat) : Nat := 0xd12014 + 0x20 * m
/-- HST_CTRL (Table 12.7). -/
def Reg.hstCtrl : Nat := 0xe00000
/-- HST_DEADLINE (Table 12.7). -/
def Reg.hstDeadline : Nat := 0xe00004
/-- HST_BTAB_BASE[0] (Table 12.7). -/
def Reg.hstBtabBase0 : Nat := 0xe00008
/-- HST_BTAB_BASE[1] (Table 12.7). -/
def Reg.hstBtabBase1 : Nat := 0xe0000c
/-- HST_OPEN (Table 12.7). -/
def Reg.hstOpen : Nat := 0xe00010
/-- HST_BUCKET_CNT (Table 12.7). -/
def Reg.hstBucketCnt : Nat := 0xe00020
/-- HST_ASSAY_CNT (Table 12.7). -/
def Reg.hstAssayCnt : Nat := 0xe00024
/-- HST_RESHIFT_CNT (Table 12.7). -/
def Reg.hstReshiftCnt : Nat := 0xe00028
/-- HST_FINAL_BREACH_CNT (Table 12.7). -/
def Reg.hstFinalBreachCnt : Nat := 0xe0002c
/-- HST_TAILINGS_CNT (Table 12.7). -/
def Reg.hstTailingsCnt : Nat := 0xe00030
/-- HST_EXCLUDED_CNT (Table 12.7). -/
def Reg.hstExcludedCnt : Nat := 0xe00034
/-- HST_INEXACT_CNT (Table 12.7). -/
def Reg.hstInexactCnt : Nat := 0xe00038
/-- HST_NONFIN_CNT (Table 12.7). -/
def Reg.hstNonfinCnt : Nat := 0xe0003c
/-- HST_POISON_CNT (Table 12.7). -/
def Reg.hstPoisonCnt : Nat := 0xe00040
/-- HST_FAIL_CNT (Table 12.7). -/
def Reg.hstFailCnt : Nat := 0xe00044
/-- HST_OPEN_WAIT_CNT (Table 12.7). -/
def Reg.hstOpenWaitCnt : Nat := 0xe00048
/-- RFL_CTRL (Table 13.7). -/
def Reg.rflCtrl : Nat := 0xf00000
/-- RFL_TAB_BASE[0] (Table 13.7). -/
def Reg.rflTabBase0 : Nat := 0xf00008
/-- RFL_TAB_BASE[1] (Table 13.7). -/
def Reg.rflTabBase1 : Nat := 0xf0000c
/-- RFL_OPEN (Table 13.7). -/
def Reg.rflOpen : Nat := 0xf00010
/-- RFL_DISPATCH_CNT (Table 13.7). -/
def Reg.rflDispatchCnt : Nat := 0xf00020
/-- RFL_COMBINE_CNT (Table 13.7). -/
def Reg.rflCombineCnt : Nat := 0xf00024
/-- RFL_TEACH_CNT (Table 13.7). -/
def Reg.rflTeachCnt : Nat := 0xf00028
/-- RFL_KEPT_CNT (Table 13.7). -/
def Reg.rflKeptCnt : Nat := 0xf0002c
/-- RFL_DROP_CNT (Table 13.7). -/
def Reg.rflDropCnt : Nat := 0xf00030
/-- RFL_BADEXP_CNT (Table 13.7). -/
def Reg.rflBadexpCnt : Nat := 0xf00034
/-- RFL_BADIMG_CNT (Table 13.7). -/
def Reg.rflBadimgCnt : Nat := 0xf00038
/-- RFL_FAIL_CNT (Table 13.7). -/
def Reg.rflFailCnt : Nat := 0xf0003c
/-- RFL_OPEN_WAIT_CNT (Table 13.7). -/
def Reg.rflOpenWaitCnt : Nat := 0xf00040
/-- RFL_FRZ_LO[i] (Table 13.7). -/
def Reg.rflFrzLo (i : Nat) : Nat := 0xf00100 + 0x10 * i
/-- RFL_FRZ_HI[i] (Table 13.7). -/
def Reg.rflFrzHi (i : Nat) : Nat := 0xf00104 + 0x10 * i
/-- RFL_FRZ_LEN[i] (Table 13.7). -/
def Reg.rflFrzLen (i : Nat) : Nat := 0xf00108 + 0x10 * i
/-- SML_CTRL (Table 14.7). -/
def Reg.smlCtrl : Nat := 0x1000000
/-- SML_REBASE (Table 14.7). -/
def Reg.smlRebase : Nat := 0x1000004
/-- SML_LONG_MULT (Table 14.7). -/
def Reg.smlLongMult : Nat := 0x1000008
/-- SML_PHASEQ_BASE[0] (Table 14.7). -/
def Reg.smlPhaseqBase0 : Nat := 0x1000010
/-- SML_PHASEQ_BASE[1] (Table 14.7). -/
def Reg.smlPhaseqBase1 : Nat := 0x1000014
/-- SML_PHASEQ_SIZE (Table 14.7). -/
def Reg.smlPhaseqSize : Nat := 0x1000018
/-- SML_PHASEQ_HEAD (Table 14.7). -/
def Reg.smlPhaseqHead : Nat := 0x100001c
/-- SML_PHASEQ_TAIL (Table 14.7). -/
def Reg.smlPhaseqTail : Nat := 0x1000020
/-- SML_PHASEQ_DROP_CNT (Table 14.7). -/
def Reg.smlPhaseqDropCnt : Nat := 0x1000024
/-- SML_UPDATE_CNT (Table 14.7). -/
def Reg.smlUpdateCnt : Nat := 0x1000030
/-- SML_LOST_CNT (Table 14.7). -/
def Reg.smlLostCnt : Nat := 0x1000034
/-- SML_NONFIN_CNT (Table 14.7). -/
def Reg.smlNonfinCnt : Nat := 0x1000038
/-- SML_OVF_CNT (Table 14.7). -/
def Reg.smlOvfCnt : Nat := 0x100003c
/-- SML_REBASE_CNT (Table 14.7). -/
def Reg.smlRebaseCnt : Nat := 0x1000040
/-- SML_RATIO_EV_CNT (Table 14.7). -/
def Reg.smlRatioEvCnt : Nat := 0x1000044
/-- SML_RETRY_CNT (Table 14.7). -/
def Reg.smlRetryCnt : Nat := 0x1000048
/-- SML_FAIL_CNT (Table 14.7). -/
def Reg.smlFailCnt : Nat := 0x100004c
/-- SML_LONG_CNT (Table 14.7). -/
def Reg.smlLongCnt : Nat := 0x1000050
/-- SML_INFLIGHT (Table 14.7). -/
def Reg.smlInflight : Nat := 0x1000054
/-- DPT_CTRL (Table 15.10). -/
def Reg.dptCtrl : Nat := 0x1100000
/-- DPT_CANARY_PERIOD (Table 15.10). -/
def Reg.dptCanaryPeriod : Nat := 0x1100004
/-- DPT_CANARY_FORCE (Table 15.10). -/
def Reg.dptCanaryForce : Nat := 0x1100008
/-- DPT_BOX (Table 15.10). -/
def Reg.dptBox : Nat := 0x110000c
/-- DPT_PACK_STAT (Table 15.10). -/
def Reg.dptPackStat : Nat := 0x1100010
/-- DPT_POISON_STEP[0] (Table 15.10). -/
def Reg.dptPoisonStep0 : Nat := 0x1100018
/-- DPT_POISON_STEP[1] (Table 15.10). -/
def Reg.dptPoisonStep1 : Nat := 0x110001c
/-- DPT_UNRESOLVED (Table 15.10). -/
def Reg.dptUnresolved : Nat := 0x1100020
/-- DPT_VERDICT_GOOD_CNT (Table 15.10). -/
def Reg.dptVerdictGoodCnt : Nat := 0x1100040
/-- DPT_VERDICT_BAD_CNT (Table 15.10). -/
def Reg.dptVerdictBadCnt : Nat := 0x1100044
/-- DPT_POISON_CNT (Table 15.10). -/
def Reg.dptPoisonCnt : Nat := 0x1100048
/-- DPT_L2_MISMATCH_CNT (Table 15.10). -/
def Reg.dptL2MismatchCnt : Nat := 0x110004c
/-- DPT_TICKET_WAIT_CNT (Table 15.10). -/
def Reg.dptTicketWaitCnt : Nat := 0x1100050
/-- DPT_VERDICT_STALL_CNT (Table 15.10). -/
def Reg.dptVerdictStallCnt : Nat := 0x1100054
/-- DPT_REPLAY_SKIP_CNT (Table 15.10). -/
def Reg.dptReplaySkipCnt : Nat := 0x1100058
/-- DPT_CANARY_FAIL_CNT (Table 15.10). -/
def Reg.dptCanaryFailCnt : Nat := 0x110005c
/-- DPT_PACK_PA[0] (Table 15.10). -/
def Reg.dptPackPa0 : Nat := 0x1100060
/-- DPT_PACK_PA[1] (Table 15.10). -/
def Reg.dptPackPa1 : Nat := 0x1100064
/-- DPT_PACK_VA[0] (Table 15.10). -/
def Reg.dptPackVa0 : Nat := 0x1100068
/-- DPT_PACK_VA[1] (Table 15.10). -/
def Reg.dptPackVa1 : Nat := 0x110006c
/-- DPT_CANARY_FACE (Table 15.10). -/
def Reg.dptCanaryFace : Nat := 0x1100070
/-- DPT_STOPE_STAT[s] (Table 15.10). -/
def Reg.dptStopeStat (s : Nat) : Nat := 0x1101000 + 0x10 * s
/-- DPT_LAST_GOOD[s] (Table 15.10). -/
def Reg.dptLastGood (s : Nat) : Nat := 0x1101004 + 0x10 * s
/-- DPT_CANARY_CNT[s] (Table 15.10). -/
def Reg.dptCanaryCnt (s : Nat) : Nat := 0x1101008 + 0x10 * s
/-- PLG_CTRL (Table 15.11). -/
def Reg.plgCtrl : Nat := 0x1200000
/-- PLG_BASE[0] (Table 15.11). -/
def Reg.plgBase0 : Nat := 0x1200004
/-- PLG_BASE[1] (Table 15.11). -/
def Reg.plgBase1 : Nat := 0x1200008
/-- PLG_SIZE (Table 15.11). -/
def Reg.plgSize : Nat := 0x120000c
/-- PLG_HEAD (Table 15.11). -/
def Reg.plgHead : Nat := 0x1200010
/-- PLG_TAIL (Table 15.11). -/
def Reg.plgTail : Nat := 0x1200014
/-- PLG_FULL_CNT (Table 15.11). -/
def Reg.plgFullCnt : Nat := 0x1200018
/-- PLG_ITEM_DROP_CNT (Table 15.11). -/
def Reg.plgItemDropCnt : Nat := 0x120001c
/-- PLG_LAST_SEAL[0] (Table 15.11). -/
def Reg.plgLastSeal0 : Nat := 0x1200020
/-- PLG_LAST_SEAL[1] (Table 15.11). -/
def Reg.plgLastSeal1 : Nat := 0x1200024
/-- PLG_RESOLVE_STEP[0] (Table 15.11). -/
def Reg.plgResolveStep0 : Nat := 0x1200028
/-- PLG_RESOLVE_STEP[1] (Table 15.11). -/
def Reg.plgResolveStep1 : Nat := 0x120002c
/-- PLG_RESOLVE (Table 15.11). -/
def Reg.plgResolve : Nat := 0x1200030
/-- PLG_STAT (Table 15.11). -/
def Reg.plgStat : Nat := 0x1200034
/-- PLG_WRITE_ERR_CNT (Table 15.11). -/
def Reg.plgWriteErrCnt : Nat := 0x1200038
/-- STR_CTRL (Table 15.12). -/
def Reg.strCtrl : Nat := 0x1300000
/-- STR_STAT (Table 15.12). -/
def Reg.strStat : Nat := 0x1300004
/-- STR_LAST_STEP[0] (Table 15.12). -/
def Reg.strLastStep0 : Nat := 0x1300008
/-- STR_LAST_STEP[1] (Table 15.12). -/
def Reg.strLastStep1 : Nat := 0x130000c
/-- STR_SNAP_CNT (Table 15.12). -/
def Reg.strSnapCnt : Nat := 0x1300010
/-- STR_FAIL_CNT (Table 15.12). -/
def Reg.strFailCnt : Nat := 0x1300014
/-- STR_COW_CNT (Table 15.12). -/
def Reg.strCowCnt : Nat := 0x1300018
/-- STR_COW_WAIT_CNT (Table 15.12). -/
def Reg.strCowWaitCnt : Nat := 0x130001c
/-- SFT_REQUEUE_CNT (Table 16.4). -/
def Reg.sftRequeueCnt : Nat := 0x300010
/-- SFT_SUPPRESS_CNT (Table 16.4). -/
def Reg.sftSuppressCnt : Nat := 0x300014
/-- SFT_RESTART_BAD_CNT (Table 16.4). -/
def Reg.sftRestartBadCnt : Nat := 0x300018
/-- WHS_CTRL (Table 17.4). -/
def Reg.whsCtrl : Nat := 0x1500000
/-- WHS_PERIOD (Table 17.4). -/
def Reg.whsPeriod : Nat := 0x1500004
/-- WHS_FRAME[0] (Table 17.4). -/
def Reg.whsFrame0 : Nat := 0x1500008
/-- WHS_FRAME[1] (Table 17.4). -/
def Reg.whsFrame1 : Nat := 0x150000c
/-- WHS_STAT (Table 17.4). -/
def Reg.whsStat : Nat := 0x1500010
/-- WHS_OFFSET (Table 17.4). -/
def Reg.whsOffset : Nat := 0x1500014
/-- WHS_HOLD_LIMIT (Table 17.4). -/
def Reg.whsHoldLimit : Nat := 0x1500018
/-- WHS_FREQ (Table 17.4). -/
def Reg.whsFreq : Nat := 0x150001c
/-- WHS_HOLD_CNT (Table 17.4). -/
def Reg.whsHoldCnt : Nat := 0x1500020
/-- WHS_LATE_WORD_CNT (Table 17.4). -/
def Reg.whsLateWordCnt : Nat := 0x1500024
/-- WHS_SLIP_CNT (Table 17.4). -/
def Reg.whsSlipCnt : Nat := 0x1500028
/-- WHS_BAD_WORD_CNT (Table 17.4). -/
def Reg.whsBadWordCnt : Nat := 0x150002c
/-- WHS_LIMIT_WORD_CNT (Table 17.4). -/
def Reg.whsLimitWordCnt : Nat := 0x1500030
/-- PWR_CTRL (Table 17.5). -/
def Reg.pwrCtrl : Nat := 0x1400000
/-- PWR_ENVELOPE (Table 17.5). -/
def Reg.pwrEnvelope : Nat := 0x1400004
/-- PWR_CAP (Table 17.5). -/
def Reg.pwrCap : Nat := 0x1400008
/-- PWR_SETPOINT (Table 17.5). -/
def Reg.pwrSetpoint : Nat := 0x140000c
/-- PWR_FLIMIT (Table 17.5). -/
def Reg.pwrFlimit : Nat := 0x1400010
/-- PWR_BANKSMAN (Table 17.5). -/
def Reg.pwrBanksman : Nat := 0x1400014
/-- PWR_BANK_CFG (Table 17.5). -/
def Reg.pwrBankCfg : Nat := 0x1400018
/-- PWR_DEFER_MAX (Table 17.5). -/
def Reg.pwrDeferMax : Nat := 0x140001c
/-- PWR_DRAW (Table 17.5). -/
def Reg.pwrDraw : Nat := 0x1400020
/-- PWR_CTLD (Table 17.5). -/
def Reg.pwrCtld : Nat := 0x1400024
/-- PWR_STAT (Table 17.5). -/
def Reg.pwrStat : Nat := 0x1400028
/-- PWR_CAL (Table 17.5). -/
def Reg.pwrCal : Nat := 0x140002c
/-- PWR_TEMP (Table 17.5). -/
def Reg.pwrTemp : Nat := 0x1400030
/-- PWR_TJ (Table 17.5). -/
def Reg.pwrTj : Nat := 0x1400034
/-- PWR_FLOW (Table 17.5). -/
def Reg.pwrFlow : Nat := 0x1400038
/-- PWR_HEAT (Table 17.5). -/
def Reg.pwrHeat : Nat := 0x140003c
/-- PWR_VHC (Table 17.5). -/
def Reg.pwrVhc : Nat := 0x1400040
/-- PWR_GATE_CNT (Table 17.5). -/
def Reg.pwrGateCnt : Nat := 0x1400080
/-- PWR_DEFER_CNT (Table 17.5). -/
def Reg.pwrDeferCnt : Nat := 0x1400084
/-- PWR_PROTECT_CNT (Table 17.5). -/
def Reg.pwrProtectCnt : Nat := 0x1400088
/-- PWR_DISAGREE_CNT (Table 17.5). -/
def Reg.pwrDisagreeCnt : Nat := 0x140008c
/-- PWR_DISTRUST_CNT (Table 17.5). -/
def Reg.pwrDistrustCnt : Nat := 0x1400090
/-- PWR_THROTTLE_CNT (Table 17.5). -/
def Reg.pwrThrottleCnt : Nat := 0x1400094
/-- PWR_LEVEL_MISS_CNT (Table 17.5). -/
def Reg.pwrLevelMissCnt : Nat := 0x1400098
/-- PWR_WORD_CNT (Table 17.5). -/
def Reg.pwrWordCnt : Nat := 0x140009c
/-- PWR_DROOP_CNT[s] (Table 17.5). -/
def Reg.pwrDroopCnt (s : Nat) : Nat := 0x1401000 + 0x10 * s
/-- PWR_STRETCH_CNT[l] (Table 17.5). -/
def Reg.pwrStretchCnt (l : Nat) : Nat := 0x1402000 + 0x4 * l
/-- RST_CAUSE (Table 18.10). -/
def Reg.rstCause : Nat := 0x0
/-- RST_CTRL (Table 18.10). -/
def Reg.rstCtrl : Nat := 0x4
/-- RST_STAT (Table 18.10). -/
def Reg.rstStat : Nat := 0x8
/-- RST_STRAP (Table 18.10). -/
def Reg.rstStrap : Nat := 0xc
/-- RST_IDLE_TIMEOUT (Table 18.10). -/
def Reg.rstIdleTimeout : Nat := 0x10
/-- RST_BLK_CTRL (Table 18.10). -/
def Reg.rstBlkCtrl : Nat := 0x14
/-- RST_WDT (Table 18.10). -/
def Reg.rstWdt : Nat := 0x18
/-- RST_WDT_KICK (Table 18.10). -/
def Reg.rstWdtKick : Nat := 0x1c
/-- RST_FUSE (Table 18.10). -/
def Reg.rstFuse : Nat := 0x20
/-- RST_BOOT (Table 18.10). -/
def Reg.rstBoot : Nat := 0x24
/-- RST_FORCE_CNT (Table 18.10). -/
def Reg.rstForceCnt : Nat := 0x40
/-- RST_COLLAPSE_CNT (Table 18.10). -/
def Reg.rstCollapseCnt : Nat := 0x44
/-- RST_WDT_CNT (Table 18.10). -/
def Reg.rstWdtCnt : Nat := 0x48
/-- RST_BLK_STAT[b] (Table 18.10). -/
def Reg.rstBlkStat (b : Nat) : Nat := 0x1000 + 0x4 * b
/-- LMP_EVENT_STAT (Table 19.10). -/
def Reg.lmpEventStat : Nat := 0x100000
/-- LMP_EVENT_EN (Table 19.10). -/
def Reg.lmpEventEn : Nat := 0x100004
/-- LMP_LAMP_CAUSE (Table 19.10). -/
def Reg.lmpLampCause : Nat := 0x100008
/-- LMP_BAD_ACCESS_CNT (Table 19.10). -/
def Reg.lmpBadAccessCnt : Nat := 0x10000c
/-- LMP_CAGE_DB (Table 19.10). -/
def Reg.lmpCageDb : Nat := 0x100010
/-- LMP_CAGE_BUSY_CNT (Table 19.10). -/
def Reg.lmpCageBusyCnt : Nat := 0x100014
/-- LMP_CPLQ_BASE[0] (Table 19.10). -/
def Reg.lmpCplqBase0 : Nat := 0x100020
/-- LMP_CPLQ_BASE[1] (Table 19.10). -/
def Reg.lmpCplqBase1 : Nat := 0x100024
/-- LMP_CPLQ_SIZE (Table 19.10). -/
def Reg.lmpCplqSize : Nat := 0x100028
/-- LMP_CPLQ_HEAD (Table 19.10). -/
def Reg.lmpCplqHead : Nat := 0x10002c
/-- LMP_CPLQ_TAIL (Table 19.10). -/
def Reg.lmpCplqTail : Nat := 0x100030
/-- LMP_CPLQ_DROP_CNT (Table 19.10). -/
def Reg.lmpCplqDropCnt : Nat := 0x100034
/-- LMP_FW_STAT (Table 19.10). -/
def Reg.lmpFwStat : Nat := 0x100040
/-- LMP_EVENT_VEC[e] (Table 19.10). -/
def Reg.lmpEventVec (e : Nat) : Nat := 0x100100 + 0x4 * e
/-- LMP_CAGE_STAT[c] (Table 19.10). -/
def Reg.lmpCageStat (c : Nat) : Nat := 0x100200 + 0x4 * c
/-- PCI_STAT (Table 19.11). -/
def Reg.pciStat : Nat := 0x200000
/-- PCI_BAR2_BASE[0] (Table 19.11). -/
def Reg.pciBar2Base0 : Nat := 0x200008
/-- PCI_BAR2_BASE[1] (Table 19.11). -/
def Reg.pciBar2Base1 : Nat := 0x20000c
/-- PCI_ATS_REQ_CNT (Table 19.11). -/
def Reg.pciAtsReqCnt : Nat := 0x200010
/-- PCI_ATS_INV_CNT (Table 19.11). -/
def Reg.pciAtsInvCnt : Nat := 0x200014
/-- PCI_CPL_ERR_CNT (Table 19.11). -/
def Reg.pciCplErrCnt : Nat := 0x200018
/-- PCI_POISON_CNT (Table 19.11). -/
def Reg.pciPoisonCnt : Nat := 0x20001c

/-- LOD_CTRL.BREACH_EVENT. -/
def Fld.lodCtrlBreachEvent : Fld := ⟨1, 1⟩
/-- LOD_CTRL.WIDEN_OFF. -/
def Fld.lodCtrlWidenOff : Fld := ⟨0, 0⟩
/-- DRL_CTRL.QUAD_SHARE. -/
def Fld.drlCtrlQuadShare : Fld := ⟨2, 2⟩
/-- DRL_CTRL.CHK_SKIP_EVENT. -/
def Fld.drlCtrlChkSkipEvent : Fld := ⟨1, 1⟩
/-- DRL_CTRL.EXCQ_EN. -/
def Fld.drlCtrlExcqEn : Fld := ⟨0, 0⟩
/-- DRL_EXCQ_BASE.BASE_HI. -/
def Fld.drlExcqBaseBaseHi : Fld := ⟨24, 0⟩
/-- DRL_EXCQ_SIZE.SIZE. -/
def Fld.drlExcqSizeSize : Fld := ⟨15, 0⟩
/-- DRL_EXCQ_HEAD.HEAD. -/
def Fld.drlExcqHeadHead : Fld := ⟨15, 0⟩
/-- DRL_EXCQ_TAIL.TAIL. -/
def Fld.drlExcqTailTail : Fld := ⟨15, 0⟩
/-- DRL_STAT.UNITS_FREE. -/
def Fld.drlStatUnitsFree : Fld := ⟨23, 16⟩
/-- DRL_STAT.TILES. -/
def Fld.drlStatTiles : Fld := ⟨15, 8⟩
/-- DRL_STAT.BUSY. -/
def Fld.drlStatBusy : Fld := ⟨0, 0⟩
/-- SLC_CTRL.DUP_PERIOD. -/
def Fld.slcCtrlDupPeriod : Fld := ⟨15, 8⟩
/-- SLC_CTRL.DUP_FAIL_EVENT. -/
def Fld.slcCtrlDupFailEvent : Fld := ⟨1, 1⟩
/-- SLC_CTRL.DUP_OFF. -/
def Fld.slcCtrlDupOff : Fld := ⟨0, 0⟩
/-- CRW_CTRL.SKIP_EVENT. -/
def Fld.crwCtrlSkipEvent : Fld := ⟨2, 2⟩
/-- CRW_CTRL.SKIPQ_EN. -/
def Fld.crwCtrlSkipqEn : Fld := ⟨1, 1⟩
/-- CRW_CTRL.SKIP_SEAL. -/
def Fld.crwCtrlSkipSeal : Fld := ⟨0, 0⟩
/-- CRW_SAVE_BASE.BASE_HI. -/
def Fld.crwSaveBaseBaseHi : Fld := ⟨24, 0⟩
/-- CRW_SAVE_SLOTS.SLOTS. -/
def Fld.crwSaveSlotsSlots : Fld := ⟨12, 0⟩
/-- CRW_SAVE_USED.USED. -/
def Fld.crwSaveUsedUsed : Fld := ⟨12, 0⟩
/-- CRW_SKIPQ_BASE.BASE_HI. -/
def Fld.crwSkipqBaseBaseHi : Fld := ⟨24, 0⟩
/-- CRW_SKIPQ_SIZE.SIZE. -/
def Fld.crwSkipqSizeSize : Fld := ⟨15, 0⟩
/-- CRW_SKIPQ_HEAD.HEAD. -/
def Fld.crwSkipqHeadHead : Fld := ⟨15, 0⟩
/-- CRW_SKIPQ_TAIL.TAIL. -/
def Fld.crwSkipqTailTail : Fld := ⟨15, 0⟩
/-- SFT_CTRL.REFUSE_EVENT. -/
def Fld.sftCtrlRefuseEvent : Fld := ⟨2, 2⟩
/-- SFT_CTRL.STALL_EVENT. -/
def Fld.sftCtrlStallEvent : Fld := ⟨1, 1⟩
/-- SFT_CTRL.STALL_HALT. -/
def Fld.sftCtrlStallHalt : Fld := ⟨0, 0⟩
/-- SFT_STALL_LIMIT.FRAMES. -/
def Fld.sftStallLimitFrames : Fld := ⟨15, 0⟩
/-- SFT_STEPS.INFLIGHT. -/
def Fld.sftStepsInflight : Fld := ⟨2, 0⟩
/-- SFT_RING_LO.BASE_LO. -/
def Fld.sftRingLoBaseLo : Fld := ⟨31, 12⟩
/-- SFT_RING_HI.BASE_HI. -/
def Fld.sftRingHiBaseHi : Fld := ⟨24, 0⟩
/-- SFT_SHAFT_CTRL.SIZE_LOG2. -/
def Fld.sftShaftCtrlSizeLog2 : Fld := ⟨19, 16⟩
/-- SFT_SHAFT_CTRL.PRIO. -/
def Fld.sftShaftCtrlPrio : Fld := ⟨5, 4⟩
/-- SFT_SHAFT_CTRL.ABORT. -/
def Fld.sftShaftCtrlAbort : Fld := ⟨3, 3⟩
/-- SFT_SHAFT_CTRL.RESUME. -/
def Fld.sftShaftCtrlResume : Fld := ⟨2, 2⟩
/-- SFT_SHAFT_CTRL.EN. -/
def Fld.sftShaftCtrlEn : Fld := ⟨0, 0⟩
/-- SFT_DOORBELL.TAIL. -/
def Fld.sftDoorbellTail : Fld := ⟨15, 0⟩
/-- SFT_HEAD.HEAD. -/
def Fld.sftHeadHead : Fld := ⟨15, 0⟩
/-- SFT_DECODE.DECODE. -/
def Fld.sftDecodeDecode : Fld := ⟨15, 0⟩
/-- SFT_SHAFT_STAT.HALT. -/
def Fld.sftShaftStatHalt : Fld := ⟨31, 30⟩
/-- SFT_SHAFT_STAT.CAUSE. -/
def Fld.sftShaftStatCause : Fld := ⟨23, 16⟩
/-- SFT_SHAFT_STAT.HALT_POS. -/
def Fld.sftShaftStatHaltPos : Fld := ⟨15, 0⟩
/-- TLY_EPOCH.CURRENT. -/
def Fld.tlyEpochCurrent : Fld := ⟨15, 8⟩
/-- TLY_EPOCH.NEXT. -/
def Fld.tlyEpochNext : Fld := ⟨7, 0⟩
/-- TLY_HOST_OP.SET. -/
def Fld.tlyHostOpSet : Fld := ⟨16, 16⟩
/-- TLY_HOST_OP.INDEX. -/
def Fld.tlyHostOpIndex : Fld := ⟨15, 0⟩
/-- MEM_CTRL.UE_EVENT. -/
def Fld.memCtrlUeEvent : Fld := ⟨3, 3⟩
/-- MEM_CTRL.OVT_EVENT. -/
def Fld.memCtrlOvtEvent : Fld := ⟨2, 2⟩
/-- MEM_CTRL.OVT_SEAL. -/
def Fld.memCtrlOvtSeal : Fld := ⟨1, 1⟩
/-- MEM_CTRL.TEST_EN. -/
def Fld.memCtrlTestEn : Fld := ⟨0, 0⟩
/-- MEM_BG_WIN.CYCLES. -/
def Fld.memBgWinCycles : Fld := ⟨19, 0⟩
/-- MEM_UE_ADDR.ADDR_HI. -/
def Fld.memUeAddrAddrHi : Fld := ⟨15, 0⟩
/-- MEM_UE_INFO.KIND. -/
def Fld.memUeInfoKind : Fld := ⟨31, 24⟩
/-- MEM_UE_INFO.STOPE. -/
def Fld.memUeInfoStope : Fld := ⟨23, 16⟩
/-- MEM_UE_INFO.SYNDROME. -/
def Fld.memUeInfoSyndrome : Fld := ⟨6, 0⟩
/-- MEM_FACE_SPARE.LODE_ROWS. -/
def Fld.memFaceSpareLodeRows : Fld := ⟨31, 16⟩
/-- MEM_FACE_SPARE.FACE_ROWS. -/
def Fld.memFaceSpareFaceRows : Fld := ⟨15, 0⟩
/-- MEM_SP_RETIRED.REGIONS. -/
def Fld.memSpRetiredRegions : Fld := ⟨4, 0⟩
/-- HBM_CTRL.SPARE_THRESH. -/
def Fld.hbmCtrlSpareThresh : Fld := ⟨7, 4⟩
/-- HBM_CTRL.SPARE_EN. -/
def Fld.hbmCtrlSpareEn : Fld := ⟨2, 2⟩
/-- HBM_CTRL.SCRUB_EN. -/
def Fld.hbmCtrlScrubEn : Fld := ⟨1, 1⟩
/-- HBM_CTRL.INTERLEAVE. -/
def Fld.hbmCtrlInterleave : Fld := ⟨0, 0⟩
/-- HBM_STAT.CACHE_ROWS. -/
def Fld.hbmStatCacheRows : Fld := ⟨11, 8⟩
/-- HBM_STAT.DEGRADED. -/
def Fld.hbmStatDegraded : Fld := ⟨1, 1⟩
/-- HBM_STAT.TRAINED. -/
def Fld.hbmStatTrained : Fld := ⟨0, 0⟩
/-- HBM_UE_ADDR_TOP.A38. -/
def Fld.hbmUeAddrTopA38 : Fld := ⟨0, 0⟩
/-- SKP_CTRL.ERR_SEAL. -/
def Fld.skpCtrlErrSeal : Fld := ⟨2, 2⟩
/-- SKP_CTRL.FAULT_EVENT. -/
def Fld.skpCtrlFaultEvent : Fld := ⟨1, 1⟩
/-- SKP_CTRL.XLATE. -/
def Fld.skpCtrlXlate : Fld := ⟨0, 0⟩
/-- SKP_SHARE.REMOTE. -/
def Fld.skpShareRemote : Fld := ⟨23, 16⟩
/-- SKP_SHARE.WRITE. -/
def Fld.skpShareWrite : Fld := ⟨15, 8⟩
/-- SKP_SHARE.READ. -/
def Fld.skpShareRead : Fld := ⟨7, 0⟩
/-- SKP_PT_ROOT.ROOT_LO. -/
def Fld.skpPtRootRootLo : Fld := ⟨31, 12⟩
/-- SKP_PT_ROOT.ROOT_HI. -/
def Fld.skpPtRootRootHi : Fld := ⟨15, 0⟩
/-- SKP_INV_ADDR.VA_LO. -/
def Fld.skpInvAddrVaLo : Fld := ⟨31, 16⟩
/-- SKP_INV_ADDR.VA_HI. -/
def Fld.skpInvAddrVaHi : Fld := ⟨24, 0⟩
/-- SKP_INV_CTRL.BUSY. -/
def Fld.skpInvCtrlBusy : Fld := ⟨31, 31⟩
/-- SKP_INV_CTRL.ALL. -/
def Fld.skpInvCtrlAll : Fld := ⟨1, 1⟩
/-- SKP_INV_CTRL.SIZE. -/
def Fld.skpInvCtrlSize : Fld := ⟨0, 0⟩
/-- SKP_FLTQ_BASE.BASE_HI. -/
def Fld.skpFltqBaseBaseHi : Fld := ⟨24, 0⟩
/-- SKP_FLTQ_SIZE.SIZE. -/
def Fld.skpFltqSizeSize : Fld := ⟨15, 0⟩
/-- SKP_FLTQ_HEAD.HEAD. -/
def Fld.skpFltqHeadHead : Fld := ⟨15, 0⟩
/-- SKP_FLTQ_TAIL.TAIL. -/
def Fld.skpFltqTailTail : Fld := ⟨15, 0⟩
/-- SKP_RESUME.ABORT. -/
def Fld.skpResumeAbort : Fld := ⟨16, 16⟩
/-- SKP_RESUME.FID. -/
def Fld.skpResumeFid : Fld := ⟨15, 0⟩
/-- CXL_CTRL.TIMEOUT. -/
def Fld.cxlCtrlTimeout : Fld := ⟨15, 0⟩
/-- CXL_PORT_STAT.CAP. -/
def Fld.cxlPortStatCap : Fld := ⟨31, 18⟩
/-- CXL_PORT_STAT.SPEED. -/
def Fld.cxlPortStatSpeed : Fld := ⟨17, 16⟩
/-- CXL_PORT_STAT.WIDTH. -/
def Fld.cxlPortStatWidth : Fld := ⟨15, 8⟩
/-- CXL_PORT_STAT.STATE. -/
def Fld.cxlPortStatState : Fld := ⟨2, 0⟩
/-- BNL_CTRL.LOST_EVENT. -/
def Fld.bnlCtrlLostEvent : Fld := ⟨2, 2⟩
/-- BNL_CTRL.ROUTE_EVENT. -/
def Fld.bnlCtrlRouteEvent : Fld := ⟨1, 1⟩
/-- BNL_CTRL.EN. -/
def Fld.bnlCtrlEn : Fld := ⟨0, 0⟩
/-- BNL_NODE.NODE. -/
def Fld.bnlNodeNode : Fld := ⟨17, 0⟩
/-- BNL_RING.SIZE_M1. -/
def Fld.bnlRingSizeM1 : Fld := ⟨17, 0⟩
/-- BNL_HEADROOM.KIB. -/
def Fld.bnlHeadroomKib : Fld := ⟨8, 0⟩
/-- BNL_ESC_WAIT.CYCLES. -/
def Fld.bnlEscWaitCycles : Fld := ⟨15, 0⟩
/-- BNL_ROUTE_CTRL.ARM. -/
def Fld.bnlRouteCtrlArm : Fld := ⟨0, 0⟩
/-- BNL_ROUTE_STAT.CURRENT. -/
def Fld.bnlRouteStatCurrent : Fld := ⟨15, 8⟩
/-- BNL_ROUTE_STAT.DRAIN. -/
def Fld.bnlRouteStatDrain : Fld := ⟨2, 2⟩
/-- BNL_ROUTE_STAT.ARMED. -/
def Fld.bnlRouteStatArmed : Fld := ⟨1, 1⟩
/-- BNL_ROUTE_STAT.BANK. -/
def Fld.bnlRouteStatBank : Fld := ⟨0, 0⟩
/-- BNL_PORT_CFG.MODE. -/
def Fld.bnlPortCfgMode : Fld := ⟨0, 0⟩
/-- BNL_GAL_MARK.HIGH. -/
def Fld.bnlGalMarkHigh : Fld := ⟨15, 8⟩
/-- BNL_GAL_MARK.LOW. -/
def Fld.bnlGalMarkLow : Fld := ⟨7, 0⟩
/-- BNL_PORT_STAT.STATE. -/
def Fld.bnlPortStatState : Fld := ⟨31, 29⟩
/-- BNL_PORT_STAT.CAUSE. -/
def Fld.bnlPortStatCause : Fld := ⟨28, 26⟩
/-- BNL_PORT_STAT.SPARE. -/
def Fld.bnlPortStatSpare : Fld := ⟨25, 25⟩
/-- BNL_PORT_STAT.LANE_OK. -/
def Fld.bnlPortStatLaneOk : Fld := ⟨24, 21⟩
/-- BNL_PORT_STAT.RTT. -/
def Fld.bnlPortStatRtt : Fld := ⟨15, 0⟩
/-- BNL_BOX_LO.SELF. -/
def Fld.bnlBoxLoSelf : Fld := ⟨18, 18⟩
/-- BNL_BOX_LO.LO. -/
def Fld.bnlBoxLoLo : Fld := ⟨17, 0⟩
/-- BNL_BOX_HI.HI. -/
def Fld.bnlBoxHiHi : Fld := ⟨17, 0⟩
/-- BNL_BOX_WMASK.MASK. -/
def Fld.bnlBoxWmaskMask : Fld := ⟨7, 0⟩
/-- HST_CTRL.TAIL_EVENT. -/
def Fld.hstCtrlTailEvent : Fld := ⟨1, 1⟩
/-- HST_CTRL.FINAL_SEAL. -/
def Fld.hstCtrlFinalSeal : Fld := ⟨0, 0⟩
/-- HST_DEADLINE.FRAMES. -/
def Fld.hstDeadlineFrames : Fld := ⟨15, 0⟩
/-- HST_BTAB_BASE.BASE_HI. -/
def Fld.hstBtabBaseBaseHi : Fld := ⟨24, 0⟩
/-- HST_OPEN.BUCKETS. -/
def Fld.hstOpenBuckets : Fld := ⟨6, 0⟩
/-- RFL_CTRL.DROP_EVENT. -/
def Fld.rflCtrlDropEvent : Fld := ⟨1, 1⟩
/-- RFL_CTRL.BADEXP_SEAL. -/
def Fld.rflCtrlBadexpSeal : Fld := ⟨0, 0⟩
/-- RFL_TAB_BASE.BASE_HI. -/
def Fld.rflTabBaseBaseHi : Fld := ⟨24, 0⟩
/-- RFL_OPEN.OPS. -/
def Fld.rflOpenOps : Fld := ⟨4, 0⟩
/-- RFL_FRZ_LO.BASE_LO. -/
def Fld.rflFrzLoBaseLo : Fld := ⟨31, 21⟩
/-- RFL_FRZ_LO.V. -/
def Fld.rflFrzLoV : Fld := ⟨0, 0⟩
/-- RFL_FRZ_HI.BASE_HI. -/
def Fld.rflFrzHiBaseHi : Fld := ⟨24, 0⟩
/-- SML_CTRL.PHASEQ_EN. -/
def Fld.smlCtrlPhaseqEn : Fld := ⟨4, 4⟩
/-- SML_CTRL.LONG_EVENT. -/
def Fld.smlCtrlLongEvent : Fld := ⟨3, 3⟩
/-- SML_CTRL.RATIO_EVENT. -/
def Fld.smlCtrlRatioEvent : Fld := ⟨2, 2⟩
/-- SML_CTRL.NONFIN_SEAL. -/
def Fld.smlCtrlNonfinSeal : Fld := ⟨1, 1⟩
/-- SML_CTRL.FAIL_EVENT. -/
def Fld.smlCtrlFailEvent : Fld := ⟨0, 0⟩
/-- SML_REBASE.MARGIN. -/
def Fld.smlRebaseMargin : Fld := ⟨15, 8⟩
/-- SML_REBASE.TARGET. -/
def Fld.smlRebaseTarget : Fld := ⟨7, 0⟩
/-- SML_LONG_MULT.MULT. -/
def Fld.smlLongMultMult : Fld := ⟨7, 0⟩
/-- SML_PHASEQ_BASE.BASE_HI. -/
def Fld.smlPhaseqBaseBaseHi : Fld := ⟨24, 0⟩
/-- SML_PHASEQ_SIZE.SIZE. -/
def Fld.smlPhaseqSizeSize : Fld := ⟨15, 0⟩
/-- SML_PHASEQ_HEAD.HEAD. -/
def Fld.smlPhaseqHeadHead : Fld := ⟨15, 0⟩
/-- SML_PHASEQ_TAIL.TAIL. -/
def Fld.smlPhaseqTailTail : Fld := ⟨15, 0⟩
/-- SML_INFLIGHT.CMDS. -/
def Fld.smlInflightCmds : Fld := ⟨3, 0⟩
/-- DPT_CTRL.VERDICT_EVENT. -/
def Fld.dptCtrlVerdictEvent : Fld := ⟨5, 5⟩
/-- DPT_CTRL.CANARY_EVENT. -/
def Fld.dptCtrlCanaryEvent : Fld := ⟨4, 4⟩
/-- DPT_CTRL.POISON_EVENT. -/
def Fld.dptCtrlPoisonEvent : Fld := ⟨3, 3⟩
/-- DPT_CTRL.CANARY_EN. -/
def Fld.dptCtrlCanaryEn : Fld := ⟨2, 2⟩
/-- DPT_CTRL.LEVEL. -/
def Fld.dptCtrlLevel : Fld := ⟨1, 0⟩
/-- DPT_CANARY_PERIOD.FRAMES. -/
def Fld.dptCanaryPeriodFrames : Fld := ⟨15, 0⟩
/-- DPT_CANARY_FORCE.FRAMES. -/
def Fld.dptCanaryForceFrames : Fld := ⟨15, 0⟩
/-- DPT_BOX.V. -/
def Fld.dptBoxV : Fld := ⟨6, 6⟩
/-- DPT_BOX.BOX. -/
def Fld.dptBoxBox : Fld := ⟨5, 0⟩
/-- DPT_PACK_STAT.VERSION. -/
def Fld.dptPackStatVersion : Fld := ⟨31, 16⟩
/-- DPT_PACK_STAT.ENTRIES. -/
def Fld.dptPackStatEntries : Fld := ⟨15, 0⟩
/-- DPT_UNRESOLVED.TICKETS. -/
def Fld.dptUnresolvedTickets : Fld := ⟨14, 0⟩
/-- DPT_PACK_PA.PA_LO. -/
def Fld.dptPackPaPaLo : Fld := ⟨31, 16⟩
/-- DPT_PACK_PA.PA_HI. -/
def Fld.dptPackPaPaHi : Fld := ⟨15, 0⟩
/-- DPT_PACK_VA.VA_LO. -/
def Fld.dptPackVaVaLo : Fld := ⟨31, 16⟩
/-- DPT_PACK_VA.VA_HI. -/
def Fld.dptPackVaVaHi : Fld := ⟨24, 0⟩
/-- DPT_CANARY_FACE.LEN_KIB. -/
def Fld.dptCanaryFaceLenKib : Fld := ⟨27, 16⟩
/-- DPT_CANARY_FACE.BASE_KIB. -/
def Fld.dptCanaryFaceBaseKib : Fld := ⟨11, 0⟩
/-- DPT_STOPE_STAT.STATE. -/
def Fld.dptStopeStatState : Fld := ⟨31, 28⟩
/-- DPT_STOPE_STAT.FCAUSE. -/
def Fld.dptStopeStatFcause : Fld := ⟨27, 24⟩
/-- PLG_CTRL.BLOCK_EVENT. -/
def Fld.plgCtrlBlockEvent : Fld := ⟨1, 1⟩
/-- PLG_CTRL.EN. -/
def Fld.plgCtrlEn : Fld := ⟨0, 0⟩
/-- PLG_BASE.BASE_HI. -/
def Fld.plgBaseBaseHi : Fld := ⟨24, 0⟩
/-- PLG_RESOLVE.ACTION. -/
def Fld.plgResolveAction : Fld := ⟨1, 0⟩
/-- PLG_STAT.BLOCKED. -/
def Fld.plgStatBlocked : Fld := ⟨0, 0⟩
/-- STR_CTRL.FAIL_EVENT. -/
def Fld.strCtrlFailEvent : Fld := ⟨0, 0⟩
/-- STR_STAT.ARMED. -/
def Fld.strStatArmed : Fld := ⟨1, 1⟩
/-- STR_STAT.BUSY. -/
def Fld.strStatBusy : Fld := ⟨0, 0⟩
/-- WHS_CTRL.EVENT. -/
def Fld.whsCtrlEvent : Fld := ⟨3, 3⟩
/-- WHS_CTRL.ROLE. -/
def Fld.whsCtrlRole : Fld := ⟨2, 1⟩
/-- WHS_CTRL.EN. -/
def Fld.whsCtrlEn : Fld := ⟨0, 0⟩
/-- WHS_PERIOD.TICKS. -/
def Fld.whsPeriodTicks : Fld := ⟨16, 0⟩
/-- WHS_STAT.PARENT. -/
def Fld.whsStatParent : Fld := ⟨15, 8⟩
/-- WHS_STAT.UNALIGNED. -/
def Fld.whsStatUnaligned : Fld := ⟨2, 2⟩
/-- WHS_STAT.HOLDOVER. -/
def Fld.whsStatHoldover : Fld := ⟨1, 1⟩
/-- WHS_STAT.LOCKED. -/
def Fld.whsStatLocked : Fld := ⟨0, 0⟩
/-- WHS_HOLD_LIMIT.FRAMES. -/
def Fld.whsHoldLimitFrames : Fld := ⟨15, 0⟩
/-- WHS_FREQ.NEXT. -/
def Fld.whsFreqNext : Fld := ⟨12, 8⟩
/-- WHS_FREQ.CODE. -/
def Fld.whsFreqCode : Fld := ⟨4, 0⟩
/-- PWR_CTRL.EVENT. -/
def Fld.pwrCtrlEvent : Fld := ⟨2, 2⟩
/-- PWR_CTRL.LEVEL_DRAW. -/
def Fld.pwrCtrlLevelDraw : Fld := ⟨1, 1⟩
/-- PWR_CTRL.BANKSMAN. -/
def Fld.pwrCtrlBanksman : Fld := ⟨0, 0⟩
/-- PWR_ENVELOPE.WATTS. -/
def Fld.pwrEnvelopeWatts : Fld := ⟨10, 0⟩
/-- PWR_CAP.WATTS. -/
def Fld.pwrCapWatts : Fld := ⟨10, 0⟩
/-- PWR_SETPOINT.WATTS. -/
def Fld.pwrSetpointWatts : Fld := ⟨10, 0⟩
/-- PWR_FLIMIT.FMAX. -/
def Fld.pwrFlimitFmax : Fld := ⟨12, 8⟩
/-- PWR_FLIMIT.FMIN. -/
def Fld.pwrFlimitFmin : Fld := ⟨4, 0⟩
/-- PWR_BANKSMAN.BOX. -/
def Fld.pwrBanksmanBox : Fld := ⟨29, 24⟩
/-- PWR_BANKSMAN.NODE. -/
def Fld.pwrBanksmanNode : Fld := ⟨17, 0⟩
/-- PWR_BANK_CFG.UP_FRAMES. -/
def Fld.pwrBankCfgUpFrames : Fld := ⟨31, 24⟩
/-- PWR_BANK_CFG.DOWN_FRAMES. -/
def Fld.pwrBankCfgDownFrames : Fld := ⟨23, 16⟩
/-- PWR_BANK_CFG.UP_MARGIN. -/
def Fld.pwrBankCfgUpMargin : Fld := ⟨15, 8⟩
/-- PWR_BANK_CFG.HYST. -/
def Fld.pwrBankCfgHyst : Fld := ⟨7, 0⟩
/-- PWR_DEFER_MAX.FRAMES. -/
def Fld.pwrDeferMaxFrames : Fld := ⟨15, 0⟩
/-- PWR_DRAW.MEAS. -/
def Fld.pwrDrawMeas : Fld := ⟨31, 16⟩
/-- PWR_DRAW.EST. -/
def Fld.pwrDrawEst : Fld := ⟨15, 0⟩
/-- PWR_CTLD.DEFER. -/
def Fld.pwrCtldDefer : Fld := ⟨31, 16⟩
/-- PWR_CTLD.CTL. -/
def Fld.pwrCtldCtl : Fld := ⟨15, 0⟩
/-- PWR_STAT.GATED. -/
def Fld.pwrStatGated : Fld := ⟨31, 24⟩
/-- PWR_STAT.PACED. -/
def Fld.pwrStatPaced : Fld := ⟨5, 5⟩
/-- PWR_STAT.PROTECT. -/
def Fld.pwrStatProtect : Fld := ⟨4, 4⟩
/-- PWR_STAT.DEFER. -/
def Fld.pwrStatDefer : Fld := ⟨3, 3⟩
/-- PWR_STAT.DISTRUST. -/
def Fld.pwrStatDistrust : Fld := ⟨2, 2⟩
/-- PWR_STAT.RECAL. -/
def Fld.pwrStatRecal : Fld := ⟨1, 1⟩
/-- PWR_STAT.DISAGREE. -/
def Fld.pwrStatDisagree : Fld := ⟨0, 0⟩
/-- PWR_TEMP.T_OUT. -/
def Fld.pwrTempTOut : Fld := ⟨31, 16⟩
/-- PWR_TEMP.T_IN. -/
def Fld.pwrTempTIn : Fld := ⟨15, 0⟩
/-- PWR_TJ.TJ1. -/
def Fld.pwrTjTj1 : Fld := ⟨31, 16⟩
/-- PWR_TJ.TJ0. -/
def Fld.pwrTjTj0 : Fld := ⟨15, 0⟩
/-- PWR_FLOW.ML_MIN. -/
def Fld.pwrFlowMlMin : Fld := ⟨15, 0⟩
/-- PWR_HEAT.WATTS. -/
def Fld.pwrHeatWatts : Fld := ⟨15, 0⟩
/-- PWR_VHC.VHC. -/
def Fld.pwrVhcVhc : Fld := ⟨15, 0⟩
/-- RST_CAUSE.REGFAULT. -/
def Fld.rstCauseRegfault : Fld := ⟨9, 9⟩
/-- RST_CAUSE.THERMTRIP. -/
def Fld.rstCauseThermtrip : Fld := ⟨8, 8⟩
/-- RST_CAUSE.WDOG. -/
def Fld.rstCauseWdog : Fld := ⟨7, 7⟩
/-- RST_CAUSE.SIDEBAND. -/
def Fld.rstCauseSideband : Fld := ⟨6, 6⟩
/-- RST_CAUSE.MBOX. -/
def Fld.rstCauseMbox : Fld := ⟨5, 5⟩
/-- RST_CAUSE.FLR. -/
def Fld.rstCauseFlr : Fld := ⟨4, 4⟩
/-- RST_CAUSE.LINKDOWN. -/
def Fld.rstCauseLinkdown : Fld := ⟨3, 3⟩
/-- RST_CAUSE.HOTRST. -/
def Fld.rstCauseHotrst : Fld := ⟨2, 2⟩
/-- RST_CAUSE.PERST. -/
def Fld.rstCausePerst : Fld := ⟨1, 1⟩
/-- RST_CAUSE.POR. -/
def Fld.rstCausePor : Fld := ⟨0, 0⟩
/-- RST_CTRL.EVENT. -/
def Fld.rstCtrlEvent : Fld := ⟨3, 3⟩
/-- RST_CTRL.REG_RESTART. -/
def Fld.rstCtrlRegRestart : Fld := ⟨2, 2⟩
/-- RST_CTRL.TRIP_RESTART. -/
def Fld.rstCtrlTripRestart : Fld := ⟨1, 1⟩
/-- RST_CTRL.LINKDOWN_EN. -/
def Fld.rstCtrlLinkdownEn : Fld := ⟨0, 0⟩
/-- RST_STAT.STANDBY. -/
def Fld.rstStatStandby : Fld := ⟨2, 2⟩
/-- RST_STAT.RECOVERY. -/
def Fld.rstStatRecovery : Fld := ⟨1, 1⟩
/-- RST_STAT.READY. -/
def Fld.rstStatReady : Fld := ⟨0, 0⟩
/-- RST_STRAP.RATIO. -/
def Fld.rstStrapRatio : Fld := ⟨15, 8⟩
/-- RST_STRAP.FAULT. -/
def Fld.rstStrapFault : Fld := ⟨7, 7⟩
/-- RST_STRAP.FALLBACK. -/
def Fld.rstStrapFallback : Fld := ⟨6, 6⟩
/-- RST_STRAP.BOOTED. -/
def Fld.rstStrapBooted : Fld := ⟨5, 5⟩
/-- RST_STRAP.CODE. -/
def Fld.rstStrapCode : Fld := ⟨3, 0⟩
/-- RST_IDLE_TIMEOUT.TICKS. -/
def Fld.rstIdleTimeoutTicks : Fld := ⟨19, 0⟩
/-- RST_BLK_CTRL.OP. -/
def Fld.rstBlkCtrlOp : Fld := ⟨17, 16⟩
/-- RST_BLK_CTRL.BLOCK. -/
def Fld.rstBlkCtrlBlock : Fld := ⟨8, 0⟩
/-- RST_WDT.PERIOD. -/
def Fld.rstWdtPeriod : Fld := ⟨15, 0⟩
/-- RST_WDT_KICK.KICK. -/
def Fld.rstWdtKickKick : Fld := ⟨0, 0⟩
/-- RST_FUSE.REVOKED. -/
def Fld.rstFuseRevoked : Fld := ⟨31, 28⟩
/-- RST_FUSE.PROGRAMMED. -/
def Fld.rstFuseProgrammed : Fld := ⟨27, 24⟩
/-- RST_FUSE.SVN. -/
def Fld.rstFuseSvn : Fld := ⟨5, 0⟩
/-- RST_BOOT.SLOT. -/
def Fld.rstBootSlot : Fld := ⟨17, 16⟩
/-- RST_BOOT.FAIL_A. -/
def Fld.rstBootFailA : Fld := ⟨15, 8⟩
/-- RST_BOOT.FAIL_B. -/
def Fld.rstBootFailB : Fld := ⟨7, 0⟩
/-- RST_BLK_STAT.AFTER. -/
def Fld.rstBlkStatAfter : Fld := ⟨5, 4⟩
/-- RST_BLK_STAT.PEND. -/
def Fld.rstBlkStatPend : Fld := ⟨3, 3⟩
/-- RST_BLK_STAT.STATE. -/
def Fld.rstBlkStatState : Fld := ⟨2, 0⟩
/-- LMP_EVENT_STAT.EVT. -/
def Fld.lmpEventStatEvt : Fld := ⟨17, 0⟩
/-- LMP_EVENT_EN.EN. -/
def Fld.lmpEventEnEn : Fld := ⟨17, 0⟩
/-- LMP_LAMP_CAUSE.PACK. -/
def Fld.lmpLampCausePack : Fld := ⟨5, 5⟩
/-- LMP_LAMP_CAUSE.SWAP. -/
def Fld.lmpLampCauseSwap : Fld := ⟨4, 4⟩
/-- LMP_LAMP_CAUSE.CXLDOWN. -/
def Fld.lmpLampCauseCxldown : Fld := ⟨3, 3⟩
/-- LMP_LAMP_CAUSE.RETIRE. -/
def Fld.lmpLampCauseRetire : Fld := ⟨2, 2⟩
/-- LMP_LAMP_CAUSE.TAKEOVER. -/
def Fld.lmpLampCauseTakeover : Fld := ⟨1, 1⟩
/-- LMP_LAMP_CAUSE.CPL. -/
def Fld.lmpLampCauseCpl : Fld := ⟨0, 0⟩
/-- LMP_CAGE_DB.RING. -/
def Fld.lmpCageDbRing : Fld := ⟨15, 0⟩
/-- LMP_CPLQ_SIZE.SIZE. -/
def Fld.lmpCplqSizeSize : Fld := ⟨15, 0⟩
/-- LMP_CPLQ_HEAD.HEAD. -/
def Fld.lmpCplqHeadHead : Fld := ⟨15, 0⟩
/-- LMP_CPLQ_TAIL.TAIL. -/
def Fld.lmpCplqTailTail : Fld := ⟨15, 0⟩
/-- LMP_FW_STAT.STAGED. -/
def Fld.lmpFwStatStaged : Fld := ⟨3, 3⟩
/-- LMP_FW_STAT.UNCOMMITTED. -/
def Fld.lmpFwStatUncommitted : Fld := ⟨2, 2⟩
/-- LMP_FW_STAT.STAGING. -/
def Fld.lmpFwStatStaging : Fld := ⟨1, 1⟩
/-- LMP_FW_STAT.RUNNING. -/
def Fld.lmpFwStatRunning : Fld := ⟨0, 0⟩
/-- LMP_EVENT_VEC.VEC. -/
def Fld.lmpEventVecVec : Fld := ⟨10, 0⟩
/-- LMP_CAGE_STAT.STATE. -/
def Fld.lmpCageStatState : Fld := ⟨1, 0⟩
/-- PCI_STAT.WIDTH. -/
def Fld.pciStatWidth : Fld := ⟨15, 8⟩
/-- PCI_STAT.FLIT. -/
def Fld.pciStatFlit : Fld := ⟨2, 2⟩
/-- PCI_STAT.SPEED. -/
def Fld.pciStatSpeed : Fld := ⟨1, 0⟩
/-- PCI_BAR2_BASE.BASE_LO. -/
def Fld.pciBar2BaseBaseLo : Fld := ⟨31, 30⟩
/-- PCI_BAR2_BASE.BASE_HI. -/
def Fld.pciBar2BaseBaseHi : Fld := ⟨15, 0⟩

end Sys2Proof.Machine
end

