-- ==== Sys2Proof/Machine/State.lean ====
section
/-!
DEFINITION. The state of the module: plain data, every piece of it. `regs` is the one home of every control
register (its unlisted entries hold the reset values of the register tables); the other fields hold what the spec
gives the machine without a register.
-/
namespace Sys2Proof.Machine

/-- What stops a run with a fault. Nothing in this model does: every command the spec describes has an effect. -/
inductive Fault where
  /-- Raised by no command; kept so that the type is inhabited. Safe: nothing is stopped by it. -/
  | none
deriving DecidableEq, Repr

/-- What a command is refused for. -/
inductive Refusal where
  /-- Raised by `exec` alone for a command that has no meaning yet. Safe: nothing is performed. -/
  | notModelled (mnemonic : String)
deriving DecidableEq, Repr

/-- What leaves the module (01, 19): interrupt messages, read completions (with their poison), completer aborts, packets,
responses and refusals on a management path (0 PCIe messages, 1 I3C, 2 SMBus), and pins. -/
inductive Output where
  | msix (vec : Nat)
  | readData (val : Nat)
  | poisonedData (val : Nat)
  | abort
  | block (adit : Nat) (lanes : List Nat)
  | response (via : Nat) (words : List Nat)
  | unsupported (via : Nat)
  | pin (name : Nat) (level : Bool)
deriving DecidableEq, Repr

/-- The state of the module. -/
structure State where
  pending : List Instr
  regs : Store Word
  mem : List Host.Cell
  marks : Store Nat
  cycle : Nat
  ps : Nat
  sub : Nat
  wrote : List (Nat × Nat)
  raised : List (Nat × Nat × Bool)
  idleFrom : Nat
  findings : List Finding
  free : Nat
  fresh : Nat
  outbox : List Output
  crews : Store Crew
  drills : Store Drill
  stopes : Store StopeCtl
  shafts : Store Shaft
  dispatches : List Dispatch
  requeued : List Instance
  steps : List StepRec
  seqNo : Nat
  tickets : List Ticket
  serial : Nat
  born : Nat
  poisoned : List (StepId × Nat)
  pairs : List Pair
  saved : List SavedCtx
  lastShaft : Store Nat
  lastStope : Store Nat
  preempts : Store Nat
  skips : Store Skip
  hfTlb : List TlbEntry
  fid : Nat
  inval : Option Invalidation
  locks : List LockedSeq
  ages : Store PortAge
  corrections : Store (List Nat)
  tests : List RegionTest
  window : Bool
  hbms : Store HbmCtl
  hbmUsed : Bool
  spareRows : Store (List Nat)
  repairs : List (Nat × Nat)
  retired : List Nat
  waitGraph : List Nat
  sums : List SignalSum
  turns : List Nat
  waits : List (WaitKey × WaitFor)
  activity : Store Nat
  snapshot : Option Snapshot
  pack : Option Pack
  packNext : Option Pack
  levelNext : Option Nat
  inject : List QPkt
  adits : Store Adit
  arrived : List QPkt
  cpl : List CplEntry
  spareLanes : Store Nat
  heldFrame : Nat
  xfer : Nat
  buckets : List Bucket
  xfers : List Xfer
  riffles : List Riffle
  bcycle : Nat
  bgWin : Nat
  phases : PhaseCtl
  smelts : List Smelt
  whistle : Whistle
  power : Power
  lamp : Lamp
  foreman : Foreman
  port : HostPort
deriving DecidableEq, Repr

/-- The machine right after reset: nothing pending, every register at its table's reset value, nothing in memory. -/
def State.reset : State where
  pending := []
  regs := []
  mem := []
  marks := []
  cycle := 0
  ps := 0
  sub := 0
  wrote := []
  raised := []
  idleFrom := 0
  findings := []
  free := 0
  fresh := 0
  outbox := []
  crews := []
  drills := []
  stopes := []
  shafts := []
  dispatches := []
  requeued := []
  steps := []
  seqNo := 0
  tickets := []
  serial := 0
  born := 0
  poisoned := []
  pairs := []
  saved := []
  lastShaft := []
  lastStope := []
  preempts := []
  skips := []
  hfTlb := []
  fid := 0
  inval := none
  locks := []
  ages := []
  corrections := []
  tests := []
  window := false
  hbms := []
  hbmUsed := false
  spareRows := []
  repairs := []
  retired := []
  waitGraph := []
  sums := []
  turns := []
  waits := []
  activity := []
  snapshot := none
  pack := none
  packNext := none
  levelNext := none
  inject := []
  adits := []
  arrived := []
  cpl := []
  spareLanes := []
  heldFrame := 0
  xfer := 0
  buckets := []
  xfers := []
  riffles := []
  bcycle := 0
  bgWin := 0
  phases := ⟨[], [], false⟩
  smelts := []
  whistle := Whistle.idle
  power := Power.idle
  lamp := Lamp.idle
  foreman := Foreman.idle
  port := HostPort.idle

end Sys2Proof.Machine
end

