-- ==== Sys2Proof/Machine/Ops.lean ====
section
/-!
DEFINITION. The named operations over registers, events, memory, translation, rings, pit log items and tallies,
shared by every family of commands.
-/
namespace Sys2Proof.Machine

/-! ## Control registers (00 R5-R11) -/

/-- The register table row that holds an offset of the control space, if one is assigned.
(DEDUCED: notes/assumptions/7) -/
def regSpecOf (off : Nat) : Option RegSpec :=
  (regBlock off).find? fun r =>
    if r.stride = 0 then off = r.base
    else r.base ≤ off && (off - r.base) % r.stride = 0 && (off - r.base) / r.stride < r.count

/-- The reset value of a register (00 R10). -/
def regReset (off : Nat) : Word :=
  match regSpecOf off with
  | some r => BitVec.ofNat 32 ((r.fields.map fun f => f.reset * 2 ^ f.lo).foldl (· + ·) 0)
  | none => 0

/-- The value of a register. (DEDUCED: notes/assumptions/7) -/
def State.reg (s : State) (off : Nat) : Nat :=
  match Store.find s.regs off with
  | some w => w.toNat
  | none => (regReset off).toNat

/-- Set a register. -/
def State.setReg (s : State) (off v : Nat) : State :=
  let w : Word := BitVec.ofNat 32 v
  { s with regs := Store.put (decide (w = regReset off)) w s.regs off }

/-- A field of a register. -/
def State.fld (s : State) (off : Nat) (f : Fld) : Nat := bits (s.reg off) f.hi f.lo

/-- Is a one-bit field 1. -/
def State.flag (s : State) (off : Nat) (f : Fld) : Bool := s.fld off f = 1

/-- Replace bits [hi:lo] of a number. -/
def putBits (w hi lo v : Nat) : Nat := w - bits w hi lo * 2 ^ lo + v % 2 ^ (hi + 1 - lo) * 2 ^ lo

/-- Set a field of a register. -/
def State.setFld (s : State) (off : Nat) (f : Fld) (v : Nat) : State :=
  s.setReg off (putBits (s.reg off) f.hi f.lo v)

/-- Add to a counter, modulo 2^32. -/
def State.bumpN (s : State) (off n : Nat) : State := s.setReg off ((s.reg off + n) % 2 ^ 32)

/-- Add 1 to a counter, modulo 2^32. -/
def State.bump (s : State) (off : Nat) : State := s.bumpN off 1

/-- Add 1 to a counter when a condition holds. -/
def State.bumpIf (s : State) (c : Bool) (off : Nat) : State := if c then s.bump off else s

/-- Two registers as one 64-bit value. -/
def State.reg64 (s : State) (lo hi : Nat) : Nat := s.reg lo + s.reg hi * 2 ^ 32

/-- Set two registers from one 64-bit value. -/
def State.setReg64 (s : State) (lo hi v : Nat) : State := (s.setReg lo (v % 2 ^ 32)).setReg hi (v / 2 ^ 32)

/-- The value of a register at the start of the present cycle, for what takes a written value only in the cycles after the
write (02 R57, 03 R92, 05 R139, 06 R171). -/
def State.was (s : State) (off : Nat) : Nat :=
  match s.wrote.find? (·.1 = off) with
  | some e => e.2
  | none => s.reg off

/-- A field of a register at the start of the present cycle. -/
def State.fldWas (s : State) (off : Nat) (f : Fld) : Nat := bits (s.was off) f.hi f.lo

/-- Was a one-bit field 1 at the start of the present cycle. -/
def State.flagWas (s : State) (off : Nat) (f : Fld) : Bool := s.fldWas off f = 1

/-- Keep the value that a register had at the start of the present cycle, before it is written. -/
def State.keepWas (s : State) (off : Nat) : State :=
  if s.wrote.any (·.1 = off) then s else { s with wrote := s.wrote ++ [(off, s.reg off)] }

/-- Hardware sets bits of a W1C register (R10): a clear in the same cycle leaves them 1. Each set keeps whether all its bits
were 1 before. -/
def State.hwSet (s : State) (off mask : Nat) : State :=
  { s.setReg off (s.reg off ||| mask) with raised := s.raised ++ [(off, mask, decide (s.reg off &&& mask = mask))] }

/-- The bits of a register that hardware has set in the present cycle. -/
def State.setNow (s : State) (off : Nat) : Nat :=
  s.raised.foldl (fun m e => if e.1 = off then m ||| e.2.1 else m) 0

/-! ## Writing a register by its table row (00 R8, Table 0.1) -/

/-- What a field of a register holds after a write (Table 0.1), with the bits `held` that hardware has set in the same cycle. -/
def FieldSpec.written (f : FieldSpec) (old val held : Nat) : Nat :=
  let o := bits old f.hi f.lo
  let v := bits val f.hi f.lo
  match f.acc with
  | .rw | .rws => v
  | .w1c => o - (o &&& v) + (o &&& v &&& bits held f.hi f.lo)
  | .ro | .rov | .w1s => o
  | .rsv => 0

/-- Store a written value in a register: RW fields take it, W1C bits written 1 are cleared unless hardware sets them in the
same cycle, reserved bits stay 0. -/
def State.storeFields (s : State) (off val : Nat) : State :=
  match regSpecOf off with
  | none => s
  | some r => (s.keepWas off).setReg off
      ((r.fields.map fun f => f.written (s.reg off) val (s.setNow off) * 2 ^ f.lo).foldl (· + ·) 0)

/-- Does a write carry a non-zero value in reserved bits (00 R8). (DEDUCED: notes/assumptions/9) -/
def RegSpec.reservedHit (r : RegSpec) (val : Nat) : Bool := r.fields.any fun f => f.acc = .rsv && bits val f.hi f.lo ≠ 0

/-- A write with a non-zero value in reserved bits of an assigned register counts once in LMP_BAD_ACCESS_CNT (00 R8). -/
def State.noteReserved (s : State) (off val : Nat) : State :=
  s.bumpIf ((regSpecOf off).any fun r => r.reservedHit val) Reg.lmpBadAccessCnt

/-- Own node address (11 R296). -/
def State.node (s : State) : Nat := s.fld Reg.bnlNode Fld.bnlNodeNode

/-- The tally epoch in force (08 R230). -/
def State.epoch (s : State) : Nat := s.fld Reg.tlyEpoch Fld.tlyEpochCurrent

/-- The fleet frame number (17 R455). -/
def State.frame (s : State) : Nat := s.reg64 Reg.whsFrame0 Reg.whsFrame1

/-- A stope has worked: its activity counters count one (01 Table 1.2, 17 Table 17.2). (DESIGN CHOICE: notes/assumptions/110) -/
def State.active (s : State) (stope : Nat) : State :=
  { s with activity := Store.modify 0 s.activity stope (· + 1) }

/-- Something finds at an attempt that it has to wait: each cycle of waiting is counted when it ends. -/
def State.waitOn (s : State) (w : WaitKey) (f : WaitFor) : State :=
  { s with waits := (s.waits.filter fun x => x.1 ≠ w) ++ [(w, f)] }

/-- Something no longer waits. -/
def State.waitDone (s : State) (w : WaitKey) : State := { s with waits := s.waits.filter fun x => x.1 ≠ w }

/-- A fresh internal identifier. -/
def State.newId (s : State) : Nat × State := (s.fresh + 1, { s with fresh := s.fresh + 1 })

/-- A free value of the spec: uninterpreted bits, a new one each time. (DESIGN CHOICE: notes/assumptions/5) -/
def State.freeVal (s : State) : Nat × State := ((Config.freeBits s.free).toNat, { s with free := s.free + 1 })

/-- A quotient whose rounding the spec leaves open: exact where it is exact, else either neighbour.
(DESIGN CHOICE: notes/assumptions/68) -/
def State.openDiv (s : State) (n : Int) (d : Nat) : State × Int :=
  if d = 0 ∨ n % d = 0 then (s, n / d)
  else
    let r := s.freeVal
    (r.2, n / d + (r.1 % 2 : Nat))

/-- Send something out of the module. (DESIGN CHOICE: notes/assumptions/84) -/
def State.emit (s : State) (o : Output) : State := { s with outbox := s.outbox ++ [o] }

/-! ## Time (00 R13; 01 R24) -/

/-- The arithmetic clock of a frequency code in MHz (17 R460). -/
def clockMHz (code : Nat) : Nat := 800 + 25 * code

/-- The frequency code in force. -/
def State.freqCode (s : State) : Nat := s.fld Reg.whsFreq Fld.whsFreqCode

/-- Parts of a ps in which time is kept: the least common multiple of 32 to 48, so that the period of every setting of the clock
(01 R24) is a whole number of them. -/
def subUnit : Nat := (List.range 17).foldl (fun m k => Nat.lcm m (32 + k)) 1

/-- The period of the clock in parts of a ps (00 R13): 10^6 / (800 + 25 × code) ps. -/
def State.cycleSub (s : State) : Nat := 10 ^ 6 * subUnit / clockMHz s.freqCode

/-! ## Events (19 R505-R507) -/

/-- Send one MSI-X message to a vector: a masked vector sets its pending bit (R507). -/
def State.msix (s : State) (vec : Nat) : State :=
  if Store.get false s.port.open_ vec then s.emit (.msix vec)
  else { s with port := { s.port with waiting := Store.set false s.port.waiting vec true } }

/-- An event source raises its event (R506). -/
def State.raise (s : State) (e : Nat) : State :=
  let s' := s.hwSet Reg.lmpEventStat (2 ^ e)
  if !(s.reg Reg.lmpEventStat).testBit e && (s.reg Reg.lmpEventEn).testBit e then
    s'.msix (s.fld (Reg.lmpEventVec e) Fld.lmpEventVecVec)
  else s'

/-- Raise an event when a condition holds. -/
def State.raiseIf (s : State) (c : Bool) (e : Nat) : State := if c then s.raise e else s

/-! ## Records -/

/-- Build a little-endian record from fields (bytes, value), first field lowest. -/
def packFields : List (Nat × Nat) → Nat
  | [] => 0
  | (n, v) :: l => v % 2 ^ (8 * n) + 2 ^ (8 * n) * packFields l

/-- Bytes `[lo, lo + n)` of a little-endian record. -/
def getBytes (w lo n : Nat) : Nat := (w >>> (8 * lo)) % 2 ^ (8 * n)

/-! ## Memory (09 R238-R240, R253-R255) -/

/-- Base of the face memory of a stope in the device physical address map (Table 9.1). -/
def faceBase (stope : Nat) : Nat := 0x8100000000 + 0x400000 * stope

/-- Base of the stockpile of a level (Table 9.1). -/
def spBase (level : Nat) : Nat := 0x8000000000 + 0x10000000 * level

/-- Length of a face memory. -/
def faceSize : Nat := 0x300000

/-- The face offset of the post row (10 R269). -/
def postRow : Nat := 0x2FFFC0

/-- What a device physical address reaches (Table 9.1). -/
inductive PaKind where
  | hbm (stack : Nat)
  | stockpile (level : Nat)
  | face (stope : Nat)
  | control
  | host
  | cxl (port : Nat)
  | hole
deriving DecidableEq, Repr

/-- The stack of an HBM address under the interleave setting (R240). -/
def State.hbmStack (s : State) (pa : Nat) : Nat :=
  if s.fld Reg.hbmCtrl Fld.hbmCtrlInterleave = 0 then bits pa 14 12
  else if pa < 0x3000000000 then bits pa 13 12
  else 4 + bits (pa - 0x3000000000) 13 12

/-- Classify a device physical address (Table 9.1; CXL beyond the mapped capacity is a hole, 10 R291). -/
def State.paKind (s : State) (pa : Nat) : PaKind :=
  if pa < 0x6000000000 then .hbm (s.hbmStack pa)
  else if 0x8000000000 ≤ pa ∧ pa < 0x8006000000 then .stockpile 0
  else if 0x8010000000 ≤ pa ∧ pa < 0x8016000000 then .stockpile 1
  else if 0x8100000000 ≤ pa ∧ pa < 0x8100000000 + 0x400000 * 144 then
    (if (pa - 0x8100000000) % 0x400000 < 0x300000 then .face ((pa - 0x8100000000) / 0x400000) else .hole)
  else if 0x8200000000 ≤ pa ∧ pa < 0x8204000000 then .control
  else if 0x100000000000 ≤ pa ∧ pa < 0x200000000000 then .host
  else if 0x200000000000 ≤ pa ∧ pa < 0x240000000000 then
    let p := (pa - 0x200000000000) / 0x20000000000
    let cap := s.fld (Reg.cxlPortStat p) Fld.cxlPortStatCap * 0x10000000
    if (pa - 0x200000000000) % 0x20000000000 < cap then .cxl p else .hole
  else .hole

/-- What an unlisted byte of memory reads as: the zero of R484's fill. (DESIGN CHOICE: notes/assumptions/6) -/
def memDefault : Byte := 0

/-- One byte at a device physical address. (DESIGN CHOICE: notes/assumptions/6) -/
def State.byte (s : State) (pa : Nat) : Byte := Store.get memDefault s.mem pa

/-- `n` bytes from a device physical address, little-endian (00 R7). -/
def State.readLE (s : State) (pa : Nat) : Nat → Nat
  | 0 => 0
  | n + 1 => (s.byte pa).toNat + 256 * State.readLE s (pa + 1) n

/-- Write the enabled bytes of a little-endian value. -/
def memWrite : List Host.Cell → Nat → Nat → Nat → Nat → List Host.Cell
  | m, _, 0, _, _ => m
  | m, pa, n + 1, v, en =>
    memWrite (if en % 2 = 1 then Store.set memDefault m pa (BitVec.ofNat 8 v) else m) (pa + 1) n (v / 256) (en / 2)

/-- Byte enables for all of `n` bytes. -/
def allBytes (n : Nat) : Nat := 2 ^ n - 1

/-- The syndrome of the poison check pattern (R255). -/
def poisonSyndrome : Nat := 0x7F

/-- Does a range hold a word marked uncorrectable. -/
def State.marked (s : State) (pa n : Nat) : Bool :=
  s.marks.any fun e => e.1 * 4 < pa + n && pa < e.1 * 4 + 4

/-- Mark a 32-bit word as uncorrectable with a syndrome. (DESIGN CHOICE: notes/assumptions/42) -/
def State.mark (s : State) (pa syn : Nat) : State := { s with marks := Store.put false syn s.marks (pa / 4) }

/-- A read meets an uncorrectable word of the module (R255): counted, its address recorded, a memory event raised. Poison of host
or CXL memory is no word of the module's code. -/
def State.noteUe (s : State) (pa syn : Nat) : State :=
  let wa := pa / 4 * 4
  match s.paKind pa with
  | .cxl _ | .host => s
  | _ =>
  let s := match s.paKind pa with
    | .hbm k =>
      let c := Store.get HbmCtl.idle s.hbms k
      let s := (s.bump (Reg.hbmUeCnt k)).setReg (Reg.hbmUeAddr k) (wa / 64)
      let top := (wa / 64).testBit 32
      let s := if c.latched.isSome then s else s.setReg (Reg.hbmUeAddrTop k) top.toNat
      { s with hbms := Store.set HbmCtl.idle s.hbms k { c with ueTop := top } }
    | .face st =>
      let s := (s.bump (Reg.memFaceUeCnt st)).setReg64 Reg.memUeAddr0 Reg.memUeAddr1 wa
      s.setReg Reg.memUeInfo (st * 2 ^ 16 + syn % 128)
    | .stockpile l =>
      let s := (s.bump (Reg.memSpUeCnt l)).setReg64 Reg.memUeAddr0 Reg.memUeAddr1 wa
      s.setReg Reg.memUeInfo (1 * 2 ^ 24 + 0xFF * 2 ^ 16 + syn % 128)
    | _ => s
  s.raiseIf (s.flag Reg.memCtrl Fld.memCtrlUeEvent) 4

/-- Note every marked word of a range as read. A CXL.mem read, of 64 bytes, that returns poison counts once at its port (10 Table
10.3, R294). -/
def State.noteMarks (s : State) (pa n : Nat) : State :=
  let hit := s.marks.filter fun e => e.1 * 4 < pa + n && pa < e.1 * 4 + 4
  let s := hit.foldl (fun s e => s.noteUe (e.1 * 4) e.2) s
  ((hit.map fun e => e.1 / 16).eraseDups).foldl (fun s l => match s.paKind (64 * l) with
    | .cxl p => s.bump (Reg.cxlPoisonCnt p)
    | _ => s) s

/-- Replace the bytes of marked words in a value read from `[pa, pa + n)` by free values: the spec states no data for
a word delivered with a poison mark (R255). (DESIGN CHOICE: notes/assumptions/39) -/
def State.freeWords (s : State) (pa n v : Nat) : Store Nat → State × Nat
  | [] => (s, v)
  | (k, _) :: l =>
    let lo := max pa (4 * k) - pa
    let hi := min (pa + n) (4 * k + 4) - pa
    if 4 * k < pa + n ∧ pa < 4 * k + 4 then
      let r := s.freeVal
      State.freeWords r.2 pa n (v - getBytes v lo (hi - lo) * 2 ^ (8 * lo) + r.1 % 2 ^ (8 * (hi - lo)) * 2 ^ (8 * lo)) l
    else State.freeWords s pa n v l

/-- Read `n` bytes: the value, with free bytes for marked words, and whether it holds a marked word (R255).
(DESIGN CHOICE: notes/assumptions/39; DESIGN CHOICE: notes/assumptions/46) -/
def State.readMem (s : State) (pa n : Nat) : State × Nat × Bool :=
  if s.marked pa n then
    let r := ((s.noteMarks pa n).bumpIf (s.paKind pa = .host) Reg.pciPoisonCnt).freeWords pa n (s.readLE pa n) s.marks
    (r.1, r.2, true)
  else (s, s.readLE pa n, false)

/-- The enables of a write that cover byte `i` of the word at `wa`. -/
def wordEnables (pa n en wa : Nat) : List Bool :=
  (List.range 4).map fun i => pa ≤ wa + i && wa + i < pa + n && en.testBit (wa + i - pa)

/-- Write to memory (R241, R255): a partial write of a marked word leaves the poison check pattern in it, a write of
all its bytes replaces it. -/
def State.writeMem (s : State) (pa n v en : Nat) : State :=
  let hit := s.marks.filter fun e => (wordEnables pa n en (e.1 * 4)).any (· = true)
  let s := hit.foldl (fun s e =>
    if (wordEnables pa n en (e.1 * 4)).all (· = true) then { s with marks := Store.erase s.marks e.1 }
    else (s.noteUe (e.1 * 4) e.2).mark (e.1 * 4) poisonSyndrome) s
  { s with mem := memWrite s.mem pa n v en }

/-- Write the poison check pattern into every word of a range (R255, 10 R289). -/
def State.poisonMem (s : State) (pa n : Nat) : State :=
  (List.range ((pa + n + 3) / 4 - pa / 4)).foldl (fun s i => s.mark (pa / 4 * 4 + 4 * i) poisonSyndrome) s

/-- Face memory of a stope, by face offset. -/
def State.faceRead (s : State) (stope off n : Nat) : Nat := s.readLE (faceBase stope + off) n

/-- Write face memory of a stope, by face offset. -/
def State.faceWrite (s : State) (stope off n v en : Nat) : State := s.writeMem (faceBase stope + off) n v en

/-- Refuse an access (R239). -/
def State.refuse (s : State) : State := s.bump Reg.memUnmappedCnt

/-- May an agent reach `n` bytes at a physical address (R239): faces only from their own stope skip. -/
def State.reachable (s : State) (own : Option Nat) (pa n : Nat) : Bool :=
  let ok := fun a => match s.paKind a with
    | .hole => false
    | .face st => own = some st
    | _ => true
  ok pa && ok (pa + n - 1)

/-! ## Translation (10 R282-R285) -/

/-- A stop cause of Table 10.6, or a value. -/
inductive Res (α : Type) where
  | ok (a : α)
  | stop (cause : Nat)
deriving DecidableEq, Repr

/-- The hidden state of a skip. -/
def State.skip (s : State) (k : Nat) : Skip := Store.get Skip.idle s.skips k

/-- Set the hidden state of a skip. -/
def State.setSkip (s : State) (k : Nat) (x : Skip) : State :=
  { s with skips := Store.set Skip.idle s.skips k x }

/-- The stope whose face a skip may address. -/
def ownStope (skip : Option Nat) : Option Nat :=
  match skip with
  | some k => if k < 144 then some k else none
  | none => none

/-- Is a table entry well formed at its level (Table 10.5). -/
def entryOk (level e : Nat) : Bool :=
  let leaf := e.testBit 2
  bits e 63 48 = 0 && bits e 7 3 = 0 &&
  (match level with
   | 0 => leaf && bits e 15 8 = 0
   | 1 => if leaf then bits e 20 8 = 0 else true
   | _ => !leaf && bits e 11 8 = 0)

/-- Record that an HBM access has completed (09 R240). -/
def State.touch (s : State) (pa : Nat) : State :=
  match s.paKind pa with
  | .hbm _ => { s with hbmUsed := true }
  | _ => s

/-- Walk the table from a level down (R282): the translation, or the cause of the stop and whether the physical address of a table
was refused; and the entries read. A marked entry has no data to follow: it is a bad entry. (DESIGN CHOICE: notes/assumptions/106) -/
def State.walk (s : State) (va table : Nat) (w : Bool) : Nat → Res TlbEntry × Bool × List Nat
  | 0 => (.stop 3, false, [])
  | level + 1 =>
    let sh := 9 * (level - 1) + 21
    let idx := if level = 0 then bits va 20 16 else bits va (sh + 8) sh
    let ea := table + 8 * idx
    if !(s.reachable none ea 8) then (.stop 4, true, [])
    else
      let e := s.readLE ea 8
      if s.marked ea 8 then (.stop 3, false, [ea])
      else if !e.testBit 0 then (.stop 1, false, [ea])
      else if !entryOk level e then (.stop 3, false, [ea])
      else
        let w := w && e.testBit 1
        let addr := bits e 47 8 * 256
        if level = 0 then (.ok ⟨va / 2 ^ 16, 16, addr, w⟩, false, [ea])
        else if level = 1 && e.testBit 2 then (.ok ⟨va / 2 ^ 21, 21, addr, w⟩, false, [ea])
        else
          let r := State.walk s va addr w level
          (r.1, r.2.1, ea :: r.2.2)

/-- The entries of a walk are read (09 R240, R255). -/
def State.readEntries (s : State) (l : List Nat) : State :=
  l.foldl (fun s a => (if s.marked a 8 then s.noteMarks a 8 else s).touch a) s

/-- Look a translation up in a TLB. -/
def tlbFind (t : List TlbEntry) (va : Nat) : Option TlbEntry := t.find? fun e => va / 2 ^ e.shift = e.va

/-- Keep the newest `n` entries after adding one. -/
def tlbAdd (n : Nat) (t : List TlbEntry) (e : TlbEntry) : List TlbEntry :=
  let t := t.filter (· ≠ e) ++ [e]
  t.drop (t.length - n)

/-- Cache a translation in the skip's TLB and in the headframe TLB (R283). (DESIGN CHOICE: notes/assumptions/45) -/
def State.tlbPut (s : State) (k : Option Nat) (e : TlbEntry) : State :=
  let s := { s with hfTlb := tlbAdd 8192 s.hfTlb e }
  match k with
  | some k => s.setSkip k { s.skip k with tlb := tlbAdd (if k < 144 then 64 else 256) (s.skip k).tlb e }
  | none => s

/-- Translate a device virtual address for a read or a write (R282, R283): the physical address or a stop cause. -/
def State.xlate (s : State) (k : Option Nat) (va : Nat) (write : Bool) : State × Res Nat :=
  if !s.flag Reg.skpCtrl Fld.skpCtrlXlate then
    if va < 2 ^ 48 then
      if s.reachable (ownStope k) va 1 then (s, .ok va) else (s.refuse, .stop 4)
    else (s.refuse, .stop 4)
  else if 2 ^ 57 ≤ va then (s.refuse, .stop 4)
  else
    let cached := match k with
      | some k => (tlbFind (s.skip k).tlb va).orElse fun _ => tlbFind s.hfTlb va
      | none => tlbFind s.hfTlb va
    let r := match cached with
      | some e => (Res.ok e, false, [])
      | none => s.walk va (s.fld Reg.skpPtRoot0 Fld.skpPtRootRootLo * 4096 + s.reg Reg.skpPtRoot1 * 2 ^ 32) true 5
    let s := s.readEntries r.2.2
    match r.1 with
    | .stop c => (if r.2.1 then s.refuse else s, .stop c)
    | .ok e =>
      if write && !e.w then (s, .stop 2)
      else
        let pa := e.pa + va % 2 ^ e.shift
        if s.reachable (ownStope k) pa 1 then (s.tlbPut k e, .ok pa) else (s.refuse, .stop 4)

/-- Translate a span, page by page: the physical runs (address and length). -/
def State.xlateSpan (s : State) (k : Option Nat) (va n : Nat) (write : Bool) : Nat → State × Res (List (Nat × Nat))
  | 0 => (s, .ok [])
  | fuel + 1 =>
    if n = 0 then (s, .ok [])
    else
      let c := min n (2 ^ 16 - va % 2 ^ 16)
      match s.xlate k va write with
      | (s, .stop e) => (s, .stop e)
      | (s, .ok pa) =>
        match State.xlateSpan s k (va + c) (n - c) write fuel with
        | (s, .stop e) => (s, .stop e)
        | (s, .ok l) => (s, .ok ((pa, c) :: l))

/-- Pages that a span of `n` bytes can touch. -/
def spanPages (n : Nat) : Nat := n / 2 ^ 16 + 2

/-! ### The control space (00 R8; 18 R486; 19 R501, R502) -/

/-- The domain of Table 18.3 that owns an offset of the control space; 0 for RST, LMP, the cages and no block.
(DEDUCED: notes/assumptions/73) -/
def offDomain (off : Nat) : Nat :=
  match off / 0x100000 with
  | 2 => 2
  | 3 | 4 | 17 | 18 | 20 | 21 => 1
  | 5 | 6 | 7 | 8 | 9 => 4
  | 10 => 3
  | 11 | 14 | 15 | 16 | 19 => 5
  | 12 | 13 => 6
  | _ => 0

/-- Is a domain of Table 18.3 released. -/
def State.up (s : State) (d : Nat) : Bool := d ≤ s.lamp.released

/-- Is the block that owns an offset released (18 R486). -/
def State.blockUp (s : State) (off : Nat) : Bool := s.up (offDomain off)

/-- Is a block of Table 18.4 ON (18 R488). -/
def State.blockOn (s : State) (b : Nat) : Bool := s.fld (Reg.rstBlkStat b) Fld.rstBlkStatState = 0

/-- The control space in the device physical address map (Table 9.1). -/
def controlBase : Nat := 0x8200000000

/-- The first offset of the cages and the first past them (19 Table 19.3). -/
def cageBase : Nat := 0x2000000
/-- The first offset past the cages. -/
def cageEnd : Nat := 0x2010000

/-- Reading HBM_UE_ADDR_TOP ends the latch of its stack (09 R265): the next read shows the last line's top bit. -/
def State.unlatchTop (s : State) (off : Nat) : State :=
  match (List.range 8).find? fun k => off = Reg.hbmUeAddrTop k with
  | some k =>
    let c := Store.get HbmCtl.idle s.hbms k
    { s with hbms := Store.set HbmCtl.idle s.hbms k { c with latched := none } }.setReg (Reg.hbmUeAddrTop k) c.ueTop.toNat
  | none => s

/-- What a read of a register shows. CRW_IDLE_CNT[s] counts the cycles in which no crew of the stope was ready (06 R164, Table 6.7):
a stope issues at most one bundle a cycle, so they are the cycles ended since the levels were released, less those in which a
bundle issued or a duplicate held one back. (DESIGN CHOICE: notes/assumptions/21) -/
def State.shown (s : State) (off : Nat) : Nat :=
  match (List.range 144).find? fun k => off = Reg.crwIdleCnt k with
  | some k =>
    let now := (s.turns.contains k).toNat + (decide (s.cycle < (Store.get StopeCtl.idle s.stopes k).stole)).toNat
    ((s.cycle - s.idleFrom) % 2 ^ 32 + 2 ^ 33 + now - s.reg (Reg.crwBundleCnt k) - s.reg (Reg.slcDupStealCnt k)) % 2 ^ 32
  | none => s.reg off

/-- Read a register: reading HBM_UE_ADDR latches the matching top bit (09 R265); an unassigned offset reads 0 and counts
(00 R8); a register of a block not released reads all ones (18 R486). -/
def State.readReg (s : State) (off : Nat) : State × Nat :=
  if !s.blockUp off then (s, 0xFFFFFFFF)
  else if (regSpecOf off).isNone then (s.bump Reg.lmpBadAccessCnt, 0)
  else
    let s' := match (List.range 8).find? fun k => off = Reg.hbmUeAddr k with
      | some k =>
        let c := Store.get HbmCtl.idle s.hbms k
        { s with hbms := Store.set HbmCtl.idle s.hbms k { c with latched := some c.ueTop } }.setReg (Reg.hbmUeAddrTop k)
          c.ueTop.toNat
      | none => s.unlatchTop off
    (s', s.shown off)

/-- A read of `n` bytes at an offset of the control space (19 R501, R502). -/
def State.ctlRead (s : State) (off n : Nat) : State × Nat :=
  if cageBase ≤ off ∧ off + n ≤ cageEnd then (s, s.readLE (controlBase + off) n)
  else if !s.blockUp off then (s, allBytes (8 * n))
  else if n = 4 ∧ off % 4 = 0 then s.readReg off
  else if n = 8 ∧ off % 8 = 0 then
    let a := s.readReg off
    let b := a.1.readReg (off + 4)
    (b.1, a.2 + 2 ^ 32 * b.2)
  else (s.bump Reg.lmpBadAccessCnt, 0)

/-- Read physical runs as one little-endian number: the value and whether it holds a marked word. -/
def State.readRuns (s : State) : List (Nat × Nat) → State × Nat × Bool
  | [] => (s, 0, false)
  | (pa, n) :: l =>
    let a := match s.paKind pa with
      | .control => let r := s.ctlRead (pa - controlBase) n; (r.1, r.2, false)
      | _ => s.readMem pa n
    let b := State.readRuns (a.1.touch pa) l
    (b.1, a.2.1 + 2 ^ (8 * n) * b.2.1, a.2.2 || b.2.2)

/-- The requests of 64 bytes that runs make to a CXL port (10 Table 10.3). -/
def State.cxlRequests (s : State) (p : Nat) (l : List (Nat × Nat)) : Nat :=
  (l.map fun r => if s.paKind r.1 = .cxl p then (r.1 + r.2 + 63) / 64 - r.1 / 64 else 0).foldl (· + ·) 0

/-- A CXL port that runs reach and that is not up (10 R292). -/
def State.cxlDown (s : State) (l : List (Nat × Nat)) : Option Nat :=
  [0, 1].find? fun p => s.cxlRequests p l ≠ 0 && decide (s.fld (Reg.cxlPortStat p) Fld.cxlPortStatState ≠ 2)

/-- Requests to a CXL port end with cause 6 (10 R292). -/
def State.cxlEnded (s : State) (p : Nat) (l : List (Nat × Nat)) : State := s.bumpN (Reg.cxlErrCnt p) (s.cxlRequests p l)

/-- The physical runs of a span that an engine accesses, or a stop cause: those of the translation, or 6 where a CXL port that it
reaches is not up (10 R285, R292). -/
def State.devRuns (s : State) (k : Option Nat) (va n : Nat) (write : Bool) : State × Res (List (Nat × Nat)) :=
  match s.xlateSpan k va n write (spanPages n) with
  | (s, .stop e) => (s, .stop e)
  | (s, .ok l) =>
    match s.cxlDown l with
    | some p => (s.cxlEnded p l, .stop 6)
    | none => (s, .ok l)

/-- An engine reads `n` bytes at a device virtual address: the value and whether it holds a marked word. -/
def State.devRead (s : State) (k : Option Nat) (va n : Nat) : State × Res (Nat × Bool) :=
  match s.devRuns k va n false with
  | (s, .stop e) => (s, .stop e)
  | (s, .ok l) =>
    let r := s.readRuns l
    (r.1, .ok r.2)

/-- An engine's write to the control space: it is posted, and performed by the next tick.
(DEDUCED: notes/assumptions/8) -/
def State.postControl (s : State) (off n v : Nat) : State :=
  { s with port := { s.port with posted := s.port.posted ++ [(off, n, v)] } }

/-- Write physical runs with enables. -/
def State.writeRuns (s : State) : List (Nat × Nat) → Nat → Nat → State
  | [], _, _ => s
  | (pa, n) :: l, v, en =>
    let s := match s.paKind pa with
      | .control => s.postControl (pa - controlBase) n (v % 2 ^ (8 * n))
      | _ => (s.writeMem pa n (v % 2 ^ (8 * n)) (en % 2 ^ n)).touch pa
    State.writeRuns s l (v / 2 ^ (8 * n)) (en / 2 ^ n)

/-- An engine writes `n` bytes at a device virtual address. -/
def State.devWrite (s : State) (k : Option Nat) (va n v : Nat) : State × Res Unit :=
  match s.devRuns k va n true with
  | (s, .stop e) => (s, .stop e)
  | (s, .ok l) => (s.writeRuns l v (allBytes n), .ok ())

/-- A bit of LMP_LAMP_CAUSE is set, which raises source 17 (19 Table 19.4). -/
def State.lampCause (s : State) (f : Fld) : State := (s.hwSet Reg.lmpLampCause (2 ^ f.lo)).raise 17

/-! ## Rings (04 R117) -/

/-- The registers of a record ring. -/
structure Ring where
  base0 : Nat
  base1 : Nat
  size : Nat
  head : Nat
  tail : Nat
  drop : Nat

/-- Write a record of `n` bytes at the head of a ring, or drop it and count it (R117). -/
def State.ringPush (s : State) (r : Ring) (enabled : Bool) (n v : Nat) : State :=
  let size := s.reg r.size
  let head := s.reg r.head
  if !enabled || size ≤ 1 || (head + 1) % size = s.reg r.tail % size then s.bump r.drop
  else
    match s.devWrite none (s.reg64 r.base0 r.base1 + n * head) n v with
    | (s, .stop _) => s.bump r.drop
    | (s, .ok _) => s.setReg r.head ((head + 1) % size)

/-- The drill's exception ring. -/
def ringDrill : Ring :=
  ⟨Reg.drlExcqBase0, Reg.drlExcqBase1, Reg.drlExcqSize, Reg.drlExcqHead, Reg.drlExcqTail, Reg.drlExcqDropCnt⟩
/-- The skip ring. -/
def ringSkip : Ring :=
  ⟨Reg.crwSkipqBase0, Reg.crwSkipqBase1, Reg.crwSkipqSize, Reg.crwSkipqHead, Reg.crwSkipqTail, Reg.crwSkipqDropCnt⟩
/-- The fault ring. -/
def ringFault : Ring :=
  ⟨Reg.skpFltqBase0, Reg.skpFltqBase1, Reg.skpFltqSize, Reg.skpFltqHead, Reg.skpFltqTail, Reg.skpFltqDropCnt⟩
/-- The phase ring. -/
def ringPhase : Ring :=
  ⟨Reg.smlPhaseqBase0, Reg.smlPhaseqBase1, Reg.smlPhaseqSize, Reg.smlPhaseqHead, Reg.smlPhaseqTail,
   Reg.smlPhaseqDropCnt⟩

/-! ## Steps and pit log items (08 R214, R215; 15 R429) -/

/-- A begun step. -/
def State.step? (s : State) (id : StepId) : Option StepRec := s.steps.find? (·.id = id)

/-- Change the record of a step. -/
def State.modStep (s : State) (id : StepId) (f : StepRec → StepRec) : State :=
  { s with steps := s.steps.map fun r => if r.id = id then f r else r }

/-- Is the entry of a step not yet written. -/
def StepRec.unwritten (r : StepRec) : Bool := r.state = .begun

/-- Does a step still stand between its begin and its seal (08 R214): blocked steps too. -/
def StepRec.unsealed (r : StepRec) : Bool := r.state = .begun || r.state = .blocked

/-- Add an item to an entry: past 65,535 items it is dropped and sets SEAL in the last item kept (R429). -/
def StepRec.addItem (r : StepRec) (it : Item) : StepRec × Bool :=
  if r.items.length < 65535 then ({ r with items := r.items ++ [it] }, true)
  else ({ r with dropSeal := true }, false)

/-- Report an item for a step (R429): to its own entry, late to the oldest open one, or dropped. -/
def State.report (s : State) (id : StepId) (it : Item) : State :=
  let put := fun (s : State) (r : StepRec) (it : Item) =>
    match r.addItem it with
    | (r', ok) => (s.modStep r.id fun _ => r').bumpIf (!ok) Reg.plgItemDropCnt
  if id.seq ≠ s.seqNo then s.bump Reg.plgItemDropCnt
  else match s.step? id with
    | some r =>
      if r.unwritten then put s r it
      else match s.steps.find? (fun r => r.id.seq = s.seqNo && r.unwritten) with
        | some o => put s o { it with late := true }
        | none => s.bump Reg.plgItemDropCnt
    | none =>
      match s.steps.find? (fun r => r.id.seq = s.seqNo && r.unwritten) with
      | some o => put s o { it with late := true }
      | none => s.bump Reg.plgItemDropCnt

/-! ## Tallies and waits (08 R225-R230) -/

/-- The count of a tally. -/
def State.tally (s : State) (n : Nat) : Nat := s.reg (Reg.tlyCount n)

/-- Has the end of the present cycle reached the deadline of a wait (07 R200): the issue cycle + T, or the cycle of the T-th
frame boundary. -/
def CrewWait.due (w : CrewWait) (now : Nat) : Bool :=
  w.timeout ≠ 0 && (if w.frames then w.left = 0 else w.since + w.timeout ≤ now)

/-- A wait is judged at the end of a cycle (R227, R231): the first count that reaches its threshold satisfies it; in its
deadline cycle it times out otherwise, and blocks the seal as CRW_CTRL.SKIP_SEAL stands in that cycle. -/
def CrewWait.judge (w : CrewWait) (count now : Nat) (blocks : Bool) : CrewWait :=
  if w.sat.isSome || w.late.isSome then w
  else if w.thresh ≤ count then { w with sat := some count }
  else if w.due now then { w with late := some (count, blocks) }
  else w

/-- The WAIT tally and threshold of a command, when WAIT = 1 (Table 8.1). -/
def Command.waitOn (c : Command) : Option (Nat × Nat) :=
  if (getBytes c.raw 1 1).testBit 0 then some (getBytes c.raw 2 2, getBytes c.raw 4 4) else none

/-- The wait of a crew is judged at the end of a cycle. -/
def State.judgeCrew (s : State) (c : Crew) : Crew :=
  match c.wait with
  | some w => { c with wait := some (w.judge (s.tally w.tally) s.cycle (s.flagWas Reg.crwCtrl Fld.crwCtrlSkipSeal)) }
  | none => c

/-- The wait of a shaft's first decoded command is judged at the end of a cycle (R227). -/
def State.judgeShaft (s : State) (h : Shaft) : Shaft :=
  match h.decoded with
  | c :: l =>
    match c.waitOn with
    | some (t, th) => if th ≤ s.tally t then { h with decoded := { c with met := true } :: l } else h
    | none => h
  | [] => h

/-- A wait that is switched out is judged at the end of a cycle (R227, 06 R169): it has no deadline, since its timeout starts
afresh on the resume (07 R201). -/
def State.judgeSaved (s : State) (x : SavedCtx) : SavedCtx :=
  match x.wait with
  | some w => if w.thresh ≤ s.tally w.tally then { x with ready := true } else x
  | none => x

/-- Every wait is judged at the end of a cycle (R227, R231). -/
def State.judgeWaits (s : State) : State :=
  { s with crews := s.crews.map fun e => (e.1, s.judgeCrew e.2)
           shafts := s.shafts.map fun e => (e.1, s.judgeShaft e.2)
           saved := s.saved.map fun x => s.judgeSaved x }

/-- The sets and adds that a tally has met in the present cycle (R226). -/
def State.sumOf (s : State) (n : Nat) : SignalSum := (s.sums.find? fun x => x.tally = n).getD ⟨n, 0, 0⟩

/-- Apply one signal to a tally (R226): of the signals of one cycle every set is applied first, the largest winning, and
then every add. -/
def State.signal (s : State) (n : Nat) (set : Bool) (v : Nat) : State :=
  let x := s.sumOf n
  let y : SignalSum := if set then { x with top := max x.top (v % 2 ^ 32) } else { x with sum := x.sum + v }
  let t := if set then (y.top + x.sum) % 2 ^ 32 else (s.tally n + v) % 2 ^ 32
  { s.setReg (Reg.tlyCount n) t with sums := s.sums.filter (fun z => z.tally ≠ n) ++ [y] }

/-- Is the window of a tally enabled for remote signals (R229). -/
def State.remoteWindow (s : State) (n : Nat) : Bool :=
  let i := n / 1024
  if i < 32 then (s.reg Reg.tlyRemoteEn0).testBit i else (s.reg Reg.tlyRemoteEn1).testBit (i - 32)

/-- A remote signal arrives (R229). -/
def State.remoteSignal (s : State) (epoch n : Nat) (set : Bool) (v : Nat) : State :=
  if epoch ≠ s.epoch then s.bump Reg.tlyStaleCnt
  else if !s.remoteWindow n then s.bump Reg.tlyRemoteDropCnt
  else s.signal n set v

/-- An empty packet from this module. (DESIGN CHOICE: notes/assumptions/86) -/
def State.newPacket (s : State) (dst cls kind : Nat) : Packet :=
  { dst, cls, half := false, esc := false, mcast := false,
    repoch := s.fld Reg.bnlRouteStat Fld.bnlRouteStatCurrent, src := s.node, kind, hops := 0, plen := 0,
    last := false, prov := false, poison := false, rsig := false, tepoch := s.epoch, xfer := 0, addr := 0,
    count := 0, rtally := 0, ticket := 0, payload := 0 }

/-- Inject a packet at this module's router (11 R303). (DEDUCED: notes/assumptions/53) -/
def State.send (s : State) (p : Packet) : State :=
  { s with fresh := s.fresh + 1, inject := s.inject ++ [⟨p, s.fresh + 1, none, none, false, none, false⟩] }

/-- A fresh transfer identifier (11 Table 11.3). -/
def State.newXfer (s : State) : Nat × State := (s.xfer, { s with xfer := (s.xfer + 1) % 2 ^ 32 })

/-- Signal a tally named in the layout of R198: locally, to this module's own node, or by a kibble on G0 (R229). -/
def State.signalNamed (s : State) (target : Nat) (set : Bool) (v step : Nat) : State :=
  let n := bits target 15 0
  let nd := bits target 33 16
  if !target.testBit 34 then s.signal n set v
  else if nd = s.node then s.remoteSignal s.epoch n set v
  else
    s.send { s.newPacket nd 0 2 with
      plen := 16
      payload := packFields [(2, n), (4, v), (1, set.toNat), (8, step), (1, s.epoch)] }

end Sys2Proof.Machine
end

