-- ==== Sys2Proof/Machine/Banks.lean ====
section
/-!
DEFINITION. Banks, rows, regions on their spare buffers, locked sequences and the lines of the HBM atomic units (09 R241-R249,
R257): what holds an address, and holding it.
-/
namespace Sys2Proof.Machine

/-- Base of a banked memory in the device physical map. -/
def memBase : BankMem → Nat
  | .face st => faceBase st
  | .stockpile l => spBase l

/-- The bank of an offset (R241, R242). -/
def bankOf (m : BankMem) (off : Nat) : Nat :=
  match m with
  | .face _ => bits off 10 6
  | .stockpile _ => bits off 13 6

/-- The row of an offset within its bank (R241, R242). -/
def rowOf (m : BankMem) (off : Nat) : Nat :=
  match m with
  | .face _ => bits off 21 11
  | .stockpile _ => bits off 26 14

/-- The offset of a row of a bank (R241, R242). -/
def rowBase (m : BankMem) (bank row : Nat) : Nat :=
  match m with
  | .face _ => 2048 * row + 64 * bank
  | .stockpile _ => 16384 * row + 64 * bank

/-- Regions of 64 rows in a bank (R257). -/
def bankRegions : BankMem → Nat
  | .face _ => 24
  | .stockpile _ => 96

/-- The test region of an offset (R257). -/
def regionOf (m : BankMem) (off : Nat) : Nat := bankRegions m * bankOf m off + rowOf m off / 64

/-- The memory as the background engine tests it. -/
def testOf : BankMem → TestMem
  | .face st => .face st
  | .stockpile l => .stockpile l

/-- Is row `row` of its region on the spare buffer in this test (R257): from its copy in to its copy back. -/
def RegionTest.redirects (t : RegionTest) (row : Nat) : Bool :=
  match t.phase with
  | .copyIn => row < t.pos
  | .copyBack => t.pos ≤ row
  | _ => true

/-- Is the row of an offset on a spare buffer (R257, R259). -/
def State.redirected (s : State) (m : BankMem) (off : Nat) : Bool :=
  s.tests.any fun t => t.mem = testOf m && t.region = regionOf m off && t.redirects (rowOf m off % 64)

/-- The number of the spare buffer of a region, beside the numbers of the banks. -/
def bufferOf (region : Nat) : Nat := 65536 + region

/-- What serves an offset: its bank, or the spare buffer of its region (R257). -/
def State.unitOf (s : State) (m : BankMem) (off : Nat) : Nat :=
  if s.redirected m off then bufferOf (regionOf m off) else bankOf m off

/-- What serves a span of a memory, row by row. -/
def State.spanUnits (s : State) (m : BankMem) (off n : Nat) : List Nat :=
  ((List.range ((off + n + 63) / 64 - off / 64)).map fun k => s.unitOf m (off / 64 * 64 + 64 * k)).eraseDups

/-- Does a locked sequence still hold its banks (R247): until it has ended, or for its cycles when it was applied at once. -/
def State.holds (s : State) (l : LockedSeq) : Bool := l.op.isSome || decide (s.cycle < l.since + l.cycles)

/-- Is a bank or a buffer held by a locked sequence (R247). -/
def State.bankLocked (s : State) (m : BankMem) (unit : Nat) : Bool :=
  s.locks.any fun l => l.mem = m && s.holds l && l.banks.contains unit

/-- Does an HBM atomic unit hold a 64-byte line (R249). -/
def State.lineHeld (s : State) (line : Nat) : Bool :=
  s.hbms.any fun e => e.2.atomic.any fun a => a.1 = line && decide (s.cycle < a.2)

/-- Is a 64-byte line held by a locked sequence or an atomic unit: every other access to it waits (R247, R249). -/
def State.heldLine (s : State) (line : Nat) : Bool :=
  let pa := 64 * line
  match s.paKind pa with
  | .face st => s.bankLocked (.face st) (s.unitOf (.face st) (pa - faceBase st))
  | .stockpile l => s.bankLocked (.stockpile l) (s.unitOf (.stockpile l) (pa - spBase l))
  | .hbm _ => s.lineHeld line
  | _ => false

/-- Is a byte of a physical range held. -/
def State.heldAt (s : State) (pa n : Nat) : Bool :=
  (!s.locks.isEmpty || s.hbms.any fun e => !e.2.atomic.isEmpty) &&
    (List.range ((pa + n + 63) / 64 - pa / 64)).any fun k => s.heldLine (pa / 64 + k)

/-- Is a byte of physical runs held. -/
def State.heldRuns (s : State) (l : List (Nat × Nat)) : Bool := l.any fun r => s.heldAt r.1 r.2

/-- Cycles of a lode-add at an offset (Table 9.3). -/
def lodeCycles (off : Nat) : Nat := if off % 64 = 48 then 22 else 20

/-- Begin a locked sequence (R247). -/
def State.pushLock (s : State) (m : BankMem) (units : List Nat) (port : Nat) (op : Option LockOp) (crew : Option CrewRef)
    (step : Option Nat) (cycles : Nat) (site : Site) : State :=
  let i := s.newId
  let s := i.2
  { s with locks := (s.locks.filter fun l => s.holds l) ++
      [{ id := i.1, mem := m, banks := units, port, op, crew, step, since := s.cycle, cycles, site }] }

/-- Lines that an HBM atomic unit holds in a cycle. -/
def HbmCtl.live (c : HbmCtl) (now : Nat) : List (Nat × Nat) := c.atomic.filter fun a => now < a.2

/-- Has the atomic unit of a stack room for the lines of a target: it holds 64 (R249). -/
def State.atomicRoom (s : State) (pa n : Nat) : Bool :=
  match s.paKind pa with
  | .hbm k => ((Store.get HbmCtl.idle s.hbms k).live s.cycle).length + ((pa + n + 63) / 64 - pa / 64) ≤ 64
  | _ => true

/-- An atomic that is applied at once holds what it touches for its cycles (R247-R249): the banks of a face or a stockpile, or
the lines of HBM in the atomic unit of their stack. -/
def State.holdAtomic (s : State) (pa n port cycles : Nat) (crew : Option CrewRef) : State :=
  let bank := fun (m : BankMem) =>
    s.pushLock m (s.spanUnits m (pa - memBase m) n) port none crew none cycles ⟨0, 0⟩
  match s.paKind pa with
  | .face st => bank (.face st)
  | .stockpile l => bank (.stockpile l)
  | .hbm k =>
    let c := Store.get HbmCtl.idle s.hbms k
    let lines := (List.range ((pa + n + 63) / 64 - pa / 64)).map fun i => (pa / 64 + i, s.cycle + cycles)
    { s with hbms := Store.set HbmCtl.idle s.hbms k { c with atomic := c.live s.cycle ++ lines } }
  | _ => s

/-- Can a bank or an atomic unit add at an address: not in the host range, a CXL range or the control space (R249). -/
def State.takesAtomic (s : State) (pa : Nat) : Bool :=
  match s.paKind pa with
  | .host | .cxl _ | .control => false
  | _ => true

/-- The face whose post row a physical range reaches, and the bytes of the range below the row (10 R269). -/
def State.postReach (s : State) (pa n : Nat) : Option (Nat × Nat) :=
  match s.paKind pa with
  | .face st => if faceBase st + postRow < pa + n then some (st, faceBase st + postRow - pa) else none
  | _ => none

/-- A write by physical address: what would reach a post row is discarded and counts (10 R269). -/
def State.storeAt (s : State) (pa n v en : Nat) : State :=
  match s.postReach pa n with
  | none => s.writeMem pa n v en
  | some (st, live) =>
    (s.bumpIf (decide (en / 2 ^ live ≠ 0)) (Reg.skpPostBadCnt st)).writeMem pa live (v % 2 ^ (8 * live)) (en % 2 ^ live)

end Sys2Proof.Machine
end

