-- ==== Sys2Proof/Machine/Deputy.lean ====
section
/-!
DEFINITION. The deputy (15 R403-R428): tickets, verdicts, poison, and canary failures.
-/
namespace Sys2Proof.Machine

/-! ## Stopes (01 R19, R20) -/

/-- The management state of a stope. -/
def State.stope (s : State) (n : Nat) : StopeCtl := Store.get StopeCtl.idle s.stopes n

/-- Change the management state of a stope. -/
def State.modStope (s : State) (n : Nat) (f : StopeCtl → StopeCtl) : State :=
  { s with stopes := Store.modify StopeCtl.idle s.stopes n f }

/-- The state of a stope (Table 15.10): 0 not configured, 1 active, 2 spare, 3 gated, 4 fenced. -/
def State.stopeState (s : State) (n : Nat) : Nat := s.fld (Reg.dptStopeStat n) Fld.dptStopeStatState

/-- Request the fence of a stope at the next boundary with a cause (Table 1.6; 1 canary, 2 spare rows, 3 operator). -/
def State.requestFence (s : State) (n cause : Nat) : State :=
  if s.stopeState n = 4 && !(s.stope n).returning then s else s.modStope n fun c => if c.fence = 0 then { c with fence := cause } else c

/-! ## Tickets (R407-R412) -/

/-- A ticket's 64 bits (Table 15.2). -/
def ticketBits (node step kind serial : Nat) : Nat :=
  node * 2 ^ 46 + step % 4 * 2 ^ 44 + kind * 2 ^ 40 + serial

/-- Places in the table of unresolved tickets (R410). -/
def maxTickets : Nat := 16384

/-- Is there room for a ticket (R410). -/
def State.ticketRoom (s : State) : Bool := s.tickets.length < maxTickets

/-- Set the table of unresolved tickets and its register (R410). -/
def State.setTickets (s : State) (t : List Ticket) : State :=
  ({ s with tickets := t }).setFld Reg.dptUnresolved Fld.dptUnresolvedTickets t.length

/-- The poison cause of a step, if it is aborted (R417). -/
def State.poisonOf (s : State) (id : StepId) : Option Nat :=
  match s.step? id with
  | some r => r.poison
  | none => (s.poisoned.find? (·.1 = id)).map (·.2)

/-- A verdict packet for one ticket (Table 15.3). -/
def State.verdictPacket (s : State) (dst : Nat) (mcast : Bool) (ticket : Nat) (good : Bool) (cause : Nat) : Packet :=
  { s.newPacket dst 7 7 with
    mcast := mcast, esc := mcast, plen := 32
    payload := packFields [(1, 1), (1, 1), (14, 0), (8, ticket), (1, if good then 1 else 2), (1, cause), (6, 0)] }

/-- Send the verdict of an own ticket (R413). -/
def State.sendVerdict (s : State) (t : Ticket) (good : Bool) (cause : Nat) : State :=
  if t.multi || t.dests.length > 16 then
    if s.flag Reg.dptBox Fld.dptBoxV then
      s.send (s.verdictPacket (s.fld Reg.dptBox Fld.dptBoxBox) true t.id good cause)
    else t.dests.foldl (fun s d => s.send (s.verdictPacket d false t.id good cause)) s
  else t.dests.foldl (fun s d => s.send (s.verdictPacket d false t.id good cause)) s

/-- A commit no longer waits for a ticket resolved GOOD (R414). -/
def State.uncover (s : State) (id : Nat) : State :=
  { s with
    shafts := s.shafts.map fun e =>
      (e.1, { e.2 with started := e.2.started.map fun c => { c with covers := c.covers.filter (· ≠ id) } })
    snapshot := s.snapshot.map fun x => { x with covers := x.covers.filter (· ≠ id) } }

/-- Take one ticket out of the table with a result, send its verdict and count it (R411, R413, R438). -/
def State.dropTicket (s : State) (t : Ticket) (good : Bool) (cause : Nat) : State :=
  let s := s.setTickets ((s.tickets.filter (·.id ≠ t.id)).map fun u =>
    { u with deps := u.deps.filter (· ≠ t.id)
             depBad := if !good && u.deps.contains t.id then some 5 else u.depBad })
  let s := if good then s.uncover t.id else s
  if t.own then
    let s := s.sendVerdict t good cause
    let s := s.bump (if good then Reg.dptVerdictGoodCnt else Reg.dptVerdictBadCnt)
    s.modStep t.step fun r => if good then { r with vgood := r.vgood + 1 } else { r with vbad := r.vbad + 1 }
  else s

/-- The POISON message of a step (Table 15.3). -/
def State.poisonPacket (s : State) (step cause ticket origin : Nat) : Packet :=
  { s.newPacket (s.fld Reg.dptBox Fld.dptBoxBox) 7 7 with
    mcast := true, esc := true, plen := 32
    payload := packFields [(1, 2), (7, 0), (8, step), (4, origin), (1, cause), (3, 0), (8, ticket)] }

/-- Poison a step of the current sequence (R416, R417): at the first event for it one POISON message, one item, one
count. -/
def State.poisonStep (s : State) (num cause ticket origin : Nat) : State :=
  let id : StepId := ⟨s.seqNo, num⟩
  if (s.poisonOf id).isSome then s
  else
    let s := if s.flag Reg.dptBox Fld.dptBoxV then s.send (s.poisonPacket num cause ticket origin) else s
    let s := s.bump Reg.dptPoisonCnt
    let hit := fun (r : StepRec) => r.id.seq = s.seqNo && num ≤ r.id.num && r.unsealed && r.poison.isNone
    let low := ((s.steps.filter hit).map (·.id.num)).foldl min (if (s.step? id).isSome then num else 2 ^ 64)
    let s := s.report id ⟨13, false, false, 0, packFields [(8, ticket), (1, cause), (4, origin)]⟩
    let s := if low < 2 ^ 64 then s.setReg64 Reg.dptPoisonStep0 Reg.dptPoisonStep1 low else s
    let s := { s with steps := s.steps.map fun r => if hit r then { r with poison := some cause } else r
                      poisoned := s.poisoned ++ [(id, cause)] }
    let s := s.raiseIf (s.flag Reg.dptCtrl Fld.dptCtrlPoisonEvent) 10
    let dead := s.tickets.filter fun t => t.step.seq = s.seqNo && num ≤ t.step.num && (s.poisonOf t.step).isSome
    dead.foldl (fun s t =>
      let c := match t.outcome with
        | some (some own) => own
        | _ => cause
      s.dropTicket t false c) s

/-- Resolve a ticket: a BAD one poisons its step (R411, R416). A ticket of an earlier sequence poisons nothing. -/
def State.resolveTicket (s : State) (t : Ticket) (good : Bool) (cause : Nat) : State :=
  let s := s.dropTicket t good cause
  if good || t.step.seq ≠ s.seqNo then s else s.poisonStep t.step.num cause t.id s.node

/-- Add a ticket to the table of unresolved tickets. -/
def State.addTicket (s : State) (t : Ticket) : State :=
  let b := s.born + 1
  ({ s with born := b }).setTickets (s.tickets ++ [{ t with born := b }])

/-- Issue a ticket (R408): its identifier, its birth, and the state. A ticket of an aborted step resolves BAD at
once (R417). `old` are the tickets of a lost run that resolve together with it (R412). -/
def State.issueTicket (s : State) (step : StepId) (kind : Nat) (old : List Nat) (tile : Option Nat) : Nat × Nat × State :=
  let serial := if s.serial + 1 = 2 ^ 40 then 1 else s.serial + 1
  let s := { s with serial := serial }
  let id := ticketBits s.node step.num kind serial
  let deps := s.tickets.filter fun u =>
    u.step.seq = step.seq && u.step.num ≤ step.num && !old.contains u.id && !u.deps.any (old.contains ·)
  let t : Ticket := { id, step, own := true, outcome := none, deps := deps.map (·.id), depBad := none, dests := [],
                      multi := false, waitTile := tile, joined := old, born := 0 }
  let s := s.addTicket t
  match s.poisonOf step with
  | some c => (id, s.born, s.dropTicket t false c)
  | none => (id, s.born, s)

/-- Is a ticket unresolved on the module. -/
def State.unresolved (s : State) (id : Nat) : Bool := s.tickets.any (·.id = id)

/-- Form the own outcome of the tickets of an operation (R411). -/
def State.setOutcome (s : State) (ids : List Nat) (bad : Option Nat) : State :=
  { s with tickets := s.tickets.map fun t =>
      if ids.contains t.id && t.own && t.outcome.isNone then { t with outcome := some bad } else t }

/-- Record a destination of a ticket (R413). -/
def State.ticketDest (s : State) (id dst : Nat) (mcast : Bool) : State :=
  { s with tickets := s.tickets.map fun t =>
      if t.id = id then
        if mcast then { t with multi := true }
        else if t.dests.contains dst then t else { t with dests := t.dests ++ [dst] }
      else t }

/-- The ticket an operation sends its next packet under (R408): its current one, or a new one when another ticket
has become unresolved since. -/
def State.currentTicket (s : State) (step : StepId) (kind : Nat) (cur born : Nat) : Nat × Nat × State :=
  if s.born > born ∧ s.ticketRoom then s.issueTicket step kind [] none else (cur, born, s)

/-- Send a packet under an operation's ticket (R409). -/
def State.sendProv (s : State) (p : Packet) (ticket : Nat) : State :=
  if s.unresolved ticket then (s.ticketDest ticket p.dst p.mcast).send { p with prov := true, ticket := ticket }
  else s.send p

/-- The step that a held ticket names by its two STEP bits: the begun and unsealed step with them, else the next
number above the highest begun. -/
def State.stepOfTicket (s : State) (ticket : Nat) : StepId :=
  let m := bits ticket 45 44
  match s.steps.find? (fun r => r.id.seq = s.seqNo && r.unsealed && r.id.num % 4 = m) with
  | some r => r.id
  | none =>
    let top := ((s.steps.filter (·.id.seq = s.seqNo)).map (·.id.num)).foldl max 0
    ⟨s.seqNo, top + 1 + (m + 4 - (top + 1) % 4) % 4⟩

/-- Hold the ticket of an arriving provisional packet (R409); false when it must wait for room (R410). -/
def State.holdTicket (s : State) (p : Packet) : State × Bool :=
  let ticket := p.ticket
  if s.unresolved ticket then (s, true)
  else if !s.ticketRoom then (s.waitOn (.packet p) .ticket, false)
  else
    let id := s.stepOfTicket ticket
    let t : Ticket := { id := ticket, step := id, own := false, outcome := none, deps := [], depBad := none,
                        dests := [], multi := false, waitTile := none, joined := [], born := 0 }
    let s := s.addTicket t
    (match s.poisonOf id with
     | some c => s.dropTicket t false c
     | none => s, true)

/-- Tickets that cover a commit of a step (R414). -/
def State.coverOf (s : State) (id : StepId) : List Nat :=
  (s.tickets.filter fun t => t.step.seq = id.seq && t.step.num ≤ id.num).map (·.id)

/-- Every unresolved ticket of an old sequence resolves BAD locally (R408). -/
def State.discardOldTickets (s : State) : State :=
  s.setTickets (s.tickets.filter fun t => t.step.seq = s.seqNo)

/-! ## Canary failures (R423) -/

/-- The frames in which a step was current include or follow a frame. -/
def StepRec.currentFrom (r : StepRec) (f : Nat) : Bool :=
  match r.endFrame with
  | some e => f ≤ e
  | none => true

/-- The cause byte of an ENGINE item (Table 15.7). -/
def engineCause (engine cause : Nat) : Nat := (Config.engineCause engine cause).toNat

/-- A canary of a stope fails (R423): fence, suspects, poison, item, count, event. -/
def State.canaryFail (s : State) (stope cause entry : Nat) : State :=
  let s := s.requestFence stope 1
  let f := (s.stope stope).lastGood
  let sus := fun (r : StepRec) => r.id.seq = s.seqNo && r.currentFrom f
  let nums := (s.steps.filter sus).map (·.id.num)
  let lo := nums.foldl min (2 ^ 64)
  let hi := nums.foldl max 0
  let s := { s with steps := s.steps.map fun r => if sus r then { r with suspect := true } else r }
  let open_ : Nat := ((s.steps.filter fun r => sus r && r.unsealed).map (·.id.num)).foldl min (2 ^ 64)
  let s := if open_ < 2 ^ 64 then s.poisonStep open_ 7 0 s.node else s
  let s :=
    s.report ⟨s.seqNo, hi⟩ ⟨12, false, false, stope,
      packFields [(2, stope), (1, cause), (2, entry), (8, if nums = [] then 0 else lo), (8, hi)]⟩
  let s := s.bump Reg.dptCanaryFailCnt
  s.raiseIf (s.flag Reg.dptCtrl Fld.dptCtrlCanaryEvent) 10

end Sys2Proof.Machine
end

