-- ==== Sys2Proof/Machine/CrewOps.lean ====
section
/-!
DEFINITION. Operations on crews (06): registers, skips, restart records, level-2 traffic, drill contexts of a crew,
and the end of an instance.
-/
namespace Sys2Proof.Machine

/-- The table key of a crew. -/
def crewKey (c : CrewRef) : Nat := c.stope * 16 + c.crew

/-- The state of a crew. -/
def State.crew (s : State) (c : CrewRef) : Crew := Store.get Crew.idle s.crews (crewKey c)

/-- Set the state of a crew. -/
def State.setCrew (s : State) (c : CrewRef) (x : Crew) : State :=
  { s with crews := Store.set Crew.idle s.crews (crewKey c) x }

/-- Change the crew's registers. -/
def State.modCrew (s : State) (c : CrewRef) (f : Crew → Crew) : State := s.setCrew c (f (s.crew c))

/-- The code of a crew's phase in CRW_STATE (Table 6.7). -/
def CrewPhase.code : CrewPhase → Nat
  | .idle => 0
  | .running => 1
  | .waiting => 2
  | .draining => 3

/-- Set the phase of a crew and its bits of CRW_STATE. -/
def State.setPhase (s : State) (c : CrewRef) (p : CrewPhase) : State :=
  let s := s.setCrew c { s.crew c with phase := p }
  let off := Reg.crwState c.stope
  s.setReg off (putBits (s.reg off) (2 * c.crew + 1) (2 * c.crew) p.code)

/-- Change the instance of a crew. -/
def State.modInst (s : State) (c : CrewRef) (f : Instance → Instance) : State :=
  s.setCrew c { s.crew c with inst := (s.crew c).inst.map f }

/-- A scalar register as it stood before the bundle issued (06 R145). -/
def Crew.sr (c : Crew) (i : Nat) : Nat := (Store.get 0 c.snap.s i).toNat
/-- A vector register as it stood before the bundle issued. -/
def Crew.vr (c : Crew) (i : Nat) : Nat := (Store.get 0 c.snap.v i).toNat
/-- A predicate register as it stood before the bundle issued; p[0] is all ones (Table 6.1). -/
def Crew.pr (c : Crew) (i : Nat) : Nat := if i = 0 then 2 ^ 512 - 1 else (Store.get 0 c.snap.p i).toNat

/-- Write a scalar register. -/
def Crew.wS (c : Crew) (i v : Nat) : Crew :=
  { c with regs := { c.regs with s := Store.set 0 c.regs.s i (BitVec.ofNat 64 v) }, written := .s i :: c.written }
/-- Write a vector register. -/
def Crew.wV (c : Crew) (i v : Nat) : Crew :=
  { c with regs := { c.regs with v := Store.set 0 c.regs.v i (BitVec.ofNat 16384 v) }, written := .v i :: c.written }
/-- Write a predicate register; a write to p[0] is discarded (05 R125). -/
def Crew.wP (c : Crew) (i v : Nat) : Crew :=
  if i = 0 then c
  else { c with regs := { c.regs with p := Store.set 0 c.regs.p i (BitVec.ofNat 512 v) }, written := .p i :: c.written }

/-- The live value of a scalar register. -/
def Crew.liveS (c : Crew) (i : Nat) : Nat := (Store.get 0 c.regs.s i).toNat

/-- Is the crew running an instance whose bundle may act: END stops it (R204). -/
def Crew.active (c : Crew) : Bool := c.phase = .running && c.inst.any fun i => !i.ended

/-- The state of a tile handle. -/
def Crew.handle (c : Crew) (i : Nat) : Handle := Store.get Handle.invalid c.handles i

/-- Set a tile handle. -/
def Crew.setHandle (c : Crew) (i : Nat) (h : Handle) : Crew :=
  { c with handles := Store.set Handle.invalid c.handles i h }

/-- A check hands what it found to the deputy (04 R115, 05 R137). (DESIGN CHOICE: notes/assumptions/94) -/
def State.find (s : State) (f : Finding) : State := { s with findings := s.findings ++ [f] }

/-! ## Outcomes and level-2 traffic (15 R405, R406, R411) -/

/-- The check outcome of a crew's instance becomes bad; the first cause stands. -/
def State.markBad (s : State) (c : CrewRef) (cause : Nat) : State :=
  s.modInst c fun i => { i with bad := i.bad.orElse fun _ => some cause }

/-- Compare one word of a level-2 pair with the other run's next one, or queue it (R405).
(DESIGN CHOICE: notes/assumptions/26) -/
def Pair.push (p : Pair) (shadow : Bool) (t : Traffic) : Pair :=
  if shadow then
    match p.primary with
    | u :: l => { p with primary := l, mismatch := p.mismatch || decide (u ≠ t) }
    | [] => { p with shadow := p.shadow ++ [t] }
  else
    match p.shadow with
    | u :: l => { p with shadow := l, mismatch := p.mismatch || decide (u ≠ t) }
    | [] => { p with primary := p.primary ++ [t] }

/-- What a run sends off its stope: it takes effect for the primary or single run; both runs of a pair are compared. -/
def State.offStope (s : State) (i : Instance) (t : Traffic) (f : State → State) : State :=
  if i.pair = 0 then f s
  else
    let s := { s with pairs := s.pairs.map fun p => if p.id = i.pair then p.push i.shadow t else p }
    if i.shadow then s else f s

/-! ## Skips (06 R157-R162; 16 R448) -/

/-- A skip, a timeout or a stall of a canary is reported to the deputy when it occurs (06 R162, 07 R203, 08 R233; 15 R423): its first
failure counts. -/
def State.failCanary (s : State) (c : CrewRef) (cause : Nat) : State :=
  match (s.crew c).inst with
  | none => s
  | some i =>
    if i.canaryFail.isSome then s
    else
      let s := s.modInst c fun i => { i with canaryFail := some cause }
      match i.origin with
      | .canary _ idx _ _ => s.canaryFail c.stope cause idx
      | .dispatch _ _ => s

/-- A restarted run differs from its restart record (16 R447): its outcome is bad with cause 3; SFT_RESTART_BAD_CNT counts the run,
at its first difference (Table 16.4). (DEDUCED: notes/assumptions/28) -/
def State.runDiffers (s : State) (c : CrewRef) : State :=
  let first := (s.crew c).inst.any fun i => !i.done.differs
  ((s.markBad c 3).modInst c fun i => { i with done := { i.done with differs := true } }).bumpIf first Reg.sftRestartBadCnt

/-- The skip record (Table 6.5). -/
def skipRecord (i : Instance) (c : CrewRef) (site : Site) (slot cause : Nat) (blocks : Bool) : Nat :=
  packFields [(8, i.tile), (8, i.step.num), (4, site.foff), (2, c.stope), (1, c.crew), (1, slot), (1, cause),
    (1, site.depth), (1, blocks.toNat + 2 * i.ballast.toNat), (1, 0),
    (4, if site.foff < i.kface then 2 ^ 32 + site.foff - i.kface else site.foff - i.kface)]

/-- A skip occurs (R157, R161, R162): counted, recorded in the skip ring, reported for its step; a restarted run's
repeated skips are matched instead (R448); a ballast instance fails its canary. -/
def State.noteSkip (s : State) (c : CrewRef) (site : Site) (slot cause : Nat) : State :=
  let cr := s.crew c
  match cr.inst with
  | none => s
  | some i =>
    let s := s.bump (Reg.crwSkipCnt c.stope)
    let key : SkipKey := ⟨site.foff, slot, cause⟩
    let s := s.modInst c fun i => { i with nSkip := i.nSkip + 1 }
    if i.nSkip < i.restart.skips.length then
      if i.restart.skips[i.nSkip]? = some key then s
      else s.runDiffers c
    else
      let seals := (s.flag Reg.crwCtrl Fld.crwCtrlSkipSeal || cause = 13) && !i.ballast
      let rec_ := skipRecord i c site slot cause seals
      let s := s.modInst c fun i => { i with done := { i.done with skips := i.done.skips ++ [key] } }
      let s := s.offStope i ⟨1, [site.foff, slot, cause]⟩ fun s =>
        let s := s.ringPush ringSkip (s.flag Reg.crwCtrl Fld.crwCtrlSkipqEn) 32 rec_
        let s := if i.ballast then s
          else (s.report i.step ⟨3, seals, false, c.stope, rec_⟩).modStep i.step
            fun r => { r with nskip := r.nskip + 1 }
        s.raiseIf (s.flag Reg.crwCtrl Fld.crwCtrlSkipEvent) 2
      if i.ballast then s.failCanary c 3 else s

/-- The site of a crew's current bundle. -/
def Crew.site (cr : Crew) : Site := ⟨cr.curFoff, cr.curLoops.length⟩

/-- A slot of the current bundle that is skipped writes nothing: its registers have no write pending (R159). -/
def Crew.dropBusy (cr : Crew) (slot : Nat) : Crew :=
  { cr with busy := cr.busy.filter fun b => !(b.slot = slot && b.issued = cr.issued) }

/-- The current bundle's slot is skipped with a cause (R157). -/
def State.skipSlot (s : State) (c : CrewRef) (slot cause : Nat) : State :=
  let s := s.modCrew c fun x => x.dropBusy slot
  s.noteSkip c (s.crew c).site slot cause

/-- The first cause of Table 6.4 that applies, from checks listed in its order. (DEDUCED: notes/assumptions/22) -/
def firstCause : List (Bool × Nat) → Option Nat
  | [] => none
  | (b, c) :: l => if b then some c else firstCause l

/-! ## Drill contexts (04 R105-R107) -/

/-- The drill of a stope. -/
def State.drill (s : State) (stope : Nat) : Drill := Store.get Drill.idle s.drills stope

/-- Lode-store units of a shape and kind (R106). -/
def tileUnits (shape kind : Nat) : Nat :=
  let outs := match shape with
    | 0 => 1024
    | 4 => 16384
    | _ => 4096
  let b := match kind with
    | 0 => 16
    | 1 => 32
    | _ => 80
  outs * b / 16384

/-- Units free for tiles: 96 less those in contexts, held by the background test or lost to repair (R105, 09 R258). -/
def Drill.unitsFree (d : Drill) : Nat := 96 - ((d.ctxs.map (·.units)).foldl (· + ·) 0 + d.held + d.badUnits)

/-- Set the drill of a stope and its DRL_STAT register (Table 4.7). -/
def State.setDrill (s : State) (stope : Nat) (d : Drill) : State :=
  let s := { s with drills := Store.set Drill.idle s.drills stope d }
  let busy := d.ctxs.any fun t => match t.phase with
    | .running _ => true
    | _ => false
  s.setReg (Reg.drlStat stope) (d.unitsFree * 2 ^ 16 + d.ctxs.length * 2 ^ 8 + busy.toNat)

/-- Free a tile context and its units. -/
def State.freeCtx (s : State) (stope id : Nat) : State :=
  let d := s.drill stope
  s.setDrill stope { d with ctxs := d.ctxs.filter (·.id ≠ id) }

/-- Free every tile context of a crew (06 R150, 07 R188). -/
def State.freeCrewTiles (s : State) (c : CrewRef) : State :=
  let d := s.drill c.stope
  s.setDrill c.stope { d with ctxs := d.ctxs.filter (·.crew ≠ c.crew) }

/-! ## The end of an instance (06 R150, R166; 08 R218; 15 R406, R411, R423) -/

/-- A started command's work is done. -/
def State.cmdDone (s : State) (shaft cmd : Nat) : State :=
  { s with shafts := Store.modify Shaft.idle s.shafts shaft fun h =>
      { h with started := h.started.map fun c => if c.cmd.id = cmd then { c with state := .done } else c } }

/-- One instance of a DISPATCH has committed or ended (R218). -/
def State.dispatchCount (s : State) (id : Nat) : State :=
  match s.dispatches.find? (·.id = id) with
  | none => s
  | some d =>
    let d' := { d with finished := d.finished + 1 }
    if d'.finished = d'.count then
      ({ s with dispatches := s.dispatches.filter (·.id ≠ id) }).cmdDone d.shaft d.cmd
    else { s with dispatches := s.dispatches.map fun x => if x.id = id then d' else x }

/-- The ITALLY of a DISPATCH rises by 1 (R218). -/
def State.dispatchTally (s : State) (id : Nat) : State :=
  match s.dispatches.find? (·.id = id) with
  | some d => match d.itally with
    | some t => s.signal t false 1
    | none => s
  | none => s

/-- Judge a canary at its end (15 R423): 1 result, 2 outcome, 5 RUNLIMIT; 3 skip and 4 timeout or stall have been reported. -/
def Instance.canaryCause (i : Instance) (now runlimit expect : Nat) : Option Nat :=
  if i.bad.isSome then some 2
  else if runlimit < now - i.started then some 5
  else if i.result ≠ expect then some 1
  else none

/-- A canary passes (15 R423). -/
def State.canaryPass (s : State) (stope : Nat) : State :=
  let s := s.setReg (Reg.dptLastGood stope) (s.frame % 2 ^ 32)
  let s := s.bump (Reg.dptCanaryCnt stope)
  s.modStope stope fun c =>
    { c with canaryAge := 0, canaryForced := false, canaryLate := false, lastGood := s.frame
             passed := c.passed || c.returning }

/-- Write the recorded refusals of an instance as skip records (06 R150, R160; 07 R194). -/
def State.writeRefusals (s : State) (c : CrewRef) : State :=
  match (s.crew c).inst with
  | none => s
  | some i =>
    let s := i.refusals.foldl (fun s m => s.noteSkip c m.site 1 11) s
    let s := i.storeRefusals.foldl (fun s f => s.noteSkip c f 4 11) s
    s.modInst c fun i => { i with refusals := [], storeRefusals := [] }

/-- The crew becomes idle with nothing of its instance left; contexts its handles retain are freed (R166, R188). -/
def State.idleCrew (s : State) (c : CrewRef) : State :=
  let s := s.freeCrewTiles c
  (s.setCrew c { Crew.idle with dupCount := (s.crew c).dupCount }).setPhase c .idle

/-- Account for the end of an instance: its ticket, its DISPATCH and ITALLY, or its canary (R150, R166, R218, R423). -/
def State.accountEnd (s : State) (c : CrewRef) (i : Instance) : State :=
  match i.origin with
  | .dispatch id _ =>
    let s := s.setOutcome (i.tickets ++ i.oldTickets) i.bad
    (s.dispatchTally id).dispatchCount id
  | .canary _ idx limit expect =>
    let s := s.modStope c.stope fun x => { x with canaryBusy := false }
    if i.canaryFail.isSome then s
    else match i.canaryCause s.cycle limit expect with
    | some cause => s.canaryFail c.stope cause idx
    | none => s.canaryPass c.stope

/-- One run of a pair has ended, with its own outcome. -/
def Pair.runEnded (p : Pair) (shadow : Bool) (bad : Option Nat) : Pair :=
  { p with endedP := p.endedP || !shadow, endedS := p.endedS || shadow, badP := p.badP.orElse fun _ => bad }

/-- The posted streams of a run belong to a committed instance from now on (10 R275). -/
def State.commitStreams (s : State) (stope order : Nat) : State :=
  s.setSkip stope { s.skip stope with streams := (s.skip stope).streams.map fun (x : Stream) =>
    match x.use with
    | .posted _ _ _ o => if o = order then { x with committed := true } else x
    | _ => x }

/-- Finish the instance of a crew: at a commit, or after a fetch fault (R150, R166). A level-2 pair ends when both
runs have ended (15 R406). -/
def State.finishInstance (s : State) (c : CrewRef) : State :=
  let s := s.writeRefusals c
  match (s.crew c).inst with
  | none => s
  | some i =>
    let s := s.commitStreams c.stope i.order
    if i.pair = 0 then (s.idleCrew c).accountEnd c i
    else
      let s := { s with pairs := s.pairs.map fun (p : Pair) =>
        if p.id = i.pair then p.runEnded i.shadow i.bad else p }
      match s.pairs.find? (fun (p : Pair) => p.id = i.pair) with
      | none => s.idleCrew c
      | some p =>
        if p.endedP && p.endedS then
          let bad := p.mismatch || decide (p.primary ≠ []) || decide (p.shadow ≠ [])
          let s := { s with pairs := s.pairs.filter fun (p : Pair) => p.id ≠ i.pair }
          let s := s.bumpIf bad Reg.dptL2MismatchCnt
          (s.idleCrew c).accountEnd c { i with bad := p.badP.orElse fun _ => if bad then some 3 else none }
        else
          let s := if i.shadow then s else { s with pairs := s.pairs.map fun (p : Pair) =>
            if p.id = i.pair then { p with kept := some i } else p }
          s.idleCrew c

/-- A fetch fault ends the instance (06 R150); its record's depth is the loop levels open at the fetch.
(DEDUCED: notes/assumptions/93) -/
def State.fetchFault (s : State) (c : CrewRef) (foff : Nat) : State :=
  let s := s.noteSkip c ⟨foff, (s.crew c).loops.length⟩ 7 13
  let s := s.freeCrewTiles c
  let s := s.setCrew c { s.crew c with merge := [], handles := [], dups := [] }
  let s := s.modInst c fun i => { i with faultEnd := true, ended := true }
  s.finishInstance c

/-! ## Bundles and loops (06 R149-R156) -/

/-- Fall through the end of the bundle at `foff` (R154): the next bundle and the loop levels, innermost first.
(DEDUCED: notes/assumptions/20) -/
def fallThrough (foff : Nat) : List LoopLevel → Nat × List LoopLevel
  | [] => (foff + 32, [])
  | l :: ls =>
    if l.last = foff then
      if l.count - 1 ≠ 0 then (l.first, { l with count := l.count - 1 } :: ls)
      else fallThrough foff ls
    else (foff + 32, l :: ls)

/-- The loop levels left after a branch to `target` (R156). -/
def closeLoops (target : Nat) : List LoopLevel → List LoopLevel
  | [] => []
  | l :: ls => if target < l.first ∨ l.last < target then closeLoops target ls else l :: ls

end Sys2Proof.Machine
end

