-- ==== Sys2Proof/Machine/Operands.lean ====
section
/-!
DEFINITION. Operand fields and checks shared by the slots of a bundle (07 R172-R174, 06 R158, R159).
-/
namespace Sys2Proof.Machine

/-- Sign-extended 24-bit immediate as a 64-bit value (Table 7.2). -/
def imm24 (w : Nat) : Nat := ofInt 64 (sext 24 w)

/-- Does a slot write a register that an earlier slot of the bundle wrote (R159). (DEDUCED: notes/assumptions/22) -/
def Crew.dual (c : Crew) (dst : List RegRef) : Bool := dst.any (c.written.contains ·)

/-- Opcodes of the scalar slot (Table 7.2). -/
def scalarOps : List Nat :=
  [1, 2, 3, 4, 5, 6, 7, 8, 9, 10, 11, 12, 13, 14, 15, 16, 17, 0x17, 0x18, 0x19, 0x1A, 0x1B, 0x1C, 0x1D, 0x1E, 0x1F,
   0x20, 0x21, 0x22, 0x23, 0x24, 0x25, 0x26, 0x28]

/-- Opcodes of the vector slot (Table 7.4). -/
def vectorOps : List Nat :=
  [1, 2, 3, 4, 5, 6, 7, 8, 9, 10, 11, 12, 0x10, 0x11, 0x12, 0x13, 0x14, 0x15, 0x16, 0x17, 0x18, 0x19, 0x1C, 0x1D,
   0x1E, 0x1F, 0x20, 0x21, 0x24, 0x25, 0x28]

/-- Opcodes of the matrix slot (Table 7.8). -/
def matrixOps : List Nat := [0x10, 0x11, 0x12, 0x14, 0x15, 0x16, 0x18, 0x19, 0x1A, 0x20, 0x21]

/-- Opcodes of the load slot (Table 7.10). -/
def loadOps : List Nat := [1, 2, 3, 4, 5, 6]

/-- Opcodes of the store slot (Table 7.12). -/
def storeOps : List Nat := [1, 2, 3, 4, 5]

/-- Opcodes of the sync slot (Table 7.14). -/
def syncOps : List Nat := [1, 2, 3, 4, 8, 9, 0x10]

/-- The format rule of a scalar opcode is broken (Table 7.1, Table 7.2): RSVD_FIELD. -/
def scalarBadField (op w : Nat) : Bool :=
  if op ≤ 17 then bits w 18 0 ≠ 0
  else if op = 0x17 then bits w 28 24 ≠ 0
  else if 0x1C ≤ op ∧ op ≤ 0x1E then bits w 23 6 ≠ 0
  else if op = 0x26 then bits w 33 24 ≠ 0
  else if op = 0x28 then (if w.testBit 33 then bits w 32 28 ≠ 0 else bits w 15 0 ≠ 0)
  else false

/-- The result of a scalar operation (Table 7.2) on the values of s[A] and s[B] and the slot's immediate. -/
def scalarValue (op : Nat) (a b : Dword) (w : Nat) : Dword :=
  let imm : Dword := BitVec.ofNat 64 (bits w 23 0)
  let simm : Dword := BitVec.ofNat 64 (imm24 w)
  let sh := bits w 5 0
  match op with
  | 0x01 => a + b
  | 0x02 => a - b
  | 0x03 => a * b
  | 0x04 => BitVec.ofNat 64 (a.toNat * b.toNat / 2 ^ 64)
  | 0x05 => a &&& b
  | 0x06 => a ||| b
  | 0x07 => a ^^^ b
  | 0x08 => a <<< (b.toNat % 64)
  | 0x09 => a >>> (b.toNat % 64)
  | 0x0A => a.sshiftRight (b.toNat % 64)
  | 0x0B => if a.slt b then a else b
  | 0x0C => if a.slt b then b else a
  | 0x0D => if a.ult b then a else b
  | 0x0E => if a.ult b then b else a
  | 0x0F => if a.slt b then 1 else 0
  | 0x10 => if a.ult b then 1 else 0
  | 0x11 => if a = b then 1 else 0
  | 0x17 => simm
  | 0x18 => a + simm
  | 0x19 => a &&& imm
  | 0x1A => a ||| imm
  | 0x1B => a ^^^ imm
  | 0x1C => a <<< sh
  | 0x1D => a >>> sh
  | 0x1E => a.sshiftRight sh
  | _ => (a <<< 24) ||| imm

/-- Is a branch taken (Table 7.2). -/
def branchTaken (op : Nat) (a b : Dword) : Bool :=
  match op with
  | 0x20 => a = b
  | 0x21 => a ≠ b
  | 0x22 => a.slt b
  | 0x23 => !a.slt b
  | 0x24 => a.ult b
  | 0x25 => !a.ult b
  | _ => true

/-- The result of a scalar slot from the registers before the bundle. -/
def scalarResult (op : Nat) (c : Crew) (w : Nat) : Nat :=
  (scalarValue op (Store.get 0 c.snap.s (bits w 28 24)) (Store.get 0 c.snap.s (bits w 23 19)) w).toNat

end Sys2Proof.Machine
end

