-- ==== Sys2Proof/Machine/Flags.lean ====
section
/-!
DEFINITION. The status of vector operations and lode conversions (05 R138): inexact, overflow and invalid count at
most once each for one operation in the counters of its stope.
-/
namespace Sys2Proof.Machine

/-- Count the status of one operation (R138). -/
def State.countStatus (s : State) (stope : Nat) (t : Status) : State :=
  ((s.bumpIf t.inexact (Reg.slcInexactCnt stope)).bumpIf t.ovf (Reg.slcOvfCnt stope)).bumpIf t.inv
    (Reg.slcInvalidCnt stope)

/-- A result that is a NaN although no operand is one counts invalid (R138). -/
def newNan (result : Val) (operands : List Val) : Status :=
  ⟨false, false, result.isNan && !operands.any Val.isNan⟩

end Sys2Proof.Machine
end

