-- ==== Sys2Proof/Machine/Transcend.lean ====
section
/-!
DEFINITION. Correctly rounded transcendental functions (05 R121-R123, Table 5.2): every result is the one rounding
of the exact mathematical value. Algebraic functions are rounded exactly; the others are enclosed in rational
intervals of rising precision until both ends round alike. An exact value is never transcendental here: the cases
in which the function value is representable are listed, as Table 5.2 requires.
-/
namespace Sys2Proof.Machine

/-- Bits of the integer square root, from the highest down. -/
def isqrtGo (n : Nat) : Nat → Nat → Nat
  | 0, r => r
  | k + 1, r => if (r + 2 ^ k) * (r + 2 ^ k) ≤ n then isqrtGo n k (r + 2 ^ k) else isqrtGo n k r

/-- The integer square root. -/
def isqrt (n : Nat) : Nat := isqrtGo n (Nat.log2 n / 2 + 1) 0

/-- An interval of numbers, in units of 2^-p. -/
structure Ivl where
  lo : Int
  hi : Int
deriving DecidableEq, Repr

/-- Floor of a quotient by a positive number. -/
def fdiv (a : Int) (b : Nat) : Int := Int.fdiv a b
/-- Ceiling of a quotient by a positive number. -/
def cdiv (a : Int) (b : Nat) : Int := -Int.fdiv (-a) b

/-- The interval of a rational. -/
def Ivl.ofRat (p : Nat) (n : Int) (d : Nat) : Ivl := ⟨fdiv (n * 2 ^ p) d, cdiv (n * 2 ^ p) d⟩
/-- Sum of intervals. -/
def Ivl.add (a b : Ivl) : Ivl := ⟨a.lo + b.lo, a.hi + b.hi⟩
/-- Opposite interval. -/
def Ivl.neg (a : Ivl) : Ivl := ⟨-a.hi, -a.lo⟩
/-- Product of intervals. -/
def Ivl.mul (p : Nat) (a b : Ivl) : Ivl :=
  let x := a.lo * b.lo
  let y := a.lo * b.hi
  let z := a.hi * b.lo
  let t := a.hi * b.hi
  ⟨fdiv (min (min x y) (min z t)) (2 ^ p), cdiv (max (max x y) (max z t)) (2 ^ p)⟩
/-- Interval divided by a positive integer. -/
def Ivl.divNat (a : Ivl) (n : Nat) : Ivl := ⟨fdiv a.lo n, cdiv a.hi n⟩
/-- Interval times an integer. -/
def Ivl.scale (a : Ivl) (k : Int) : Ivl := if 0 ≤ k then ⟨a.lo * k, a.hi * k⟩ else ⟨a.hi * k, a.lo * k⟩
/-- Quotient by an interval of positive numbers. -/
def Ivl.div (p : Nat) (a b : Ivl) : Ivl :=
  let l := b.lo.toNat
  let h := b.hi.toNat
  if l = 0 then ⟨-(2 ^ (2 * p)), 2 ^ (2 * p)⟩
  else ⟨min (fdiv (a.lo * 2 ^ p) l) (fdiv (a.lo * 2 ^ p) h), max (cdiv (a.hi * 2 ^ p) l) (cdiv (a.hi * 2 ^ p) h)⟩

/-- ln 2 as the sum of 1/(n 2^n). -/
def ln2 (p : Nat) : Ivl :=
  let s : Nat := ((List.range (p + 8)).map fun i => 2 ^ p / ((i + 1) * 2 ^ (i + 1))).foldl (· + ·) 0
  ⟨s, s + p + 10⟩

/-- The alternating series of atan(1/q), floor by floor. -/
def atanInv (p q : Nat) : Ivl :=
  let n := p / 4 + 8
  let s : Int := ((List.range n).map fun i =>
    let t : Int := ((2 ^ p / ((2 * i + 1) * q ^ (2 * i + 1)) : Nat) : Int)
    if i % 2 = 0 then t else -t).foldl (· + ·) 0
  ⟨s - n, s + n⟩

/-- π by Machin's formula. -/
def piIvl (p : Nat) : Ivl := ((atanInv p 5).scale 16).add ((atanInv p 239).scale (-4))

/-- The Taylor sum of terms t(k+1) = t(k) · x / c(k), signs alternating when `alt`, `n` terms: sum and next term. -/
def taylor (p : Nat) (x : Ivl) (c : Nat → Nat) (alt : Bool) : Nat → Nat → Ivl → Ivl → Ivl × Ivl
  | 0, _, sum, t => (sum, t)
  | n + 1, k, sum, t =>
    let sum := sum.add (if alt && k % 2 = 1 then t.neg else t)
    taylor p x c alt n (k + 1) sum ((t.mul p x).divNat (c k))

/-- Widen an interval by a magnitude on both sides. -/
def Ivl.pad (a : Ivl) (e : Int) : Ivl := ⟨a.lo - e, a.hi + e⟩

/-- Largest magnitude in an interval. -/
def Ivl.mag (a : Ivl) : Int := max a.lo.natAbs a.hi.natAbs

/-- e^r for r in [0, 1). -/
def expSmall (p : Nat) (r : Ivl) : Ivl :=
  let z := taylor p r (fun k => k + 1) false (p / 4 + 20) 0 ⟨0, 0⟩ ⟨2 ^ p, 2 ^ p⟩
  z.1.pad (2 * z.2.mag + 1)

/-- e^x for |x| at most about 2^10. -/
def expIvl (p : Nat) (x : Ivl) : Ivl :=
  let l := ln2 p
  let k : Int := Int.fdiv x.lo l.lo
  let r := x.add (l.scale (-k))
  let e := expSmall p r
  if 0 ≤ k then ⟨e.lo * 2 ^ k.toNat, e.hi * 2 ^ k.toNat⟩
  else ⟨fdiv e.lo (2 ^ (-k).toNat), cdiv e.hi (2 ^ (-k).toNat)⟩

/-- ln of a positive rational: e ln 2 plus twice the area tangent of (m − 1)/(m + 1), with m in [1, 2). -/
def logIvl (p n d : Nat) : Ivl :=
  let e := floorLog2 n d
  let mn := n * pow2Den e
  let md := d * pow2Num e
  let z := Ivl.ofRat p ((mn : Int) - md) (mn + md)
  let z2 := z.mul p z
  let terms := p / 3 + 8
  let go := (List.range terms).foldl (fun (acc : Ivl × Ivl) k =>
    (acc.1.add (acc.2.divNat (2 * k + 1)), acc.2.mul p z2)) (⟨0, 0⟩, z)
  let s := go.1.pad (2 * go.2.mag + 1)
  ((ln2 p).scale e).add (s.scale 2)

/-- sin and cos of r in [0, 1.6]. -/
def sinCosSmall (p : Nat) (r : Ivl) : Ivl × Ivl :=
  let r2 := r.mul p r
  let n := p / 4 + 20
  let a := taylor p r2 (fun k => (2 * k + 2) * (2 * k + 3)) true n 0 ⟨0, 0⟩ r
  let b := taylor p r2 (fun k => (2 * k + 1) * (2 * k + 2)) true n 0 ⟨0, 0⟩ ⟨2 ^ p, 2 ^ p⟩
  (a.1.pad (a.2.mag + 1), b.1.pad (b.2.mag + 1))

/-- sin and cos of a non-negative rational, reduced by quarter turns. -/
def sinCosIvl (p n d : Nat) : Ivl × Ivl :=
  let x := Ivl.ofRat p n d
  let pi := piIvl p
  let h : Ivl := ⟨fdiv pi.lo 2, cdiv pi.hi 2⟩
  let k := (Int.fdiv x.lo h.hi).toNat
  let r := x.add (h.scale (-(k : Int)))
  let z := sinCosSmall p r
  match k % 4 with
  | 0 => z
  | 1 => (z.2, z.1.neg)
  | 2 => (z.1.neg, z.2.neg)
  | _ => (z.2.neg, z.1)

/-- erf of a rational in [0, 12). -/
def erfIvl (p n d : Nat) : Ivl :=
  let x := Ivl.ofRat p n d
  let x2 := x.mul p x
  let go := (List.range (p / 2 + 500)).foldl (fun (acc : Ivl × Ivl) k =>
    let t := acc.2.divNat (2 * k + 1)
    (acc.1.add (if k % 2 = 1 then t.neg else t), (acc.2.mul p x2).divNat (k + 1))) (⟨0, 0⟩, x)
  let s := go.1.pad (go.2.mag + 1)
  let pi := piIvl p
  let rt : Ivl := ⟨isqrt (pi.lo.toNat * 2 ^ p), isqrt (pi.hi.toNat * 2 ^ p) + 1⟩
  (s.scale 2).div p rt

/-- The working precision of a request for `p` good bits: large arguments and cancellation need more. -/
def workBits (p : Nat) : Nat := p + 600

/-- An enclosure of a transcendental function of the exact operand ±n/d at working precision `p`; function codes
as Table 7.5. (DEDUCED: notes/assumptions/14) -/
def enclose (fn p : Nat) (neg : Bool) (n d : Nat) : Ivl :=
  let x : Int := if neg then -(n : Int) else n
  let tiny : Ivl := ⟨2 ^ (p - 300), 2 ^ (p - 250)⟩
  let huge : Ivl := ⟨2 ^ (p + 250), 2 ^ (p + 300)⟩
  let nearOne : Ivl := ⟨2 ^ p - 2 ^ (p - 200), 2 ^ p - 2 ^ (p - 400)⟩
  let big := 300 * d < n
  match fn with
  | 4 => if big then (if neg then tiny else huge) else expIvl p (Ivl.ofRat p x d)
  | 5 => if big then (if neg then tiny else huge) else expIvl p ((Ivl.ofRat p x d).mul p (ln2 p))
  | 6 => logIvl p n d
  | 7 => (logIvl p n d).div p (ln2 p)
  | 8 =>
    let t := if big then nearOne
      else
        let e := expIvl p (Ivl.ofRat p (2 * (n : Int)) d)
        (e.add ⟨-(2 ^ p), -(2 ^ p)⟩).div p (e.add ⟨2 ^ p, 2 ^ p⟩)
    if neg then t.neg else t
  | 9 =>
    if big then (if neg then tiny else nearOne)
    else
      let e := expIvl p (Ivl.ofRat p (-x) d)
      (⟨2 ^ p, 2 ^ p⟩ : Ivl).div p (e.add ⟨2 ^ p, 2 ^ p⟩)
  | 10 =>
    let t := if 12 * d ≤ n then nearOne else erfIvl p n d
    if neg then t.neg else t
  | 11 =>
    let t := (sinCosIvl p n d).1
    if neg then t.neg else t
  | _ => (sinCosIvl p n d).2

/-- Round a number given in units of 2^-p. -/
def Fmt.roundFixed (f : Fmt) (sat : Bool) (rnd r p : Nat) (v : Int) : Nat × Status :=
  f.roundNum sat rnd r (decide (v < 0)) v.natAbs (2 ^ p)

/-- Raise the precision until both ends of the enclosure round alike; `fuel` doublings. -/
def Fmt.roundEnclosed (f : Fmt) (sat : Bool) (rnd r fn : Nat) (neg : Bool) (n d : Nat) : Nat → Nat → Nat × Status
  | 0, p => f.roundFixed sat rnd r (workBits p) (enclose fn (workBits p) neg n d).lo
  | fuel + 1, p =>
    let w := workBits p
    let e := enclose fn w neg n d
    let a := f.roundFixed sat rnd r w e.lo
    if (decide (0 < e.lo) || decide (e.hi < 0)) && a = f.roundFixed sat rnd r w e.hi then a
    else Fmt.roundEnclosed f sat rnd r fn neg n d fuel (2 * p)

/-- Round the square root of the exact value n/d, n > 0. -/
def Fmt.roundSqrt (f : Fmt) (sat : Bool) (rnd r : Nat) (n d : Nat) : Nat × Status :=
  let q := n * d
  let t := isqrt q
  if t * t = q then f.roundNum sat rnd r false t d
  else
    -- irrational: 1,700 further bits separate it from every rounding boundary of every format
    let k := 1700 + 2 * Nat.log2 d
    f.roundNum sat rnd r false (2 * isqrt (q * 4 ^ k) + 1) (2 * d * 2 ^ k)

/-- The canonical NaN of a result with invalid status (Table 5.2). -/
def Fmt.invalidNan (f : Fmt) : Nat × Status := (f.canonNan, ⟨false, false, true⟩)

/-- A transcendental function of operands `a` (and `b` for the divide), rounded once (R123, Table 5.2, Table 7.5).
(DEDUCED: notes/assumptions/14) -/
def Fmt.transcend (f : Fmt) (sat : Bool) (rnd r fn : Nat) (a b : Val) : Nat × Status :=
  let exact := fun (v : Val) => f.convert sat rnd r v
  match fn with
  | 0 =>
    let q := a.div b
    if q.2 then f.invalidNan else exact q.1
  | 1 =>
    let q := (Val.num false 1 1).div a
    if q.2 then f.invalidNan else exact q.1
  | _ =>
    match a with
    | .nan => (f.canonNan, Status.none)
    | .huge _ => f.invalidNan
    | .inf neg =>
      (match fn with
       | 2 => if neg then f.invalidNan else exact (.inf false)
       | 3 => if neg then f.invalidNan else exact (.zero false)
       | 4 | 5 => exact (if neg then .zero false else .inf false)
       | 6 | 7 => if neg then f.invalidNan else exact (.inf false)
       | 8 | 10 => exact (.num neg 1 1)
       | 9 => exact (if neg then .zero false else .num false 1 1)
       | _ => f.invalidNan)
    | .num neg n d =>
      if n = 0 then
        (match fn with
         | 2 => exact (.zero neg)
         | 3 => exact (.inf neg)
         | 4 | 5 => exact (.num false 1 1)
         | 6 | 7 => exact (.inf true)
         | 8 | 10 | 11 => exact (.zero neg)
         | 9 => exact (.num false 1 2)
         | _ => exact (.num false 1 1))
      else
        (match fn with
         | 2 => if neg then f.invalidNan else f.roundSqrt sat rnd r n d
         | 3 => if neg then f.invalidNan else f.roundSqrt sat rnd r d n
         | 5 =>
           if n % d = 0 ∧ n / d ≤ 300 then
             let e : Int := if neg then -(n / d : Nat) else (n / d : Nat)
             exact (.num false (pow2Num e) (pow2Den e))
           else f.roundEnclosed sat rnd r 5 neg n d 5 64
         | 6 =>
           if neg then f.invalidNan
           else if n = d then exact (.zero false)
           else f.roundEnclosed sat rnd r 6 neg n d 5 64
         | 7 =>
           if neg then f.invalidNan
           else
             let e := floorLog2 n d
             if n * pow2Den e = d * pow2Num e then exact (.num (decide (e < 0)) e.natAbs 1)
             else f.roundEnclosed sat rnd r 7 neg n d 5 64
         | _ => f.roundEnclosed sat rnd r fn neg n d 5 64)

end Sys2Proof.Machine
end

