-- ==== Sys2Proof/Machine/Vector.lean ====
section
/-!
DEFINITION. The vector slot (05, 07 R179-R184): elementwise, integer, predicate, conversion, keyed and reducing
operations, and buddy duplication.
-/
namespace Sys2Proof.Machine

/-- The fields of formats VE, VR and VP (Table 7.3). -/
structure VecSlot where
  op : Nat
  mode : Nat
  vd : Nat
  va : Nat
  vb : Nat
  vc : Nat
  q : Nat
  ncb : Nat
  kb : Nat
  sx : Nat
  aux : Nat
  k : Nat
  sc : Nat
  nanp : Bool
  kind : Nat
deriving DecidableEq, Repr

/-- Decode a vector slot (Table 7.3). -/
def VecSlot.ofNat (w : Nat) : VecSlot :=
  { op := bits w 47 42, mode := bits w 41 40, vd := bits w 39 37, va := bits w 36 34, vb := bits w 33 31,
    vc := bits w 30 28, q := bits w 27 25, ncb := bits w 24 17, kb := bits w 16 12, sx := bits w 11 7,
    aux := bits w 6 0, k := bits w 21 17, sc := bits w 16 12, nanp := w.testBit 4, kind := bits w 3 0 }

/-- Is the mode one of 16-bit elements (R119). -/
def half (mode : Nat) : Bool := mode = 1 || mode = 2
/-- Element width of a mode. -/
def elemWidth (mode : Nat) : Nat := if half mode then 16 else 32
/-- Elements of a register in a mode. -/
def elemCount (mode : Nat) : Nat := if half mode then 1024 else 512
/-- Element `e` of a register. -/
def elemAt (mode v e : Nat) : Nat := bits v (elemWidth mode * e + elemWidth mode - 1) (elemWidth mode * e)
/-- The enable of element `e` under p[q] (R125). -/
def Crew.enabled (c : Crew) (mode q e : Nat) : Bool :=
  if half mode then (c.pr (q + e % 2)).testBit (e / 2) else (c.pr q).testBit e

/-- Does the operation draw (R179): SR in an NCB that it uses, VDROP or VRAND. -/
def VecSlot.draws (f : VecSlot) : Bool :=
  f.op = 0x24 || f.op = 0x25 ||
  ([1, 2, 3, 4, 0x0B, 0x0C].contains f.op && bits f.ncb 5 4 = 2)

/-- Modes that an operation allows (Table 7.4). -/
def vecModes (op : Nat) : List Nat :=
  if [1, 2, 3, 4, 5, 6, 7, 8, 9, 0x0C, 0x24, 0x25].contains op then [0, 1, 2]
  else if [0x0A, 0x0B, 0x20].contains op then [0, 1, 2, 3]
  else if 0x1C ≤ op ∧ op ≤ 0x1F then [0]
  else if op = 0x28 then [0, 1, 2]
  else [3]

/-- The format of a floating-point mode. -/
def modeFmt (mode : Nat) : Fmt := Fmt.ofCode mode

/-- Does a conversion change the element width (R182). -/
def VecSlot.cvtWide (f : VecSlot) : Bool :=
  let dst := if f.aux % 4 = 2 then 32 else (Fmt.ofCode (bits f.ncb 2 0)).width
  dst ≠ elemWidth f.mode

/-- Cause RSVD_FIELD (R173, R180, R182, R184). -/
def VecSlot.badField (f : VecSlot) (w : Nat) : Bool :=
  !((vecModes f.op).contains f.mode) ||
  (match f.op with
   | 0x09 => decide (7 ≤ f.aux)
   | 0x0B => decide (3 ≤ f.aux) || (f.aux = 1 && f.mode ≠ 3) || (f.cvtWide && f.q ≠ 0)
   | 0x0C => decide (13 ≤ f.aux)
   | 0x19 => decide (16 ≤ f.aux) || decide (6 ≤ f.aux % 8)
   | 0x1C | 0x1D | 0x1E => bits w 30 0 ≠ 0
   | 0x1F => bits w 33 0 ≠ 0
   | 0x28 =>
     bits w 30 28 ≠ 0 || bits w 24 22 ≠ 0 || bits w 6 5 ≠ 0 || decide (9 ≤ f.kind) || (decide (f.kind ≤ 6) && f.k ≠ 0)
   | _ => false)

/-- Cause NCB (R50, R180, R182). -/
def VecSlot.badNcb (f : VecSlot) : Bool :=
  let b := Ncb.ofNat f.ncb
  if [1, 2, 3, 4, 0x0C, 0x24].contains f.op then !b.ok || b.mx || b.fmt ≠ f.mode
  else if f.op = 0x0B then !b.ok || (b.mx && f.aux = 2)
  else false

/-- Cause REG (R174, R125, R181). -/
def VecSlot.badReg (f : VecSlot) : Bool :=
  let usesQ := !(0x1C ≤ f.op && f.op ≤ 0x1F) && !(f.op = 0x28 && f.kind = 8)
  (half f.mode && usesQ && f.q % 2 = 1) ||
  (half f.mode && [0x09, 0x0A, 0x24].contains f.op && f.vc % 2 = 1) ||
  (f.draws && 30 ≤ f.kb)

/-- The registers an operation writes (Table 7.4, Table 7.6). -/
def VecSlot.dst (f : VecSlot) : List RegRef :=
  let pair := fun p => if half f.mode then [RegRef.p p, .p (p + 1)] else [RegRef.p p]
  match f.op with
  | 0x09 | 0x19 => pair f.vc
  | 0x24 => .v f.vd :: pair f.vc
  | 0x1C | 0x1D | 0x1E | 0x1F => [.p f.vd]
  | 0x28 => if f.kind ≤ 2 then [] else if f.kind ≤ 6 then [.s f.sx] else [.v f.vd]
  | _ => [.v f.vd]

/-- The full skip check of a vector slot, in the order of Table 6.4; `limit` is the operation's LIMIT case. Two slots that both name p[0]
do not conflict. (DESIGN CHOICE: notes/assumptions/103) -/
def VecSlot.check (f : VecSlot) (c : Crew) (w : Nat) (limit : Bool) : Option Nat :=
  firstCause [(f.badField w, 2), (f.badNcb, 3), (f.badReg, 6),
    (c.dual (f.dst.filter (· ≠ .p 0)), 9), (limit, 10)]

/-- Map the enabled elements of a register; the others keep their value. The status is the OR over enabled ones. -/
def vecMap (mode : Nat) (en : Nat → Bool) (old : Nat) (f : Nat → Nat × Status) : Nat × Status :=
  let l := (List.range (elemCount mode)).map fun e => if en e then f e else (elemAt mode old e, Status.none)
  (packElems (elemWidth mode) (l.map (·.1)), (l.map (·.2)).foldl Status.or Status.none)

/-- Map the enabled predicate bits of a compare (R125). -/
def predMap (mode : Nat) (en : Nat → Bool) (lo hi : Nat) (f : Nat → Bool) : Nat × Nat :=
  let bit := fun (p : Nat) (e : Nat) (i : Nat) => if en e then f e else p.testBit i
  let ofBits := fun (g : Nat → Bool) => packElems 1 ((List.range 512).map fun i => (g i).toNat)
  if half mode then (ofBits fun i => bit lo (2 * i) i, ofBits fun i => bit hi (2 * i + 1) i)
  else (ofBits fun i => bit lo i i, hi)

/-- The draw of an element under a key base (R52, R126). -/
def Crew.draw (c : Crew) (kb purpose e : Nat) : Nat :=
  match c.inst with
  | some i =>
    keyedDraw i.seed i.keyStep (c.sr kb) ((c.sr (kb + 1) + e * c.sr (kb + 2)) % 2 ^ 48) (bits (c.sr kb) 39 32) purpose
  | none => 0

/-- Write the result of a vector operation: no duplicate issues in this cycle (R136). -/
def State.vecDone (s : State) (c : CrewRef) (cr : Crew) (t : Status) : State :=
  ((((s.setCrew c cr).countStatus c.stope t).bump (Reg.slcOpCnt c.stope))).modStope c.stope
    fun x => { x with vecNext := s.cycle + 1 }

/-- Count a bundle for duplication (R136): at check level 1 and with DUP_OFF = 0, one in DUP_PERIOD is duplicated, as SLC_CTRL
stood when the bundle issued (R139). The n-th selected on the stope is the n-th duplicate.
(DESIGN CHOICE: notes/assumptions/95) -/
def State.dupSelect (s : State) (c : CrewRef) : State :=
  let cr := s.crew c
  match cr.inst with
  | some i =>
    if i.level = 1 ∧ bits cr.slc Fld.slcCtrlDupOff.hi Fld.slcCtrlDupOff.lo = 0 then
      let n := cr.dupCount + 1
      let p := bits cr.slc Fld.slcCtrlDupPeriod.hi Fld.slcCtrlDupPeriod.lo
      let p := if p = 0 then 256 else p
      if n % p = 0 then
        let q := (s.stope c.stope).dupSeq
        (s.setCrew c { cr with dupCount := n, dups := cr.dups ++ [⟨q, cr.curFoff, cr.issued, q % 8, false⟩] }).modStope c.stope
          fun x => { x with dupSeq := q + 1 }
      else s.setCrew c { cr with dupCount := n }
    else s
  | none => s

/-- Common frame of a vector operation of opcode `op`: its checks, its effect on the crew with its status, its
counters. The row of opcode 1 also performs the RSVD_OP skip. A predicate operation counts as an elementwise one for R136.
(DESIGN CHOICE: notes/assumptions/19; DESIGN CHOICE: notes/assumptions/96) -/
def State.vectorSlot (s : State) (op : Nat) (c : CrewRef) (w : Nat) (f : VecSlot → Crew → Crew × Status) : State :=
  let cr := s.crew c
  let v := VecSlot.ofNat w
  if !cr.active then s
  else if v.op = op then
    match v.check cr w false with
    | some k => s.skipSlot c 1 k
    | none =>
      let r := f v cr
      (s.vecDone c r.1 r.2).dupSelect c
  else if op = 0x01 ∧ !(vectorOps.contains v.op) then s.skipSlot c 1 1
  else s

/-- An elementwise operation writing VD from its decoded sources. -/
def elementwise (f : VecSlot) (c : Crew) (g : Nat → Nat → Nat → Nat → Nat × Status) : Crew × Status :=
  let a := c.vr f.va
  let b := c.vr f.vb
  let d := c.vr f.vc
  let r := vecMap f.mode (c.enabled f.mode f.q) (c.vr f.vd)
    fun e => g e (elemAt f.mode a e) (elemAt f.mode b e) (elemAt f.mode d e)
  (c.wV f.vd r.1, r.2)

/-- A rounded floating-point result in the slot's mode (R122). -/
def roundMode (f : VecSlot) (c : Crew) (e : Nat) (v : Val) (ops : List Val) : Nat × Status :=
  let b := Ncb.ofNat f.ncb
  let r := if b.rnd = 2 then c.draw f.kb 0 e else 0
  let z := (modeFmt f.mode).convert b.sat b.rnd r v
  (z.1, z.2.or (newNan v ops))

/-- A floating-point operation of three sources, rounded once. -/
def floatOp (g : Val → Val → Val → Val × List Val) (f : VecSlot) (c : Crew) : Crew × Status :=
  let m := modeFmt f.mode
  elementwise f c fun e a b d =>
    let r := g (m.decode a) (m.decode b) (m.decode d)
    roundMode f c e r.1 r.2

/-- An element as read (R42, R43): canonical NaN, flushed binary32 subnormals. -/
def Fmt.asRead (f : Fmt) (w : Nat) : Nat :=
  if f.isNan w then f.canonNan
  else if f.code = 0 ∧ bits w 30 23 = 0 then w / 2 ^ 31 * 2 ^ 31
  else w

/-- VMIN and VMAX on two elements (R181). -/
def minMax (m : Fmt) (isMax : Bool) (a b : Nat) : Nat × Status :=
  if m.isNan a || m.isNan b then (m.canonNan, ⟨false, false, true⟩)
  else
    let x := m.asRead a
    let y := m.asRead b
    let u := m.decode x
    let v := m.decode y
    let below := u.lt v || (!v.lt u && u.sign && !v.sign)
    (if isMax then (if below then y else x) else (if below then x else y), Status.none)

/-- The conditions of VCMP (Table 7.5, R181). -/
def fcmp (cond : Nat) (a b : Val) : Bool :=
  if a.isNan || b.isNan then cond = 1 || cond = 6
  else
    let lt := a.lt b
    let gt := b.lt a
    match cond with
    | 0 => !lt && !gt
    | 1 => lt || gt
    | 2 => lt
    | 3 => !gt
    | 4 => gt
    | 5 => !lt
    | _ => false

/-- The conditions of VICMP (Table 7.4). -/
def icmp (aux a b : Nat) : Bool :=
  let x : Int := if aux.testBit 3 then (a : Int) else sext 32 a
  let y : Int := if aux.testBit 3 then (b : Int) else sext 32 b
  match aux % 8 with
  | 0 => x = y
  | 1 => x ≠ y
  | 2 => x < y
  | 3 => x ≤ y
  | 4 => y < x
  | _ => y ≤ x

/-- A compare writing p[VC] (and p[VC + 1] in 16-bit mode). -/
def compareOp (g : VecSlot → Nat → Nat → Bool) (f : VecSlot) (c : Crew) : Crew × Status :=
  let r := predMap f.mode (c.enabled f.mode f.q) (c.pr f.vc) (c.pr (f.vc + 1))
    fun e => g f (elemAt f.mode (c.vr f.va) e) (elemAt f.mode (c.vr f.vb) e)
  let c' := c.wP f.vc r.1
  (if half f.mode then c'.wP (f.vc + 1) r.2 else c', Status.none)

/-- An int32 operation (R124). -/
def intOp (g : BitVec 32 → BitVec 32 → BitVec 32) (f : VecSlot) (c : Crew) : Crew × Status :=
  elementwise f c fun _ a b _ => ((g (BitVec.ofNat 32 a) (BitVec.ofNat 32 b)).toNat, Status.none)

/-- A predicate operation over all 512 bits (Table 7.4). -/
def predOp (g : Nat → Nat → Nat) (f : VecSlot) (c : Crew) : Crew × Status :=
  (c.wP f.vd (g (c.pr f.va) (c.pr f.vb)), Status.none)

/-- The source value of VCVT element `e` (R182). (DEDUCED: notes/assumptions/16) -/
def cvtSource (f : VecSlot) (v e : Nat) : Val :=
  if f.mode = 3 then int32Val (elemAt 3 v e) else (modeFmt f.mode).decode (elemAt f.mode v e)

/-- Convert one VCVT element. -/
def cvtOne (f : VecSlot) (c : Crew) (x e : Nat) (v : Val) : Nat × Status :=
  let b := Ncb.ofNat f.ncb
  let r := if b.rnd = 2 then c.draw f.kb 0 e else 0
  if f.aux = 2 then toInt32 b.rnd r v
  else if b.mx then convertScaled (Fmt.ofCode b.fmt) b.sat b.rnd r x v
  else (Fmt.ofCode b.fmt).convert b.sat b.rnd r v

/-- VCVT (R120, R182): elementwise where the width is kept, else packed from element 0.
(DEDUCED: notes/assumptions/16) -/
def cvtOp (f : VecSlot) (c : Crew) : Crew × Status :=
  let a := c.vr f.va
  if !f.cvtWide then elementwise f c fun e _ _ _ => cvtOne f c 0 e (cvtSource f a e)
  else
    let b := Ncb.ofNat f.ncb
    let dw := if f.aux = 2 then 32 else (Fmt.ofCode b.fmt).width
    let n := if dw = 32 then 512 else elemCount f.mode
    let scale := fun j => if b.mx && f.aux ≠ 2 then
      blockScale b.fmt ((List.range 32).map fun i => cvtSource f a (32 * j + i)) else 0
    let scales := if b.mx && f.aux ≠ 2 then (List.range (n / 32)).map scale else []
    let l := (List.range n).map fun e =>
      let x := (scales[e / 32]?).getD 0
      let z := cvtOne f c x e (cvtSource f a e)
      (z.1, if b.mx && x = 0xFF then ⟨false, false, (cvtSource f a e).isInf⟩ else z.2)
    (c.wV f.vd (packElems dw (l.map (·.1)) + packElems 8 scales * 2 ^ (8 * 2016)),
     (l.map (·.2)).foldl Status.or Status.none)

/-- VDROP (R127, R183). -/
def dropOp (f : VecSlot) (c : Crew) : Crew × Status :=
  let m := modeFmt f.mode
  let thr := bits (c.sr f.kb) 55 40
  let scale := (Fmt.ofCode 0).decode (c.sr f.sx % 2 ^ 32)
  let kept := fun e => decide (thr ≤ c.draw f.kb 1 e)
  let r := elementwise f c fun e a _ _ =>
    if kept e then
      let x := m.decode a
      roundMode f c e (x.mul scale) [x, scale]
    else (0, Status.none)
  let p := predMap f.mode (c.enabled f.mode f.q) (c.pr f.vc) (c.pr (f.vc + 1)) kept
  let c' := r.1.wP f.vc p.1
  (if half f.mode then c'.wP (f.vc + 1) p.2 else c', r.2)

/-! ## Reductions (R128-R134, R184) -/

/-- A candidate of a selecting reduction: bits as read and index. -/
structure Cand where
  w : Nat
  idx : Nat
deriving DecidableEq, Repr

/-- Strictly below in the order of Table 5.4; NaN lowest when `nanLow`, else highest. -/
def candLt (m : Fmt) (nanLow : Bool) (a b : Nat) : Bool :=
  let x := m.decode a
  let y := m.decode b
  if x.isNan then nanLow && !y.isNan
  else if y.isNan then !nanLow
  else x.lt y

/-- Does candidate `a` win over `b`: higher (or lower for a minimum), then the lower index (R131). -/
def candWins (m : Fmt) (isMax : Bool) (a b : Cand) : Bool :=
  if isMax then candLt m false b.w a.w || (!candLt m false a.w b.w && a.idx < b.idx)
  else candLt m true a.w b.w || (!candLt m true b.w a.w && a.idx < b.idx)

/-- The winner of a list of candidates: of two that neither beats, equal in the order and with one index, the earlier in the list.
(DESIGN CHOICE: notes/assumptions/97) -/
def candBest (m : Fmt) (isMax : Bool) : List Cand → Option Cand
  | [] => none
  | c :: cs =>
    match candBest m isMax cs with
    | none => some c
    | some d => some (if candWins m isMax d c then d else c)

/-- The `k` highest candidates, highest first. -/
def candTop (m : Fmt) : Nat → List Cand → List Cand
  | 0, _ => []
  | k + 1, l =>
    match candBest m true l with
    | none => []
    | some c => c :: candTop m k (l.erase c)

/-- The index that means none (R132). -/
def noIndex : Nat := 0xFFFFFFFF

/-- Enabled candidates of a source register (R131, R132). -/
def elemCands (f : VecSlot) (c : Crew) (base : Nat) : List Cand :=
  let m := modeFmt f.mode
  let a := c.vr f.va
  ((List.range (elemCount f.mode)).filter fun e =>
      c.enabled f.mode f.q e && !(f.nanp && m.isNan (elemAt f.mode a e))).map
    fun e => ⟨m.asRead (elemAt f.mode a e), (base + e) % 2 ^ 32⟩

/-- How many entries of a top-k state register are valid (R133): as many as lane 32 counts; of a register whose lane 32 holds more
than its 16 lanes, which no selection writes, the number is open. (DESIGN CHOICE: notes/assumptions/91) -/
def stateCount (v : Nat) : Nat :=
  if elemAt 3 v 32 ≤ 16 then elemAt 3 v 32 else Config.topkCount v % 17

/-- Valid entries of a top-k state register (R133), but none whose index means "none" (R132).
(DEDUCED: notes/assumptions/111) -/
def stateCands (m : Fmt) (v : Nat) : List Cand :=
  ((List.range (stateCount v)).map fun i =>
    (⟨m.asRead (elemAt 3 v i % 2 ^ m.width), elemAt 3 v (16 + i)⟩ : Cand)).filter fun x => x.idx ≠ noIndex

/-- A top-k state register (R133). -/
def topState (m : Fmt) (l : List Cand) : Nat :=
  let v := fun i => match l[i]? with
    | some c => c.w
    | none => m.canonNan
  let x := fun i => match l[i]? with
    | some c => c.idx
    | none => noIndex
  packElems 32 ((List.range 16).map v ++ (List.range 16).map x ++ [l.length])

/-- The partial of a summing reduction (R128): kind 0 SUM, 1 SQSUM, 2 DOT. -/
def redPartial (f : VecSlot) (c : Crew) : LodeAcc :=
  let m := modeFmt f.mode
  let a := c.vr f.va
  let b := c.vr f.vb
  lodeSum (((List.range (elemCount f.mode)).filter (c.enabled f.mode f.q)).map fun e =>
    match f.kind with
    | 0 => m.elemLode false 0 (elemAt f.mode a e)
    | 1 => m.prodLode (elemAt f.mode a e) (elemAt f.mode a e)
    | _ => m.prodLode (elemAt f.mode a e) (elemAt f.mode b e))

/-- Add a partial to the merge buffer (R128). -/
def mergeAdd (site : Site) (target : Nat) (p : LodeAcc) : List MergeEntry → List MergeEntry
  | [] => [⟨target, p, site⟩]
  | e :: l => if e.target = target then { e with lode := e.lode.addFull p } :: l else e :: mergeAdd site target p l

/-- Would a reduction name a 17th merge target, or a top-k size outside 1-16 (R128, R133). -/
def redLimit (f : VecSlot) (c : Crew) : Bool :=
  if f.kind ≤ 2 then
    decide (16 ≤ c.merge.length) && !c.merge.any (·.target = c.sr f.sx)
  else if f.kind = 7 ∨ f.kind = 8 then f.k = 0 || decide (16 < f.k)
  else false

/-- Does an element of a DOT make a NaN of two operands that are none (R138): a product of zero and infinity (03 R86).
(DEDUCED: notes/assumptions/98) -/
def redInvalid (f : VecSlot) (c : Crew) : Bool :=
  let m := modeFmt f.mode
  f.kind = 2 && ((List.range (elemCount f.mode)).filter (c.enabled f.mode f.q)).any fun e =>
    let a := m.decode (elemAt f.mode (c.vr f.va) e)
    let b := m.decode (elemAt f.mode (c.vr f.vb) e)
    (a.mul b).isNan && !a.isNan && !b.isNan

/-- The effect of a reduction on its crew (R128-R133, Table 7.6). With NANP = 1 a running state whose value is NaN is no candidate.
(DESIGN CHOICE: notes/assumptions/91) -/
def redOp (f : VecSlot) (c : Crew) : Crew × Status :=
  let m := modeFmt f.mode
  if f.kind ≤ 2 then
    let p := redPartial f c
    ({ c with merge := mergeAdd c.site (c.sr f.sx) p c.merge }, ⟨false, false, redInvalid f c⟩)
  else if f.kind = 3 ∨ f.kind = 4 then
    let r := candBest m (f.kind = 3) (elemCands f c 0)
    (c.wS f.sx (match r with
      | some x => x.w
      | none => m.canonNan), Status.none)
  else if f.kind = 5 ∨ f.kind = 6 then
    let st := c.sr f.sx
    let w := m.asRead (st % 2 ^ m.width)
    let old := if st / 2 ^ 32 = noIndex ∨ (f.nanp && m.isNan w) then [] else [(⟨w, st / 2 ^ 32⟩ : Cand)]
    let r := candBest m (f.kind = 5) (old ++ elemCands f c (c.sr f.sc))
    (c.wS f.sx (match r with
      | some x => x.w + x.idx * 2 ^ 32
      | none => m.canonNan + noIndex * 2 ^ 32), Status.none)
  else if f.kind = 7 then
    let ok := fun (x : Cand) => !(f.nanp && m.isNan x.w)
    (c.wV f.vd (topState m (candTop m f.k ((stateCands m (c.vr f.vd) ++ elemCands f c (c.sr f.sc)).filter ok))), Status.none)
  else
    let ok := fun (x : Cand) => !(f.nanp && m.isNan x.w)
    (c.wV f.vd (topState m (candTop m f.k ((stateCands m (c.vr f.va) ++ stateCands m (c.vr f.vd)).filter ok))),
     Status.none)

/-- VADD (R122). -/
def execVadd (c : CrewRef) (slot : Slot48) (s : State) : Host.Outcome State Fault Refusal :=
  .next (s.vectorSlot 0x01 c slot.toNat (floatOp fun a b _ => (a.add b, [a, b])))

/-- VSUB (R122). -/
def execVsub (c : CrewRef) (slot : Slot48) (s : State) : Host.Outcome State Fault Refusal :=
  .next (s.vectorSlot 0x02 c slot.toNat (floatOp fun a b _ => (a.add b.neg, [a, b])))

/-- VMUL (R122). -/
def execVmul (c : CrewRef) (slot : Slot48) (s : State) : Host.Outcome State Fault Refusal :=
  .next (s.vectorSlot 0x03 c slot.toNat (floatOp fun a b _ => (a.mul b, [a, b])))

/-- VFMA (R122): the exact a × b + c, rounded once. -/
def execVfma (c : CrewRef) (slot : Slot48) (s : State) : Host.Outcome State Fault Refusal :=
  .next (s.vectorSlot 0x04 c slot.toNat (floatOp fun a b d => ((a.mul b).add d, [a, b, d])))

/-- VMIN (R181). -/
def execVmin (c : CrewRef) (slot : Slot48) (s : State) : Host.Outcome State Fault Refusal :=
  .next (s.vectorSlot 0x05 c slot.toNat fun f c => elementwise f c fun _ a b _ => minMax (modeFmt f.mode) false a b)

/-- VMAX (R181). -/
def execVmax (c : CrewRef) (slot : Slot48) (s : State) : Host.Outcome State Fault Refusal :=
  .next (s.vectorSlot 0x06 c slot.toNat fun f c => elementwise f c fun _ a b _ => minMax (modeFmt f.mode) true a b)

/-- Clear or invert the sign of an element as read (Table 7.4, R42, R43). -/
def signOp (neg : Bool) (m : Fmt) (w : Nat) : Nat :=
  if m.isNan w then m.canonNan
  else
    let x := m.asRead w
    let mag := x % 2 ^ (m.width - 1)
    if neg && x = mag then mag + 2 ^ (m.width - 1) else mag

/-- VABS (Table 7.4). -/
def execVabs (c : CrewRef) (slot : Slot48) (s : State) : Host.Outcome State Fault Refusal :=
  .next (s.vectorSlot 0x07 c slot.toNat fun f c =>
    elementwise f c fun _ a _ _ => (signOp false (modeFmt f.mode) a, Status.none))

/-- VNEG (Table 7.4). -/
def execVneg (c : CrewRef) (slot : Slot48) (s : State) : Host.Outcome State Fault Refusal :=
  .next (s.vectorSlot 0x08 c slot.toNat fun f c =>
    elementwise f c fun _ a _ _ => (signOp true (modeFmt f.mode) a, Status.none))

/-- VCMP (R181). -/
def execVcmp (c : CrewRef) (slot : Slot48) (s : State) : Host.Outcome State Fault Refusal :=
  .next (s.vectorSlot 0x09 c slot.toNat (compareOp fun f a b =>
    fcmp (f.aux % 8) ((modeFmt f.mode).decode a) ((modeFmt f.mode).decode b)))

/-- VSEL (Table 7.4). -/
def execVsel (c : CrewRef) (slot : Slot48) (s : State) : Host.Outcome State Fault Refusal :=
  .next (s.vectorSlot 0x0A c slot.toNat fun f c =>
    elementwise f c fun e a b _ => (if c.enabled f.mode f.vc e then a else b, Status.none))

/-- VCVT (R182). -/
def execVcvt (c : CrewRef) (slot : Slot48) (s : State) : Host.Outcome State Fault Refusal :=
  .next (s.vectorSlot 0x0B c slot.toNat cvtOp)

/-- VTR (R123, Table 5.2). -/
def execVtr (c : CrewRef) (slot : Slot48) (s : State) : Host.Outcome State Fault Refusal :=
  let cr := s.crew c
  let go := s.vectorSlot 0x0C c slot.toNat fun f c =>
    let m := modeFmt f.mode
    let b := Ncb.ofNat f.ncb
    elementwise f c fun e x y _ =>
      m.transcend b.sat b.rnd (if b.rnd = 2 then c.draw f.kb 0 e else 0) f.aux (m.decode x) (m.decode y)
  let f := VecSlot.ofNat slot.toNat
  .next (go.bumpIf (cr.active && f.op = 0x0C && (f.check cr slot.toNat false).isNone) (Reg.slcTransCnt c.stope))

/-- VIADD (R124). -/
def execViadd (c : CrewRef) (slot : Slot48) (s : State) : Host.Outcome State Fault Refusal :=
  .next (s.vectorSlot 0x10 c slot.toNat (intOp fun a b => a + b))

/-- VISUB (R124). -/
def execVisub (c : CrewRef) (slot : Slot48) (s : State) : Host.Outcome State Fault Refusal :=
  .next (s.vectorSlot 0x11 c slot.toNat (intOp fun a b => a - b))

/-- VIMUL (R124). -/
def execVimul (c : CrewRef) (slot : Slot48) (s : State) : Host.Outcome State Fault Refusal :=
  .next (s.vectorSlot 0x12 c slot.toNat (intOp fun a b => a * b))

/-- VAND (R124). -/
def execVand (c : CrewRef) (slot : Slot48) (s : State) : Host.Outcome State Fault Refusal :=
  .next (s.vectorSlot 0x13 c slot.toNat (intOp fun a b => a &&& b))

/-- VOR (R124). -/
def execVor (c : CrewRef) (slot : Slot48) (s : State) : Host.Outcome State Fault Refusal :=
  .next (s.vectorSlot 0x14 c slot.toNat (intOp fun a b => a ||| b))

/-- VXOR (R124). -/
def execVxor (c : CrewRef) (slot : Slot48) (s : State) : Host.Outcome State Fault Refusal :=
  .next (s.vectorSlot 0x15 c slot.toNat (intOp fun a b => a ^^^ b))

/-- VSHL (R124). -/
def execVshl (c : CrewRef) (slot : Slot48) (s : State) : Host.Outcome State Fault Refusal :=
  .next (s.vectorSlot 0x16 c slot.toNat (intOp fun a b => a <<< (b.toNat % 32)))

/-- VSHR (R124). -/
def execVshr (c : CrewRef) (slot : Slot48) (s : State) : Host.Outcome State Fault Refusal :=
  .next (s.vectorSlot 0x17 c slot.toNat (intOp fun a b => a >>> (b.toNat % 32)))

/-- VSAR (R124). -/
def execVsar (c : CrewRef) (slot : Slot48) (s : State) : Host.Outcome State Fault Refusal :=
  .next (s.vectorSlot 0x18 c slot.toNat (intOp fun a b => a.sshiftRight (b.toNat % 32)))

/-- VICMP (Table 7.4). -/
def execVicmp (c : CrewRef) (slot : Slot48) (s : State) : Host.Outcome State Fault Refusal :=
  .next (s.vectorSlot 0x19 c slot.toNat (compareOp fun f a b => icmp f.aux a b))

/-- PAND (Table 7.4). -/
def execPand (c : CrewRef) (slot : Slot48) (s : State) : Host.Outcome State Fault Refusal :=
  .next (s.vectorSlot 0x1C c slot.toNat (predOp fun a b => a &&& b))

/-- POR (Table 7.4). -/
def execPor (c : CrewRef) (slot : Slot48) (s : State) : Host.Outcome State Fault Refusal :=
  .next (s.vectorSlot 0x1D c slot.toNat (predOp fun a b => a ||| b))

/-- PXOR (Table 7.4). -/
def execPxor (c : CrewRef) (slot : Slot48) (s : State) : Host.Outcome State Fault Refusal :=
  .next (s.vectorSlot 0x1E c slot.toNat (predOp fun a b => a ^^^ b))

/-- PNOT (Table 7.4). -/
def execPnot (c : CrewRef) (slot : Slot48) (s : State) : Host.Outcome State Fault Refusal :=
  .next (s.vectorSlot 0x1F c slot.toNat (predOp fun a _ => 2 ^ 512 - 1 - a))

/-- VBCST (Table 7.4). -/
def execVbcst (c : CrewRef) (slot : Slot48) (s : State) : Host.Outcome State Fault Refusal :=
  .next (s.vectorSlot 0x20 c slot.toNat fun f c =>
    elementwise f c fun _ _ _ _ => (c.sr f.sx % 2 ^ elemWidth f.mode, Status.none))

/-- VIOTA (Table 7.4). -/
def execViota (c : CrewRef) (slot : Slot48) (s : State) : Host.Outcome State Fault Refusal :=
  .next (s.vectorSlot 0x21 c slot.toNat fun f c =>
    elementwise f c fun e _ _ _ => ((c.sr f.sx + e) % 2 ^ 32, Status.none))

/-- VDROP (R127, R183). -/
def execVdrop (c : CrewRef) (slot : Slot48) (s : State) : Host.Outcome State Fault Refusal :=
  .next (s.vectorSlot 0x24 c slot.toNat dropOp)

/-- VRAND (R127, R183). -/
def execVrand (c : CrewRef) (slot : Slot48) (s : State) : Host.Outcome State Fault Refusal :=
  .next (s.vectorSlot 0x25 c slot.toNat fun f c =>
    elementwise f c fun e _ _ _ => (c.draw f.kb 2 e, Status.none))

/-- What a check of a crew's bundle has found is handed to the deputy (R134, R137): the outcome of the instance is bad. -/
def State.sluiceBad (s : State) (c : CrewRef) (kind foff lanes : Nat) : State :=
  let tile := ((s.crew c).inst.map fun i => i.tile).getD 0
  let s := ((s.markBad c 2).bump (Reg.slcDupFailCnt c.stope)).find ⟨kind, c.stope, c.crew, tile, foff, lanes, [], []⟩
  s.raiseIf (s.flag Reg.slcCtrl Fld.slcCtrlDupFailEvent) 1

/-- VRED (R128-R134, R137, R184). Reductions are not duplicated (R136); `red.mismatch` says that the two comparator trees of a selecting
reduction differ, or that the residue of a sum does (R134, R137). (DESIGN CHOICE: notes/assumptions/94) -/
def execVred (c : CrewRef) (red : RedSlot) (s : State) : Host.Outcome State Fault Refusal :=
  let cr := s.crew c
  let f := VecSlot.ofNat red.slot.toNat
  if !cr.active ∨ f.op ≠ 0x28 then .next s
  else match f.check cr red.slot.toNat (redLimit f cr) with
    | some k => .next (s.skipSlot c 1 k)
    | none =>
      let r := redOp f cr
      let s := (s.vecDone c r.1 r.2).bump (Reg.slcRedCnt c.stope)
      .next (if red.mismatch then s.sluiceBad c (if f.kind ≤ 2 then 2 else 1) cr.curFoff 0 else s)

/-- DUPLICATE_COMPLETE (R137): the oldest issued duplicate completes; a mismatch with its original makes the outcome
of the instance bad. -/
def execDuplicateComplete (c : CrewRef) (mismatch : Bool) (s : State) : Host.Outcome State Fault Refusal :=
  let cr := s.crew c
  match cr.dups.find? (·.issued) with
  | none => .next s
  | some d =>
    let s := s.setCrew c { cr with dups := cr.dups.erase d }
    let s := s.bump (Reg.slcDupCnt c.stope)
    .next (if mismatch then s.sluiceBad c 0 d.foff d.lanes else s)

end Sys2Proof.Machine
end

