-- ==== Sys2Proof/Machine/Load.lean ====
section
/-!
DEFINITION. The load slot (07 R189-R192, R195, R196), the post row (10 R269) and lode conversion (05 R130).
-/
namespace Sys2Proof.Machine

/-- The effective face offset of a load or store slot: (s[A] + OFF) mod 2^64 (R196). -/
def Crew.effOff (c : Crew) (w : Nat) : Nat := (c.sr (bits w 28 24) + ofInt 64 (sext 16 w)) % 2 ^ 64

/-- An access that fails R196: not below 3 MiB, or misaligned. -/
def badAccess (ea size align : Nat) : Bool := decide (faceSize < ea + size) || ea % align ≠ 0

/-- The size of an LDS, STS, LDXCH or STADD access from its two size bits. -/
def sizeOf2 (m : Nat) : Nat := 2 ^ (m % 4)

/-- Does an access of `n` bytes at a face offset reach the post row (10 R269). -/
def hitsPost (ea n : Nat) : Bool := decide (postRow < ea + n)

/-- Free entries of the post queue of a stope skip (10 R269, R270). -/
def State.postFree (s : State) (stope : Nat) : Nat :=
  64 - ((s.skip stope).streams.filter fun x =>
    match x.use, x.phase with
    | .posted .., .queued => true
    | _, _ => false).length

/-- A crew reads `n` bytes of its face (R189, 10 R269): the post row reads 0, a marked word makes the outcome bad and
its data are a free value (09 R255). -/
def State.crewRead (s : State) (c : CrewRef) (ea n : Nat) : State × Nat :=
  let live := if hitsPost ea n then postRow - ea else n
  let r := s.readMem (faceBase c.stope + ea) live
  (if r.2.2 then r.1.markBad c 4 else r.1, r.2.1)

/-! ## Lode conversion (05 R130) -/

/-- Convert f(source) of a full lode with one rounding (R130, Table 5.3). `n` is the term tally. -/
def lodeConv (f : Fmt) (sat : Bool) (rnd r tr : Nat) (src : Val) (n : Nat) (eps : Val) : Nat × Status :=
  let root := fun (fn : Nat) (v : Val) => f.transcend sat rnd r fn v (.zero false)
  let past := fun (v : Val) => match v with
    | .num neg a b => Val.num neg a (b * n)
    | v => v
  if (tr = 1 ∨ tr = 3 ∨ tr = 4) ∧ n = 0 then f.invalidNan
  else match tr, src with
    | 0, v => f.convert sat rnd r v
    | 1, v => f.convert sat rnd r (past v)
    | 2, .huge false => f.convert sat rnd r (.huge false)
    | 3, .huge false => f.convert sat rnd r (.huge false)
    | 2, v => root 2 v
    | 3, v => root 2 (past v)
    | _, .huge neg =>
      (match eps with
       | .nan => (f.canonNan, Status.none)
       | .inf e => root 3 (.inf e)
       | _ => root 3 (.inf neg))
    | _, v =>
      let z := (past v).add eps
      if z.isNan && !v.isNan && !eps.isNan then f.invalidNan else root 3 z

/-! ## The load slot -/

/-- Cause RSVD_FIELD of a load slot (R173, Table 7.10). -/
def loadBadField (op w : Nat) : Bool :=
  let mod := bits w 23 16
  match op with
  | 1 => mod / 8 ≠ 0
  | 2 | 4 => mod ≠ 0
  | 3 => mod / 16 ≠ 0
  | 5 => mod / 128 ≠ 0 || bits mod 6 5 < 2
  | _ => bits w 23 21 ≠ 0 || 5 ≤ bits w 7 5

/-- Cause NCB of a load slot (R190, R191). -/
def loadBadNcb (op w : Nat) : Bool :=
  match op with
  | 3 => bits w 18 16 < 3
  | 6 =>
    let b := Ncb.ofNat (bits w 15 8)
    !b.ok || b.mx || 2 < b.fmt
  | _ => false

/-- Bytes that a load accesses. -/
def loadSize (op w : Nat) : Nat :=
  match op with
  | 1 => sizeOf2 (bits w 17 16)
  | 2 => 2048
  | 3 => packedBytes (bits w 18 16) (if w.testBit 19 then 512 else 1024)
  | 4 => 64
  | 5 => sizeOf2 (bits w 22 21)
  | _ => 96

/-- The alignment of a load (Table 7.10). -/
def loadAlign (op w : Nat) : Nat :=
  match op with
  | 1 | 5 => loadSize op w
  | 6 => 16
  | _ => 64

/-- The face offset that a load accesses: s[A] for LDLC, the effective offset otherwise (R196). -/
def Crew.loadOff (c : Crew) (op w : Nat) : Nat := if op = 6 then c.sr (bits w 28 24) else c.effOff w

/-- Cause REG of a load slot (R174, R190, R196). -/
def loadBadReg (op w : Nat) (c : Crew) : Bool :=
  let d := bits w 33 29
  ((op = 2 ∨ op = 3 ∨ op = 4) ∧ 7 < d) ||
  (op = 3 && w.testBit 19 && (30 < bits w 28 24 || badAccess (c.sr (bits w 28 24 + 1)) 16 16)) ||
  (op = 6 && (Ncb.ofNat (bits w 15 8)).rnd = 2 && 30 ≤ bits w 20 16) ||
  badAccess (c.loadOff op w) (loadSize op w) (loadAlign op w)

/-- The register a load writes. -/
def loadDst (op w : Nat) : RegRef :=
  let d := bits w 33 29
  match op with
  | 2 | 3 => .v d
  | 4 => .p d
  | _ => .s d

/-- A load slot of opcode `op` issues: it is skipped with the first cause that applies, or performs `f` at its face
offset. The bundle's store slot may follow (R147, 09 R252). It waits for a bank that a locked sequence holds (09 R247). -/
def State.loadSlot (s : State) (op : Nat) (c : CrewRef) (w : Nat) (f : State → Crew → Nat → State) : State :=
  let cr := s.crew c
  if !cr.active then s
  else if bits w 39 34 = op then
    if s.heldAt (faceBase c.stope + cr.loadOff op w) (loadSize op w) then s
    else
    let s := s.modCrew c fun x => { x with loadDue := false }
    match firstCause [(loadBadField op w, 2), (loadBadNcb op w, 3), (loadBadReg op w cr, 6),
        (loadDst op w ≠ .p 0 && cr.dual [loadDst op w], 9)] with
    | some k => s.skipSlot c 3 k
    | none => f s cr (cr.loadOff op w)
  else if op = 1 ∧ !(loadOps.contains (bits w 39 34)) then
    (s.modCrew c fun x => { x with loadDue := false }).skipSlot c 3 1
  else s

/-- LDS (Table 7.10, 10 R269). -/
def loadScalar (c : CrewRef) (w : Nat) (s : State) (_ : Crew) (ea : Nat) : State :=
  let n := sizeOf2 (bits w 17 16)
  let r := if ea = postRow + 8 ∧ n = 8 then (s, s.postFree c.stope) else s.crewRead c ea n
  let v := if w.testBit 18 then ofInt 64 (sext (8 * n) r.2) else r.2
  r.1.modCrew c fun x => x.wS (bits w 33 29) v

/-- LDS (Table 7.10): s[D] from 1, 2, 4 or 8 bytes. -/
def execLds (c : CrewRef) (slot : Slot40) (s : State) : Host.Outcome State Fault Refusal :=
  .next (s.loadSlot 0x01 c slot.toNat (loadScalar c slot.toNat))

/-- LDV (Table 7.10): v[D] from 2,048 bytes. -/
def execLdv (c : CrewRef) (slot : Slot40) (s : State) : Host.Outcome State Fault Refusal :=
  .next (s.loadSlot 0x02 c slot.toNat fun s _ ea =>
    let r := s.crewRead c ea 2048
    r.1.modCrew c fun x => x.wV (bits slot.toNat 33 29) r.2)

/-- LDVW (R190, R120): widened elements, exactly as binary16, or as binary32 lanes with their scales applied. -/
def loadWide (c : CrewRef) (w : Nat) (s : State) (cr : Crew) (ea : Nat) : State :=
  let code := bits w 18 16
  let f := Fmt.ofCode code
  let r := s.crewRead c ea (loadSize 3 w)
  if w.testBit 19 then
    let x := r.1.crewRead c (cr.sr (bits w 28 24 + 1)) 16
    let l := (List.range 512).map fun e =>
      (Fmt.ofCode 0).convert false 0 0 (f.decodeScaled (getBytes x.2 (e / 32) 1) (packedElem code r.2 e))
    (x.1.modCrew c fun y => y.wV (bits w 33 29) (packElems 32 (l.map (·.1)))).countStatus c.stope
      ((l.map (·.2)).foldl Status.or Status.none)
  else
    let l := (List.range 1024).map fun e => ((Fmt.ofCode 2).convert false 0 0 (f.decode (packedElem code r.2 e))).1
    r.1.modCrew c fun y => y.wV (bits w 33 29) (packElems 16 l)

/-- LDVW (R190): the widening load. -/
def execLdvw (c : CrewRef) (slot : Slot40) (s : State) : Host.Outcome State Fault Refusal :=
  .next (s.loadSlot 0x03 c slot.toNat (loadWide c slot.toNat))

/-- LDP (Table 7.10): p[D] from 64 bytes. -/
def execLdp (c : CrewRef) (slot : Slot40) (s : State) : Host.Outcome State Fault Refusal :=
  .next (s.loadSlot 0x04 c slot.toNat fun s _ ea =>
    let r := s.crewRead c ea 64
    r.1.modCrew c fun x => x.wP (bits slot.toNat 33 29) r.2)

/-- A write or atomic that reaches the post row is discarded and counted (10 R269). -/
def State.postBad (s : State) (stope : Nat) : State := s.bump (Reg.skpPostBadCnt stope)

/-- LDXCH (Table 7.10, 09 R248, R541): atomic swap at the bank. -/
def loadSwap (c : CrewRef) (w : Nat) (s : State) (cr : Crew) (ea : Nat) : State :=
  let n := sizeOf2 (bits w 22 21)
  let pa := faceBase c.stope + ea
  if hitsPost ea n then (s.postBad c.stope).modCrew c fun x => x.wS (bits w 33 29) 0
  else if s.marked pa n then
    ((s.noteMarks pa n).markBad c 4).modCrew c fun x => x.wS (bits w 33 29) 0
  else
    let old := s.readLE pa n
    ((s.writeMem pa n (cr.sr (bits w 20 16) % 2 ^ (8 * n)) (allBytes n)).holdAtomic pa n 5 4 (some c)).modCrew c fun x =>
      x.wS (bits w 33 29) old

/-- LDXCH (Table 7.10): s[D] takes the old word, memory takes s[MOD[4:0]]. -/
def execLdxch (c : CrewRef) (slot : Slot40) (s : State) : Host.Outcome State Fault Refusal :=
  .next (s.loadSlot 0x05 c slot.toNat (loadSwap c slot.toNat))

/-- LDLC (R191): the converted bits of a full lode image, or the canonical NaN when the image is of another kind. -/
def loadConv (c : CrewRef) (w : Nat) (s : State) (cr : Crew) (ea : Nat) : State :=
  let b := Ncb.ofNat (bits w 15 8)
  let f := Fmt.ofCode b.fmt
  let r := s.crewRead c ea 96
  let z :=
    if fullImageKind r.2 ≠ 2 then f.invalidNan
    else
      let l := (LodeAcc.ofImage 2 r.2).1
      lodeConv f b.sat b.rnd (if b.rnd = 2 then cr.draw (bits w 20 16) 0 0 else 0) (bits w 7 5) (l.source 2 0)
        l.terms ((Fmt.ofCode 0).decode (cr.sr (bits w 4 0) % 2 ^ 32))
  (r.1.modCrew c fun x => x.wS (bits w 33 29) z.1).countStatus c.stope z.2

/-- LDLC (R191): lode conversion. -/
def execLdlc (c : CrewRef) (slot : Slot40) (s : State) : Host.Outcome State Fault Refusal :=
  .next (s.loadSlot 0x06 c slot.toNat (loadConv c slot.toNat))

end Sys2Proof.Machine
end

