-- ==== Sys2Proof/Machine/StoreSlot.lean ====
section
/-!
DEFINITION. The store slot (07 R193-R196), posts to the post row (10 R269, R270) and lode-adds of elements (03 R91).
-/
namespace Sys2Proof.Machine

/-- Cause RSVD_FIELD of a store slot (R173, Table 7.12). -/
def storeBadField (op w : Nat) : Bool :=
  let mod := bits w 23 16
  match op with
  | 1 => mod / 4 ≠ 0
  | 3 => mod ≠ 0
  | 4 => mod / 4 ≠ 0 || mod % 4 < 2
  | _ => mod / 16 ≠ 0

/-- Cause NCB of a store slot: an MX lode-add of an unscaled format (R194). -/
def storeBadNcb (op w : Nat) : Bool := op = 5 && w.testBit 19 && bits w 18 16 < 3

/-- Bytes that a store accesses (Table 7.12). -/
def storeSize (op w : Nat) : Nat :=
  match op with
  | 1 | 4 => sizeOf2 (bits w 17 16)
  | 2 => 2048
  | 3 => 64
  | _ => 96

/-- The alignment of a store (Table 7.12). -/
def storeAlign (op w : Nat) : Nat :=
  match op with
  | 1 | 4 => storeSize op w
  | 5 => 16
  | _ => 64

/-- Cause REG of a store slot (R174, R193, R196). -/
def storeBadReg (op w : Nat) (c : Crew) : Bool :=
  ((op = 2 ∨ op = 3) ∧ 7 < bits w 33 29) || (op = 2 && w.testBit 19 && w.testBit 16) ||
  badAccess (c.effOff w) (storeSize op w) (storeAlign op w)

/-- A store slot of opcode `op` issues: it is skipped with the first cause that applies, or performs `f` at its face
offset. It waits for the load slot of its bundle (06 R147, 09 R252), and for a bank that a locked sequence holds (09 R247). -/
def State.storeSlot (s : State) (op : Nat) (c : CrewRef) (w : Nat) (f : State → Crew → Nat → State) : State :=
  let cr := s.crew c
  if !cr.active || cr.loadDue then s
  else if bits w 39 34 = op then
    if s.heldAt (faceBase c.stope + cr.effOff w) (storeSize op w) then s
    else
    match firstCause [(storeBadField op w, 2), (storeBadNcb op w, 3), (storeBadReg op w cr, 6)] with
    | some k => s.skipSlot c 4 k
    | none => f s cr (cr.effOff w)
  else if op = 1 ∧ !(storeOps.contains (bits w 39 34)) then s.skipSlot c 4 1
  else s

/-- A crew writes enabled bytes of its face; bytes that reach the post row are discarded and counted (10 R269). -/
def State.crewWrite (s : State) (c : CrewRef) (ea n v en : Nat) : State :=
  let live := if hitsPost ea n then postRow - ea else n
  let s := s.bumpIf (decide (en / 2 ^ live ≠ 0)) (Reg.skpPostBadCnt c.stope)
  if en % 2 ^ live = 0 then s
  else s.faceWrite c.stope ea live (v % 2 ^ (8 * live)) (en % 2 ^ live)

/-- A crew posts a stream descriptor (10 R269, R270): it joins the post queue of the stope skip. A bundle that would
post to a full queue does not issue: nothing is performed. -/
def State.post (s : State) (c : CrewRef) (v : Nat) : State :=
  match (s.crew c).inst with
  | none => s
  | some i =>
    if s.postFree c.stope = 0 then s
    else
      let r := s.newId
      let x : Stream :=
        { Stream.waiting r.1 (.posted c.crew i.tile i.nPost i.order) i.step v false with
          shadow := i.shadow
          pair := i.pair
          expect := (i.restart.streams.find? fun r => r.idx = i.nPost).map fun r => r.residue }
      let s := r.2.setSkip c.stope { r.2.skip c.stope with streams := (r.2.skip c.stope).streams ++ [x] }
      s.modInst c fun i => { i with nPost := i.nPost + 1 }

/-- STS (Table 7.12): the low bytes of s[B]; 8 bytes at the start of the post row post a stream. -/
def storeScalar (c : CrewRef) (w : Nat) (s : State) (cr : Crew) (ea : Nat) : State :=
  let n := sizeOf2 (bits w 17 16)
  let v := cr.sr (bits w 33 29)
  if ea = postRow ∧ n = 8 then s.post c v else s.crewWrite c ea n (v % 2 ^ (8 * n)) (allBytes n)

/-- STS (Table 7.12). -/
def execSts (c : CrewRef) (slot : Slot40) (s : State) : Host.Outcome State Fault Refusal :=
  .next (s.storeSlot 0x01 c slot.toNat (storeScalar c slot.toNat))

/-- The byte enables of STV: per lane, or per 16-bit element with a predicate pair (R193). -/
def stvEnables (c : Crew) (w : Nat) : Nat :=
  let q := bits w 18 16
  let unit := if w.testBit 19 then 2 else 4
  packElems unit ((List.range (2048 / unit)).map fun e =>
    if c.enabled (if w.testBit 19 then 1 else 0) q e then allBytes unit else 0)

/-- STV (Table 7.12). -/
def execStv (c : CrewRef) (slot : Slot40) (s : State) : Host.Outcome State Fault Refusal :=
  .next (s.storeSlot 0x02 c slot.toNat fun s cr ea =>
    s.crewWrite c ea 2048 (cr.vr (bits slot.toNat 33 29)) (stvEnables cr slot.toNat))

/-- STP (Table 7.12). -/
def execStp (c : CrewRef) (slot : Slot40) (s : State) : Host.Outcome State Fault Refusal :=
  .next (s.storeSlot 0x03 c slot.toNat fun s cr ea =>
    s.crewWrite c ea 64 (cr.pr (bits slot.toNat 33 29)) (allBytes 64))

/-- STADD (Table 7.12, 09 R248, R541): atomic integer add at the bank. -/
def storeAdd (c : CrewRef) (w : Nat) (s : State) (cr : Crew) (ea : Nat) : State :=
  let n := sizeOf2 (bits w 17 16)
  let pa := faceBase c.stope + ea
  if hitsPost ea n then s.postBad c.stope
  else if s.marked pa n then (s.noteMarks pa n).markBad c 4
  else (s.writeMem pa n ((s.readLE pa n + cr.sr (bits w 33 29)) % 2 ^ (8 * n)) (allBytes n)).holdAtomic pa n 6 6 (some c)

/-- STADD (Table 7.12). -/
def execStadd (c : CrewRef) (slot : Slot40) (s : State) : Host.Outcome State Fault Refusal :=
  .next (s.storeSlot 0x04 c slot.toNat (storeAdd c slot.toNat))

/-- Add a full-lode value into the full image at a physical address (03 R91, 05 R128, R540): the state, and whether
the image was refused because its kind byte is not 2 (05 R129). -/
def State.lodeAdd (s : State) (pa : Nat) (v : LodeAcc) : State × Bool :=
  let img := s.readLE pa 96
  if fullImageKind img ≠ 2 then (s, true)
  else
    (s.writeMem pa 96 (((LodeAcc.ofImage 2 img).1.addFull v).image 2 0 0) (allBytes 96), false)

/-- STLADD (R194): one element is added into the full lode image at the effective offset. -/
def storeLode (c : CrewRef) (w : Nat) (s : State) (cr : Crew) (ea : Nat) : State :=
  let pa := faceBase c.stope + ea
  let b := cr.sr (bits w 33 29)
  let f := Fmt.ofCode (bits w 18 16)
  if hitsPost ea 96 then s.postBad c.stope
  else if s.marked pa 96 then (s.noteMarks pa 96).markBad c 4
  else
    let r := (s.holdAtomic pa 96 6 (lodeCycles ea) (some c)).lodeAdd pa (f.elemLode (w.testBit 19) (bits b 39 32) (b % 2 ^ f.width))
    if r.2 then r.1.modInst c fun i => { i with storeRefusals := i.storeRefusals ++ [cr.site] } else r.1

/-- STLADD (R194). -/
def execStladd (c : CrewRef) (slot : Slot40) (s : State) : Host.Outcome State Fault Refusal :=
  .next (s.storeSlot 0x05 c slot.toNat (storeLode c slot.toNat))

end Sys2Proof.Machine
end

