-- ==== Sys2Proof/Machine/Sync.lean ====
section
/-!
DEFINITION. The sync slot (07 R197-R204), tally waits (08 R225-R227, R231) and the signals of restarted runs
(16 R446, R447).
-/
namespace Sys2Proof.Machine

/-- The signals an instance's restart record may hold (16 R446). -/
def restartLimit : Nat := 64

/-- The instance makes one more recorded signal; past the limit it becomes unrestartable (R446). -/
def Instance.recordSignal (i : Instance) (r : SignalRec) : Instance :=
  if restartLimit ≤ i.restart.signals.length + i.done.signals.length then { i with done := { i.done with past := true } }
  else { i with done := { i.done with signals := i.done.signals ++ [r] } }

/-- A sync slot signals a tally: suppressed and compared below the rank of the restart record (R447), made otherwise;
a shadow run's signal is only compared (15 R405). -/
def State.crewSignal (s : State) (c : CrewRef) (r : SignalRec) : State :=
  match (s.crew c).inst with
  | none => s
  | some i =>
    let s := s.modInst c fun i => { i with nSignal := i.nSignal + 1 }
    if i.nSignal < i.restart.signals.length then
      let s := s.bump Reg.sftSuppressCnt
      if i.restart.signals[i.nSignal]? = some r then s else s.runDiffers c
    else
      let s := if i.shadow then s else s.modInst c fun i => i.recordSignal r
      s.offStope i ⟨2, [r.target, r.set.toNat, r.value]⟩ fun s => s.signalNamed r.target r.set r.value i.step.num

/-- Cause RSVD_FIELD of a sync slot (R173, Table 7.13, Table 7.14). -/
def syncBadField (op w : Nat) : Bool :=
  match op with
  | 1 | 2 => bits w 4 0 ≠ 0
  | 4 => bits w 9 5 ≠ 0
  | 8 | 9 => bits w 15 0 ≠ 0
  | 0x10 => bits w 25 0 ≠ 0
  | _ => false

/-- The register a sync slot writes. -/
def syncDst (op w : Nat) : List RegRef := if op = 3 ∨ op = 4 then [.s (bits w 4 0)] else []

/-- A sync slot of opcode `op` issues: it is skipped with the first cause that applies, or performs `f`. -/
def State.syncSlot (s : State) (op : Nat) (c : CrewRef) (w : Nat) (f : State → Crew → State) : State :=
  let cr := s.crew c
  if !cr.active then s
  else if bits w 31 26 = op then
    match firstCause [(syncBadField op w, 2), (cr.dual (syncDst op w), 9)] with
    | some k => s.skipSlot c 5 k
    | none => f s cr
  else if op = 1 ∧ !(syncOps.contains (bits w 31 26)) then s.skipSlot c 5 1
  else s

/-- The signal of TADD and TSET: tally TIDX and s[S][31:0] (Table 7.14). -/
def tiSignal (cr : Crew) (w : Nat) (set : Bool) : SignalRec := ⟨bits w 25 10, set, cr.sr (bits w 9 5) % 2 ^ 32⟩

/-- The signal of TADDX and TSETX: the tally named by s[S1] (R198), without its ignored bits, and s[S2][31:0]. -/
def txSignal (cr : Crew) (w : Nat) (set : Bool) : SignalRec :=
  let t := cr.sr (bits w 25 21)
  ⟨if t.testBit 34 then t % 2 ^ 35 else t % 2 ^ 16, set, cr.sr (bits w 20 16) % 2 ^ 32⟩

/-- TADD (Table 7.14, R202). -/
def execTadd (c : CrewRef) (slot : Slot32) (s : State) : Host.Outcome State Fault Refusal :=
  .next (s.syncSlot 0x01 c slot.toNat fun s cr => s.crewSignal c (tiSignal cr slot.toNat false))

/-- TSET (Table 7.14, R202). -/
def execTset (c : CrewRef) (slot : Slot32) (s : State) : Host.Outcome State Fault Refusal :=
  .next (s.syncSlot 0x02 c slot.toNat fun s cr => s.crewSignal c (tiSignal cr slot.toNat true))

/-- Begin the wait of a TWAIT (R199, R200). -/
def State.beginWait (s : State) (c : CrewRef) (cr : Crew) (w : Nat) : State :=
  let v := cr.sr (bits w 9 5)
  let n := bits w 25 10
  let t := bits v 62 32
  let wt : CrewWait :=
    { tally := n, thresh := v % 2 ^ 32, dst := bits w 4 0, timeout := t, frames := v.testBit 63, since := s.cycle,
      age := 0, left := t, declared := none, foff := cr.curFoff, sat := none, late := none }
  (s.setCrew c { s.crew c with wait := some wt }).setPhase c .waiting

/-- TWAIT (R199-R201, R203). -/
def execTwait (c : CrewRef) (slot : Slot32) (s : State) : Host.Outcome State Fault Refusal :=
  .next (s.syncSlot 0x03 c slot.toNat fun s cr => s.beginWait c cr slot.toNat)

/-- TREAD (Table 7.14): s[D] takes the count of tally TIDX. -/
def execTread (c : CrewRef) (slot : Slot32) (s : State) : Host.Outcome State Fault Refusal :=
  .next (s.syncSlot 0x04 c slot.toNat fun s _ =>
    s.modCrew c fun x => x.wS (bits slot.toNat 4 0) (s.tally (bits slot.toNat 25 10)))

/-- TADDX (R198, R202). -/
def execTaddx (c : CrewRef) (slot : Slot32) (s : State) : Host.Outcome State Fault Refusal :=
  .next (s.syncSlot 0x08 c slot.toNat fun s cr => s.crewSignal c (txSignal cr slot.toNat false))

/-- TSETX (R198, R202). -/
def execTsetx (c : CrewRef) (slot : Slot32) (s : State) : Host.Outcome State Fault Refusal :=
  .next (s.syncSlot 0x09 c slot.toNat fun s cr => s.crewSignal c (txSignal cr slot.toNat true))

/-- END (R204, 15 R426): the instance has ended; a canary's result is s[31]. -/
def execEndOp (c : CrewRef) (slot : Slot32) (s : State) : Host.Outcome State Fault Refusal :=
  .next (s.syncSlot 0x10 c slot.toNat fun s cr =>
    s.modInst c fun i => { i with ended := true, result := cr.liveS 31 })

/-- End a pending wait with a value for s[D]: the crew may issue again (R200). -/
def State.endWait (s : State) (c : CrewRef) (dst v : Nat) : State :=
  (s.modCrew c fun x => { (x.wS dst v) with wait := none }).setPhase c .running

/-- The first decoded command of a shaft resumes, once its wait is satisfied (08 R227). -/
def Shaft.resumed (h : Shaft) : Shaft :=
  match h.decoded with
  | c :: l => if c.met then { h with decoded := { c with sat := true } :: l } else h
  | [] => h

/-- TWAIT_SATISFIED (08 R227): a waiter whose wait was satisfied at the end of a cycle resumes. A crew's s[D] takes the count
observed; a shaft's first command may start. -/
def execTwaitSatisfied (w : Waiter) (s : State) : Host.Outcome State Fault Refusal :=
  match w with
  | .crew c =>
    (match (s.crew c).phase, (s.crew c).wait with
     | .waiting, some wt => (match wt.sat with
       | some n => .next (s.endWait c wt.dst n)
       | none => .next s)
     | _, _ => .next s)
  | .shaft n => .next { s with shafts := Store.modify Shaft.idle s.shafts n fun h => h.resumed }

/-- TWAIT_TIMEOUT (R200, R203, 08 R231): the wait of a crew has timed out at the end of its deadline cycle. -/
def execTwaitTimeout (c : CrewRef) (s : State) : Host.Outcome State Fault Refusal :=
  let cr := s.crew c
  match cr.phase, cr.wait, cr.inst with
  | .waiting, some wt, some i =>
    (match wt.late with
     | some (n, blocks) =>
      let s := s.bump Reg.tlyTimeoutCnt
      let s := if i.ballast then s.failCanary c 4
        else s.report i.step ⟨4, blocks, false, c.stope,
          packFields [(2, wt.tally), (2, c.stope), (1, c.crew), (4, wt.foff)]⟩
      .next (s.endWait c wt.dst (n + 2 ^ 63))
     | none => .next s)
  | _, _, _ => .next s

end Sys2Proof.Machine
end

