-- ==== Sys2Proof/Machine/Tensor.lean ====
section
/-!
DEFINITION. Tensor descriptors (08 R216, R217), element and scale addresses (02 R35, R36), and assay records
(03 R73, R74).
-/
namespace Sys2Proof.Machine

/-- The fields of a tensor descriptor (08 Table 8.4); `rsv` gathers its reserved bits. -/
def TensorDesc.ofNat (w : Nat) : TensorDesc :=
  let f := getBytes w 28 1
  { base := getBytes w 0 8, scale := getBytes w 8 8, assay := getBytes w 16 8, tid := getBytes w 24 4,
    fmt := f % 8, mx := f.testBit 3, stepScoped := f.testBit 4, rank := getBytes w 29 1, bdim := getBytes w 30 1,
    dim := [getBytes w 32 4, getBytes w 36 4, getBytes w 40 4, getBytes w 44 4],
    stride := [0, getBytes w 48 4, getBytes w 52 4, getBytes w 56 4],
    rsv := f / 32 + getBytes w 31 1 + getBytes w 60 4 }

/-- Extent of a dimension. -/
def TensorDesc.d (t : TensorDesc) (i : Nat) : Nat := t.dim.getD i 1
/-- Stride of a dimension in 64-byte units. -/
def TensorDesc.s (t : TensorDesc) (i : Nat) : Nat := if i < t.rank then t.stride.getD i 0 else 0

/-- Elements stored in a row of `n` elements: block padding, and 6-bit rows to a multiple of 4 (02 R35, R36). -/
def TensorDesc.stored (t : TensorDesc) (n : Nat) : Nat :=
  if t.mx && t.bdim = 0 then (n + 31) / 32 * 32
  else if (Fmt.ofCode t.fmt).width = 6 then (n + 3) / 4 * 4
  else n

/-- Bytes of `n` stored elements. -/
def TensorDesc.bytes (t : TensorDesc) (n : Nat) : Nat := (n * (Fmt.ofCode t.fmt).width + 7) / 8

/-- The stored extent of a dimension: a block dimension is completed to a multiple of 32 (02 R36). -/
def TensorDesc.ext (t : TensorDesc) (i : Nat) : Nat :=
  if t.mx && i = t.bdim then (t.d i + 31) / 32 * 32 else t.d i

/-- The strides of used dimensions are at least the padded size below them (R217); `below` in 64-byte units. -/
def TensorDesc.stridesOk (t : TensorDesc) : Nat → Nat → Nat → Bool
  | 0, _, _ => true
  | n + 1, i, below =>
    if i < t.rank then decide (below ≤ t.s i) && TensorDesc.stridesOk t n (i + 1) (t.ext i * t.s i) else true

/-- A descriptor is consistent (R217). -/
def TensorDesc.ok (t : TensorDesc) : Bool :=
  !(t.mx && t.fmt < 3) && 1 ≤ t.rank && t.rank ≤ 4 && t.bdim < t.rank &&
  (List.range 4).all (fun i => if i < t.rank then t.d i ≠ 0 else t.d i = 1) &&
  t.stridesOk 3 1 ((t.bytes (t.stored (t.d 0)) + 63) / 64) && t.rsv = 0 &&
  (t.mx || (t.scale = 0 && t.bdim = 0)) && t.base % 64 = 0 && t.scale % 64 = 0 && t.assay % 16 = 0

/-- Number of elements. -/
def TensorDesc.count (t : TensorDesc) : Nat := t.d 0 * t.d 1 * t.d 2 * t.d 3

/-- The indices of a logical linear index (R216). -/
def TensorDesc.index (t : TensorDesc) (n : Nat) : Nat × Nat × Nat × Nat :=
  (n % t.d 0, n / t.d 0 % t.d 1, n / (t.d 0 * t.d 1) % t.d 2, n / (t.d 0 * t.d 1 * t.d 2))

/-- Byte offset from BASE and bit offset of an element (R216, R35). -/
def TensorDesc.pos (t : TensorDesc) (i : Nat × Nat × Nat × Nat) : Nat × Nat :=
  let b := i.1 * (Fmt.ofCode t.fmt).width
  (64 * (i.2.1 * t.s 1 + i.2.2.1 * t.s 2 + i.2.2.2 * t.s 3) + b / 8, b % 8)

/-- Bytes that hold an element. -/
def TensorDesc.elemBytes (t : TensorDesc) (bit : Nat) : Nat := (bit + (Fmt.ofCode t.fmt).width + 7) / 8

/-- Extent of a dimension in blocks (R36). -/
def TensorDesc.grid (t : TensorDesc) (i : Nat) : Nat := if i = t.bdim then (t.d i + 31) / 32 else t.d i

/-- The index of an element's scale byte: row-major order of the block grid (R36). -/
def TensorDesc.scaleIdx (t : TensorDesc) (i : Nat × Nat × Nat × Nat) : Nat :=
  let g := fun (j v : Nat) => if j = t.bdim then v / 32 else v
  g 0 i.1 + t.grid 0 * (g 1 i.2.1 + t.grid 1 * (g 2 i.2.2.1 + t.grid 2 * g 3 i.2.2.2))

/-- Read the descriptor at a device virtual address: 64-byte aligned (R216). -/
def State.readDesc (s : State) (k : Option Nat) (va : Nat) : State × Option (TensorDesc × Bool) :=
  match s.devRead k va 64 with
  | (s, .stop _) => (s, none)
  | (s, .ok (w, bad)) => (s, if va % 64 = 0 then some (TensorDesc.ofNat w, bad) else none)

/-! ## Assay records (03 R73, R74) -/

/-- The largest assay exponent of stored elements: linear index, bits, scale byte. -/
def assayMax (f : Fmt) (mx : Bool) (l : List (Nat × Nat × Nat)) : Option Int :=
  l.foldl (fun m e =>
    match (if mx && e.2.2 = 0xFF then none else f.assayExp e.2.1) with
    | none => m
    | some x =>
      let x : Int := if mx then x + e.2.2 - 127 else x
      match m with
      | none => some x
      | some y => some (max x y)) none

/-- The FLAGS that stored elements set (Table 3.4). -/
def assayFlags (f : Fmt) (mx : Bool) (l : List (Nat × Nat × Nat)) : Nat :=
  let nan := l.any fun e => (mx && e.2.2 = 0xFF) || f.isNan e.2.1
  let inf := fun (neg : Bool) => l.any fun e =>
    !(mx && e.2.2 = 0xFF) && f.isInf e.2.1 && decide (bits e.2.1 (f.width - 1) (f.width - 1) = neg.toNat)
  nan.toNat + 2 * (inf false).toNat + 4 * (inf true).toNat + 8 * mx.toNat

/-- Raise one block byte (Table 3.4). -/
def assayBlock (rec_ : Nat) (f : Fmt) (e : Nat × Nat × Nat) : Nat :=
  match f.assayExp e.2.1 with
  | none => rec_
  | some x =>
    let o := 16 + e.1 / 64
    let old := getBytes rec_ o 1
    let new := (x + 128).toNat
    if old < new then rec_ + (new - old) * 2 ^ (8 * o) else rec_

/-- The record once `l` is stored, by `n` stores (R73, R74). -/
def assayRaise (rec_ n : Nat) (f : Fmt) (mx : Bool) (l : List (Nat × Nat × Nat)) : Nat :=
  let old := sext 16 (getBytes rec_ 0 2)
  let m := match assayMax f mx l with
    | none => old
    | some x => max old x
  let fl := (getBytes rec_ 2 1) ||| assayFlags f mx l
  let head := packFields [(2, ofInt 16 m), (1, fl), (1, 0), (4, getBytes rec_ 4 4 + n), (8, 0)]
  let body := rec_ - rec_ % 2 ^ 128 + head
  if mx then body else l.foldl (fun r e => assayBlock r f e) body

/-- A store into a tensor updates its assay record, or counts a failure (R73, R74); `stores` is 0 for a part of a store that is
not its last. -/
def State.assayStore (s : State) (k : Option Nat) (t : TensorDesc) (stores : Nat) (l : List (Nat × Nat × Nat)) : State :=
  if t.assay = 0 then s
  else
    let f := Fmt.ofCode t.fmt
    let n := if t.mx || l.isEmpty then 16 else 17 + (l.map (·.1)).foldl max 0 / 64
    match s.devRead k t.assay n with
    | (s, .stop _) => s.bump Reg.lodAssayFailCnt
    | (s, .ok (w, _)) =>
      match s.devWrite k t.assay n (assayRaise w stores f t.mx l) with
      | (s, .stop _) => s.bump Reg.lodAssayFailCnt
      | (s, .ok _) => s

/-- Clear the assay record of a descriptor (08 Table 8.3): MAX_EXP = 0x8000, FLAGS [2:0] = 0, STORES = 0, every block
byte 0. A failure is counted (R74). -/
def State.assayClear (s : State) (k : Option Nat) (t : TensorDesc) : State :=
  if t.assay = 0 then s
  else
    match s.devRead k t.assay 16 with
    | (s, .stop _) => s.bump Reg.lodAssayFailCnt
    | (s, .ok (w, _)) =>
      let n := if t.mx then 16 else 16 + (t.count + 63) / 64
      match s.devWrite k t.assay n (0x8000 + (getBytes w 2 1 / 8 * 8) * 2 ^ 16) with
      | (s, .stop _) => s.bump Reg.lodAssayFailCnt
      | (s, .ok _) => s

/-- MAX_EXP of an assay record, or the reason it cannot be read (03 R75, R76). -/
def State.assayExpOf (s : State) (k : Option Nat) (t : TensorDesc) : State × Option (Option Int) :=
  if t.assay = 0 then (s, some none)
  else
    match s.devRead k t.assay 16 with
    | (s, .stop _) => (s, none)
    | (s, .ok (w, _)) => (s, some (some (sext 16 w)))

end Sys2Proof.Machine
end

