-- ==== Sys2Proof/Machine/Matrix.lean ====
section
/-!
DEFINITION. The matrix slot (07 R185-R188): tile starts with their checks (R542), admission (04 R106) and
auto-anchor (03 R75, R76), MFREE and MWAIT.
-/
namespace Sys2Proof.Machine

/-- The fields of a matrix slot (Table 7.7). -/
structure MatSlot where
  op : Nat
  lh : Nat
  sa : Nat
  shape : Nat
  mx : Bool
  fmt : Nat
  ncb : Nat
  lcw : Nat
deriving DecidableEq, Repr

/-- Decode a matrix slot (Table 7.7). -/
def MatSlot.ofNat (w : Nat) : MatSlot :=
  ⟨bits w 47 42, bits w 41 37, bits w 36 32, bits w 31 29, w.testBit 28, bits w 27 25, bits w 24 17, bits w 16 1⟩

/-- The start code of a tile opcode (R185): 0 zero lodes, 1 images, 2 a retained context. -/
def MatSlot.start (m : MatSlot) : Nat := (m.op - 0x10) / 4
/-- The output code of a tile opcode (R185): 0 converted, 1 images, 2 retained. -/
def MatSlot.out (m : MatSlot) : Nat := m.op % 4

/-- Rows of a tile shape (04 Table 4.2). -/
def tileRows (shape : Nat) : Nat :=
  match shape with
  | 0 => 32
  | 1 => 64
  | 2 => 128
  | 3 => 32
  | _ => 128

/-- Columns of a tile shape (04 Table 4.2). -/
def tileCols (shape : Nat) : Nat :=
  match shape with
  | 0 => 32
  | 1 => 64
  | 2 => 32
  | 3 => 128
  | _ => 128

/-- Slab depth of a tile shape (04 Table 4.2). -/
def slabDepth (shape : Nat) : Nat :=
  match shape with
  | 0 => 1024
  | 4 => 256
  | _ => 512

/-- Passes per slab of a tile shape (04 Table 4.2). -/
def slabPasses (shape : Nat) : Nat := if shape = 4 then 4 else 1

/-- K padded to a multiple of 32 (04 R97). -/
def padK (k : Nat) : Nat := (k + 31) / 32 * 32

/-- Extent of a tile's output operands: M, N, K. -/
def TileCtx.m (t : TileCtx) : Nat := t.a.d 1
/-- N of a tile's operation. -/
def TileCtx.n (t : TileCtx) : Nat := t.b.d 1
/-- K of a tile's operation. -/
def TileCtx.k (t : TileCtx) : Nat := t.a.d 0

/-- The ends of the face spans, in bytes from face offset 0, that a tile reads as operands (R542). -/
def operandEnds (m : MatSlot) (a b : TensorDesc) (trow tcol : Nat) : List Nat :=
  let lastR := min (a.d 1) ((trow + 1) * tileRows m.shape) - 1
  let lastC := min (b.d 1) ((tcol + 1) * tileCols m.shape) - 1
  let nb := (a.d 0 + 31) / 32
  let row := fun (t : TensorDesc) (r n : Nat) => t.base + 64 * t.s 1 * r + t.bytes (t.stored n)
  [row a lastR (a.d 0), row b lastC (b.d 0)] ++
  (if m.mx then [a.scale + nb * (lastR + 1), b.scale + nb * (lastC + 1)] else [])

/-- The ends of the face spans of a tile's converted outputs: their elements, and the scale bytes of its own blocks (R542). -/
def outputEnds (m : MatSlot) (a b o : TensorDesc) (trow tcol : Nat) : List Nat :=
  let lastR := min (a.d 1) ((trow + 1) * tileRows m.shape) - 1
  let lastC := min (b.d 1) ((tcol + 1) * tileCols m.shape) - 1
  let upto := if (tcol + 1) * tileCols m.shape < o.d 0 then (tcol + 1) * tileCols m.shape else o.stored (o.d 0)
  [o.base + 64 * o.s 1 * lastR + o.bytes upto] ++
  (if o.mx then [o.scale + (o.d 0 + 31) / 32 * lastR + (lastC / 32 + 1)] else [])

/-- The end of the face span of a tile's lode images of `n` bytes (R542). -/
def imageEnd (m : MatSlot) (a b o : TensorDesc) (trow tcol n : Nat) : Nat :=
  let lastR := min (a.d 1) ((trow + 1) * tileRows m.shape) - 1
  let lastC := min (b.d 1) ((tcol + 1) * tileCols m.shape) - 1
  o.base + 64 * o.s 1 * lastR + 96 * lastC + n

/-- Does a span that ends here lie below the post row (R542). -/
def belowPost (e : Nat) : Bool := decide (e ≤ postRow)

/-- An output descriptor holds lode images: for output 1 and for start images (R542). -/
def MatSlot.images (m : MatSlot) : Bool := m.out = 1 || m.start = 1

/-- A descriptor as R217 judges it for lode images: its FMT, MX and SCALE are ignored (R542). -/
def TensorDesc.asImages (t : TensorDesc) : TensorDesc := { t with fmt := 3, mx := false, scale := 0, bdim := 0 }

/-- Does a descriptor name a face tensor of at most two dimensions (R542). -/
def faceDesc (t : TensorDesc) : Bool := t.base < 2 ^ 22 && t.scale < 2 ^ 22 && t.d 2 = 1 && t.d 3 = 1

/-- The conditions of R217, R59 and R542 on the descriptor of an operand alone. -/
def operandOk (m : MatSlot) (t : TensorDesc) : Bool :=
  t.ok && faceDesc t && t.fmt = m.fmt && t.mx = m.mx && t.bdim = 0

/-- The conditions of R217 and R542 on the output descriptor beside the operands. (DEDUCED: notes/assumptions/104) -/
def outputOk (m : MatSlot) (a b o : TensorDesc) : Bool :=
  let ncb := Ncb.ofNat m.ncb
  let o' := if m.out ≠ 0 && m.images then o.asImages else o
  o'.ok && faceDesc o' && o.bdim < o.rank && (o.mx || o.bdim = 0) && a.d 1 = o.d 1 && b.d 1 = o.d 0 &&
  (m.out ≠ 0 || (o.fmt = ncb.fmt && o.mx = ncb.mx && o.bdim = 0)) &&
  (!m.images || o.rank < 2 || (96 * o.d 0 + 63) / 64 ≤ o.s 1)

/-- The conditions of R542, R217 and R59 on the descriptors and coordinates of a tile, before the sizes of its images are
known. -/
def tileOk (m : MatSlot) (a b o : TensorDesc) (trow tcol : Nat) : Bool :=
  operandOk m a && operandOk m b && a.d 0 = b.d 0 && outputOk m a b o &&
  trow * tileRows m.shape < a.d 1 && tcol * tileCols m.shape < b.d 1 &&
  (operandEnds m a b trow tcol).all belowPost &&
  (m.out ≠ 0 || (outputEnds m a b o trow tcol).all belowPost) &&
  (!m.images || belowPost (imageEnd m a b o trow tcol 32))

/-- The outputs of a tile that lie inside M × N: tile row and column (04 R96). -/
def tileInside (shape trow tcol m n : Nat) : List (Nat × Nat) :=
  (List.range (tileRows shape)).flatMap fun i => (List.range (tileCols shape)).filterMap fun j =>
    if trow * tileRows shape + i < m ∧ tcol * tileCols shape + j < n then some (i, j) else none

/-- The table key of an output of a tile. -/
def outKey (shape i j : Nat) : Nat := i * tileCols shape + j

/-- The face offset of a lode image of the output tensor (R542). -/
def imageOff (o : TensorDesc) (row col : Nat) : Nat := o.base + 64 * row * o.s 1 + 96 * col

/-- The kind whose own kind byte stands in an image place (R89): full, then wide, then narrow. -/
def imageKind (img : Nat) : Option Nat :=
  [2, 1, 0].find? fun k => getBytes img (lodeWidth k / 8 + 1) 1 = k

/-- The start images of an MT.I tile (R542): their lodes by output, kind, anchor, and whether a word was marked;
`none` when they do not agree. -/
def State.startImages (s : State) (stope : Nat) (m : MatSlot) (o : TensorDesc) (trow tcol : Nat) :
    State × Option (Store LodeAcc × Nat × Int × Bool) :=
  let l := tileInside m.shape trow tcol (o.d 1) (o.d 0)
  let off := fun (p : Nat × Nat) => imageOff o (trow * tileRows m.shape + p.1) (tcol * tileCols m.shape + p.2)
  match l with
  | [] => (s, none)
  | p :: _ =>
    match imageKind (s.faceRead stope (off p) 96) with
    | none => (s, none)
    | some k =>
      let n := imageBytes k
      let a := (LodeAcc.ofImage k (s.faceRead stope (off p) n)).2
      let same := l.all fun p =>
        let w := s.faceRead stope (off p) n
        getBytes w (lodeWidth k / 8 + 1) 1 = k && decide ((LodeAcc.ofImage k w).2 = a)
      if !same then (s, none)
      else
        let r := l.foldl (fun (x : State × Store LodeAcc × Bool) p =>
          let y := x.1.readMem (faceBase stope + off p) n
          (y.1, Store.set LodeAcc.zero x.2.1 (outKey m.shape p.1 p.2) (LodeAcc.ofImage k y.2.1).1, x.2.2 || y.2.2))
          (s, [], false)
        (r.1, some (r.2.1, k, a, r.2.2))

/-- The kind and anchor of a tile with auto-anchor (03 R75, R76): the counts of R76 are made. With KIND = full, AMODE is ignored
(R71): no record is read and nothing is counted. (DESIGN CHOICE: notes/assumptions/100) -/
def State.tileAnchor (s : State) (stope : Nat) (l : Lcw) (a b : TensorDesc) : State × Nat × Int :=
  if l.kind = 2 then (s, 2, 0)
  else if !l.amode then (s, l.kind, l.anchor)
  else
    let x := s.assayExpOf (some stope) a
    let y := x.1.assayExpOf (some stope) b
    match x.2, y.2 with
    | some (some xa), some (some xb) => (y.1, l.kind, autoAnchor xa xb (padK (a.d 0)) l.kind)
    | p, q =>
      ((y.1.bump (Reg.lodNoAssayCnt stope)).bumpN Reg.lodAssayFailCnt (p.isNone.toNat + q.isNone.toNat), 2, 0)

/-- Does the output of a table key lie inside M × N (04 R96). -/
def keyInside (shape trow tcol m n key : Nat) : Bool :=
  decide (trow * tileRows shape + key / tileCols shape < m) && decide (tcol * tileCols shape + key % tileCols shape < n)

/-- The exact sums of start values per tile column and row, in units of 2^-300 (04 R114), over the outputs given. -/
def startChecks (shape kind : Nat) (anchor : Int) (l : Store LodeAcc) : CheckState :=
  let up := fun (v : Int) =>
    let e := lodeWeight kind anchor + 300
    if 0 ≤ e then v * 2 ^ e.toNat else v / 2 ^ (-e).toNat
  l.foldl (fun (c : CheckState) e =>
    let v := up e.2.val
    { c with col := Store.modify 0 c.col (e.1 % tileCols shape) (· + v)
             row := Store.modify 0 c.row (e.1 / tileCols shape) (· + v) }) CheckState.empty

/-- A tile context at its start: the first pass of its first slab is to run (04 R98). -/
def TileCtx.restart (t : TileCtx) : TileCtx :=
  { t with slab := 0, pass := 0, kpos := 0, phase := .ready, cells := [], first := none, recs := [], breached := false,
           outcome := none, chk := if t.check then startChecks t.shape t.kind t.anchor
             (t.lodes.filter fun e => keyInside t.shape t.trow t.tcol t.m t.n e.1) else CheckState.empty }

/-- The descriptor in a scalar register: none where it cannot be read. -/
def State.descIn (s : State) (stope : Nat) (cr : Crew) (i : Nat) : State × Option (TensorDesc × Bool) :=
  s.readDesc (some stope) (cr.sr i)

/-- The descriptors that a tile slot names (R542): A, B and output, and whether a word of one was marked. -/
def State.tileDescs (s : State) (stope : Nat) (cr : Crew) (sa : Nat) :
    State × Option (TensorDesc × TensorDesc × TensorDesc × Bool) :=
  let a := s.descIn stope cr sa
  let b := a.1.descIn stope cr (sa + 1)
  let o := b.1.descIn stope cr (sa + 2)
  match a.2, b.2, o.2 with
  | some x, some y, some z => (o.1, some (x.1, y.1, z.1, x.2 || y.2 || z.2))
  | _, _, _ => (o.1, none)

/-- The descriptors that exist when SA is above 28 break R542, so that the cause is OPERANDS before REG (06 R158): A in s[SA], B
and the output while their registers are in the file. (DEDUCED: notes/assumptions/104) -/
def State.descsBad (s : State) (stope : Nat) (cr : Crew) (m : MatSlot) : State × Bool :=
  let a := s.descIn stope cr m.sa
  let b := if m.sa ≤ 30 then a.1.descIn stope cr (m.sa + 1) else a
  let o := if m.sa ≤ 29 then b.1.descIn stope cr (m.sa + 2) else b
  match a.2, b.2, o.2 with
  | some x, some y, some z =>
    (o.1, !(operandOk m x.1) || !(operandOk m y.1) || decide (x.1.d 0 ≠ y.1.d 0) ||
      (m.sa ≤ 29 && !(outputOk m x.1 y.1 z.1)))
  | _, _, _ => (o.1, true)

/-- The bits that stand for a value that the image of a breached lode cannot hold (03 R89): open, and the same in every run that R3
makes alike. (DESIGN CHOICE: notes/assumptions/17) -/
def State.openBits (s : State) (stope : Nat) (t : TileCtx) (row col : Nat) (l : LodeAcc) : Nat :=
  if lodeFits t.kind l.val then 0
  else
    let i := (s.crew ⟨stope, t.crew⟩).inst
    let step := (i.map fun i => [(i.seed : Int), i.keyStep]).getD []
    (Config.breachedBits (step ++ [(t.tile : Int), t.odesc, row, col, t.kind, t.anchor, l.val, l.terms])).toNat

/-- Put a started tile into the drill: the crew's handle is pending until it commits (R187). -/
def State.startTile (s : State) (c : CrewRef) (lh : Nat) (t : TileCtx) : State :=
  let d := s.drill c.stope
  let s := s.setDrill c.stope { d with ctxs := d.ctxs.filter (·.id ≠ t.id) ++ [t.restart] }
  s.modCrew c fun x => { (x.setHandle lh (.pending t.id)) with written := .l lh :: x.written }

/-- The drill's control bits as a tile takes them at its admission, as they stood at the start of the cycle (03 R92, 04 R118). -/
def State.latchTile (s : State) (t : TileCtx) (l : Lcw) (level : Nat) : TileCtx :=
  { t with widen := l.autoWiden && !s.flagWas Reg.lodCtrl Fld.lodCtrlWidenOff
           quad := decide (t.shape = 0) && s.flagWas Reg.drlCtrl Fld.drlCtrlQuadShare
           check := decide (1 ≤ level)
           record := s.flagWas Reg.drlCtrl Fld.drlCtrlExcqEn
           recordEvent := s.flagWas Reg.lodCtrl Fld.lodCtrlBreachEvent
           skipEvent := s.flagWas Reg.drlCtrl Fld.drlCtrlChkSkipEvent }

/-- The context that a tile start names, with its descriptors, before kind, units and start values are known. -/
def newCtx (c : CrewRef) (i : Instance) (m : MatSlot) (cr : Crew) (a b o : TensorDesc) (id : Nat) : TileCtx :=
  { id, crew := c.crew, handle := m.lh, tile := i.tile, shape := m.shape, ncb := m.ncb, lcw := m.lcw, mx := m.mx,
    fmt := m.fmt, start := m.start, out := m.out, adesc := cr.sr m.sa, bdesc := cr.sr (m.sa + 1),
    odesc := cr.sr (m.sa + 2), a, b, o, trow := bits (cr.sr (m.sa + 3)) 31 0, tcol := bits (cr.sr (m.sa + 3)) 63 32,
    run := 0, kind := 2, anchor := 0, widen := false, quad := false, check := false, record := false,
    recordEvent := false, skipEvent := false, slab := 0, pass := 0, kpos := 0, phase := .ready, lodes := [], startLodes := [], startKind := 2, startAnchor := 0, cells := [],
    chk := CheckState.empty, first := none, recs := [], breached := false, outcome := none,
    units := 0 }

/-- Does the drill admit a tile of `need` units (04 R106): a context and the units are free, and no re-run waits for
units (R107). -/
def Drill.room (d : Drill) (need : Nat) : Bool :=
  decide (d.ctxs.length < 32) && decide (need ≤ d.unitsFree) && !(d.ctxs.any fun x => x.phase = .waitUnits)

/-- Admit a tile: it claims its units and holds its start values for a re-run (04 R106, 03 R79). -/
def State.admitTile (s : State) (c : CrewRef) (m : MatSlot) (t : TileCtx) (level : Nat) : State :=
  let r := s.newId
  r.2.startTile c m.lh (r.2.latchTile
    { t with id := r.1, units := tileUnits t.shape t.kind, startLodes := t.lodes,
             startKind := t.kind, startAnchor := t.anchor } (Lcw.ofNat m.lcw) level)

/-- Continue the retained context of a handle (R187, R188): it keeps its units, kind and anchor (03 R90). -/
def State.continueTile (s : State) (c : CrewRef) (m : MatSlot) (t : TileCtx) (level : Nat) : State :=
  s.startTile c m.lh (s.latchTile
    { t with startLodes := t.lodes, startKind := t.kind, startAnchor := t.anchor } (Lcw.ofNat m.lcw) level)

/-- What a tile start comes to when its slot issues: a skip with its cause, a new tile, or the next operation of a retained one;
`bad` says that a marked word was read. -/
inductive TileJudged where
  | skip (cause : Nat)
  | fresh (t : TileCtx) (bad : Bool)
  | retained (t : TileCtx) (bad : Bool)
deriving DecidableEq, Repr

/-- Image bytes that a tile of a kind may write at its commit: those of a full lode where it may widen (R542, 03 R79).
(DEDUCED: notes/assumptions/104) -/
def State.mayWrite (s : State) (m : MatSlot) (kind : Nat) : Nat :=
  imageBytes (if (Lcw.ofNat m.lcw).autoWiden && !s.flagWas Reg.lodCtrl Fld.lodCtrlWidenOff then 2 else kind)

/-- The images of a tile of a kind lie below the post row (R542): those it starts from and those it may write. -/
def State.imagesFit (s : State) (m : MatSlot) (a b o : TensorDesc) (trow tcol kind : Nat) : Bool :=
  (m.start ≠ 1 || belowPost (imageEnd m a b o trow tcol (imageBytes kind))) &&
  (m.out ≠ 1 || belowPost (imageEnd m a b o trow tcol (s.mayWrite m kind)))

/-- Judge a tile start whose descriptors obey R542, for a handle that is not pending (R185-R187): start images, then the
handle. -/
def State.judgeStart (s : State) (c : CrewRef) (i : Instance) (cr : Crew) (m : MatSlot) (a b o : TensorDesc) (bad : Bool)
    (old : Option TileCtx) : State × TileJudged :=
  let t := newCtx c i m cr a b o 0
  if m.start = 1 then
    match s.startImages c.stope m o t.trow t.tcol with
    | (s, none) => (s, .skip 5)
    | (s, some (l, k, an, bad')) =>
      if !s.imagesFit m a b o t.trow t.tcol k then (s, .skip 5)
      else if old.isSome then (s, .skip 7)
      else (s, .fresh { t with lodes := l, kind := k, anchor := if k = 2 then 0 else an } (bad || bad'))
  else if m.start = 2 then
    match old with
    | some x =>
      if !s.imagesFit m a b o t.trow t.tcol x.kind then (s, .skip 5)
      else if x.shape = m.shape && x.fmt = m.fmt && x.mx = m.mx then
        (s, .retained { t with id := x.id, kind := x.kind, anchor := x.anchor, lodes := x.lodes, units := x.units } bad)
      else (s, .skip 7)
    | none => (s, .skip 7)
  else
    let x := s.tileAnchor c.stope (Lcw.ofNat m.lcw) a b
    if !s.imagesFit m a b o t.trow t.tcol x.2.1 then (s, .skip 5)
    else if old.isSome then (s, .skip 7)
    else (x.1, .fresh { t with kind := x.2.1, anchor := x.2.2 } bad)

/-- Cause RSVD_FIELD of a matrix slot (R173, Table 7.8). -/
def matBadField (op w : Nat) : Bool :=
  if op = 0x20 ∨ op = 0x21 then bits w 36 0 ≠ 0 else w.testBit 0

/-- Judge a matrix slot that starts a tile, in the order of Table 6.4 (06 R158, R185-R187). -/
def State.judgeTile (s : State) (c : CrewRef) (i : Instance) (cr : Crew) (m : MatSlot) (w : Nat) : State × TileJudged :=
  match firstCause [(matBadField m.op w, 2), (!(Ncb.ofNat m.ncb).ok, 3), (!(Lcw.ofNat m.lcw).ok, 4),
      (decide (5 ≤ m.shape), 5)] with
  | some k => (s, .skip k)
  | none =>
    if 28 < m.sa then
      let r := s.descsBad c.stope cr m
      (r.1, .skip (if r.2 then 5 else 6))
    else
      match s.tileDescs c.stope cr m.sa with
      | (s, none) => (s, .skip 5)
      | (s, some (a, b, o, bad)) =>
        if !tileOk m a b o (bits (cr.sr (m.sa + 3)) 31 0) (bits (cr.sr (m.sa + 3)) 63 32) then (s, .skip 5)
        else
          let old := match cr.handle m.lh with
            | .retained id => (s.drill c.stope).ctxs.find? (·.id = id)
            | _ => none
          s.judgeStart c i cr m a b o bad old

/-- Does a judged tile start wait for its admission (04 R106). -/
def State.tileHeld (s : State) (stope : Nat) : TileJudged → Bool
  | .fresh t _ => !(s.drill stope).room (tileUnits t.shape t.kind)
  | _ => false

/-- A tile start of opcode `op` issues (R185-R187, 04 R106). A handle still pending or a tile not admitted holds the bundle back:
nothing is performed. -/
def State.tileSlot (s : State) (op : Nat) (c : CrewRef) (w : Nat) : State :=
  let cr := s.crew c
  let m := MatSlot.ofNat w
  if !cr.active then s
  else if m.op ≠ op then
    if op = 0x10 ∧ !(matrixOps.contains m.op) then s.skipSlot c 2 1 else s
  else match cr.handle m.lh, cr.inst with
    | .pending _, _ => s
    | _, none => s
    | _, some i =>
      let r := s.judgeTile c i cr m w
      if s.tileHeld c.stope r.2 then s
      else match r.2 with
        | .skip k => r.1.skipSlot c 2 k
        | .fresh t bad => (if bad then r.1.markBad c 4 else r.1).admitTile c m t i.level
        | .retained t bad => (if bad then r.1.markBad c 4 else r.1).continueTile c m t i.level

/-- MT.ZC (Table 7.8): a tile from zero lodes with converted output. -/
def execMtZc (c : CrewRef) (slot : Slot48) (s : State) : Host.Outcome State Fault Refusal :=
  .next (s.tileSlot 0x10 c slot.toNat)

/-- MT.ZL (Table 7.8): a tile from zero lodes with lode images as output. -/
def execMtZl (c : CrewRef) (slot : Slot48) (s : State) : Host.Outcome State Fault Refusal :=
  .next (s.tileSlot 0x11 c slot.toNat)

/-- MT.ZR (Table 7.8): a tile from zero lodes, retained. -/
def execMtZr (c : CrewRef) (slot : Slot48) (s : State) : Host.Outcome State Fault Refusal :=
  .next (s.tileSlot 0x12 c slot.toNat)

/-- MT.IC (Table 7.8): a tile from lode images with converted output. -/
def execMtIc (c : CrewRef) (slot : Slot48) (s : State) : Host.Outcome State Fault Refusal :=
  .next (s.tileSlot 0x14 c slot.toNat)

/-- MT.IL (Table 7.8): a tile from lode images, written back in place. -/
def execMtIl (c : CrewRef) (slot : Slot48) (s : State) : Host.Outcome State Fault Refusal :=
  .next (s.tileSlot 0x15 c slot.toNat)

/-- MT.IR (Table 7.8): a tile from lode images, retained. -/
def execMtIr (c : CrewRef) (slot : Slot48) (s : State) : Host.Outcome State Fault Refusal :=
  .next (s.tileSlot 0x16 c slot.toNat)

/-- MT.HC (Table 7.8): a tile from a retained context with converted output. -/
def execMtHc (c : CrewRef) (slot : Slot48) (s : State) : Host.Outcome State Fault Refusal :=
  .next (s.tileSlot 0x18 c slot.toNat)

/-- MT.HL (Table 7.8): a tile from a retained context with lode images as output. -/
def execMtHl (c : CrewRef) (slot : Slot48) (s : State) : Host.Outcome State Fault Refusal :=
  .next (s.tileSlot 0x19 c slot.toNat)

/-- MT.HR (Table 7.8): a tile from a retained context, retained again. -/
def execMtHr (c : CrewRef) (slot : Slot48) (s : State) : Host.Outcome State Fault Refusal :=
  .next (s.tileSlot 0x1A c slot.toNat)

/-- MFREE (Table 7.8, R187): frees the retained context of l[LH]; no effect on an invalid handle. -/
def execMfree (c : CrewRef) (slot : Slot48) (s : State) : Host.Outcome State Fault Refusal :=
  let cr := s.crew c
  let m := MatSlot.ofNat slot.toNat
  if !cr.active ∨ m.op ≠ 0x20 then .next s
  else match cr.handle m.lh with
    | .pending _ => .next s
    | h =>
      if matBadField 0x20 slot.toNat then .next (s.skipSlot c 2 2)
      else match h with
        | .retained id => .next ((s.freeCtx c.stope id).modCrew c fun x =>
            { (x.setHandle m.lh .invalid) with written := .l m.lh :: x.written })
        | _ => .next s

/-- MWAIT (Table 7.8, R187): its bundle issues once l[LH] is not pending; it changes nothing. -/
def execMwait (c : CrewRef) (slot : Slot48) (s : State) : Host.Outcome State Fault Refusal :=
  let cr := s.crew c
  let m := MatSlot.ofNat slot.toNat
  if !cr.active ∨ m.op ≠ 0x21 then .next s
  else match cr.handle m.lh with
    | .pending _ => .next s
    | _ => if matBadField 0x21 slot.toNat then .next (s.skipSlot c 2 2) else .next s

end Sys2Proof.Machine
end

