-- ==== Sys2Proof/Machine/Drill.lean ====
section
/-!
DEFINITION. The drill (04 R93-R118; 03 R59-R90): passes, array cycles with pans and splits, folds, breaches, widened
re-runs, exact checks and commits.
-/
namespace Sys2Proof.Machine

/-! ## Tiles on the array -/

/-- Group size of an operand format (R93). -/
def groupSize (code : Nat) : Nat :=
  match code with
  | 0 => 1
  | 1 | 2 => 2
  | 7 => 8
  | _ => 4

/-- Fraction width F of a product (03 R60). -/
def prodFrac (code : Nat) : Int := 2 * (Fmt.ofCode code).mbits

/-- The outputs of a pass (R98): first row, last row + 1, first column, last column + 1. -/
def TileCtx.region (t : TileCtx) : Nat × Nat × Nat × Nat :=
  if t.shape = 4 then
    let r := t.pass / 2 * 64
    let c := t.pass % 2 * 64
    (r, r + 64, c, c + 64)
  else (0, tileRows t.shape, 0, tileCols t.shape)

/-- The part of the array that an output of a tile sits in, on a place of the array (R103, Table 4.2): 4 times its quadrant plus the
row group of 8 rows within it. -/
def rowGroup (place shape i j : Nat) : Nat :=
  if place < 4 then 4 * place + i / 8
  else
    let row := if shape = 3 then i + (if 64 ≤ j then 32 else 0) else i % 64
    let col := if shape = 2 then j + (if 64 ≤ i then 32 else 0) else j % 64
    4 * (row / 32 * 2 + col / 32) + row % 32 / 8

/-- First reduction index of the current slab (R97). -/
def TileCtx.slabStart (t : TileCtx) : Nat := t.slab * slabDepth t.shape
/-- One past the last reduction index of the current slab (R97). -/
def TileCtx.slabEnd (t : TileCtx) : Nat := min (padK t.k) (t.slabStart + slabDepth t.shape)

/-- Is the tile running on a place of the array. -/
def TileCtx.on (t : TileCtx) (place : Nat) : Bool := decide (t.phase = .running place)

/-- Is a pass of the tile running. -/
def TileCtx.isRunning (t : TileCtx) : Bool :=
  match t.phase with
  | .running _ => true
  | _ => false

/-- The crew of a tile. -/
def TileCtx.crewRef (t : TileCtx) (stope : Nat) : CrewRef := ⟨stope, t.crew⟩

/-- Change a tile context. -/
def State.modTile (s : State) (stope id : Nat) (f : TileCtx → TileCtx) : State :=
  let d := s.drill stope
  s.setDrill stope { d with ctxs := d.ctxs.map fun t => if t.id = id then f t else t }

/-- A tile context of a stope. -/
def State.tile (s : State) (stope id : Nat) : Option TileCtx := (s.drill stope).ctxs.find? (·.id = id)

/-! ## Products, pans and lodes (03 R60-R86) -/

/-- Shift an exact integer by a signed number of places; bits dropped below are zero by R62 and R72. -/
def shiftInt (v e : Int) : Int := if 0 ≤ e then v * 2 ^ e.toNat else v / 2 ^ (-e).toNat

/-- What one product does to its output (R61, R77, R78): its pan product, what R77 truncated in units of 2^-300, and
whether it lies above the window. -/
structure Entered where
  pan : Option PanProduct
  lost : Int
  above : Bool
  band : Int
deriving DecidableEq, Repr

/-- A finite product of a lode of `kind` and anchor `a` in format `code` (R63, R77, R78). -/
def enterProduct (code kind : Nat) (a : Int) : Product → Entered
  | .finite neg m p =>
    let b := Int.fdiv p 32
    let f := prodFrac code
    let v : Int := (m * 2 ^ (p - 32 * b).toNat : Nat)
    let drop := a - (32 * b - f)
    let kept := if kind = 2 ∨ drop ≤ 0 then v else v / 2 ^ drop.toNat * 2 ^ drop.toNat
    let e := p - f - lodeTop kind a
    let above := kind ≠ 2 && (if 0 ≤ e then true else decide (2 ^ (-e).toNat ≤ m))
    let sg : Int := if neg then -1 else 1
    { pan := if kept = 0 then none else some ⟨b, sg * kept⟩, lost := shiftInt (sg * (v - kept)) (32 * b - f + 300),
      above, band := b }
  | _ => ⟨none, 0, false, 0⟩

/-- Fold a pan into a lode (R68, R82, R83): the lode, and whether the fold overflowed. -/
def LodeAcc.foldPan (code kind : Nat) (a : Int) (l : LodeAcc) (band val : Int) : LodeAcc × Bool :=
  let v := l.val + shiftInt val (32 * band - prodFrac code - lodeWeight kind a)
  if kind = 2 then
    if l.breach then (l, false)
    else if lodeFits 2 v then ({ l with val := v }, false)
    else ({ l with breach := true, bsign := decide (v < 0) }, true)
  else if lodeFits kind v then ({ l with val := v }, false)
  else ({ l with val := v, breach := true }, true)

/-- The pan slots of an output as a list. -/
def OutCell.slots (c : OutCell) : List (Option Pan) := [c.p0, c.p1, c.p2]

/-- An output from its slots and pending products. -/
def OutCell.ofSlots (l : List (Option Pan)) (pend : List PanProduct) : OutCell :=
  ⟨l.getD 0 none, l.getD 1 none, l.getD 2 none, pend⟩

/-- Bands in ascending order without repeats. -/
def sortBands (l : List Int) : List Int :=
  l.foldl (fun acc b =>
    if acc.contains b then acc else acc.filter (· < b) ++ [b] ++ acc.filter (b < ·)) []

/-- The slot to evict (R65): the oldest last use among slots whose band is not needed, ties to the lower band. -/
def victim (need : List Int) (l : List (Option Pan)) : Option Nat :=
  ((List.range 3).foldl (fun (best : Option (Nat × Pan)) i =>
    match l.getD i none with
    | none => best
    | some p =>
      if need.contains p.band then best
      else match best with
        | none => some (i, p)
        | some (j, q) => if p.last < q.last ∨ (p.last = q.last ∧ p.band < q.band) then some (i, p) else some (j, q))
    none).map (·.1)

/-- The procedure of R65 for one cycle: the slots, the served bands and the evicted pan. -/
def serveBands (need : List Int) (slots : List (Option Pan)) :
    List (Option Pan) × List Int × Option Pan :=
  let held := need.filter fun b => slots.any fun p => p.any fun q => q.band = b
  (need.filter fun b => !held.contains b).foldl (fun (x : List (Option Pan) × List Int × Option Pan) b =>
    match (List.range 3).find? fun i => (x.1.getD i none).isNone with
    | some i => (x.1.set i (some ⟨b, 0, 0⟩), x.2.1 ++ [b], x.2.2)
    | none =>
      if x.2.2.isSome then x
      else match victim need x.1 with
        | some i => (x.1.set i (some ⟨b, 0, 0⟩), x.2.1 ++ [b], x.1.getD i none)
        | none => x) (slots, held, none)

/-- One cycle of an output (R65): pans take the served products; the evicted pan, if any. -/
def OutCell.place (c : OutCell) (now : Nat) : OutCell × Option Pan :=
  if c.pend = [] then (c, none)
  else
    let need := sortBands (c.pend.map (·.band))
    let r := serveBands need c.slots
    let served := r.2.1
    let slots := r.1.map fun p => p.map fun q =>
      if served.contains q.band then
        { q with last := now, val := q.val + ((c.pend.filter (·.band = q.band)).map (·.val)).foldl (· + ·) 0 }
      else q
    (OutCell.ofSlots slots (c.pend.filter fun x => !served.contains x.band), r.2.2)

/-! ## Groups -/

/-- One element of a group: bits and scale byte; `none` beyond the operand's extents (R542). -/
abbrev Elem := Option (Nat × Nat)

/-- Read the elements `k0 .. k0 + g` of a row of an operand in face memory (R95, R542): their data, and whether a word
was marked. -/
def State.readGroup (s : State) (stope : Nat) (t : TensorDesc) (row k0 g : Nat) : State × List Elem × Bool :=
  if t.d 1 ≤ row ∨ t.d 0 ≤ k0 then (s, List.replicate g none, false)
  else
    let w := (Fmt.ofCode t.fmt).width
    let n := min g (t.d 0 - k0)
    let d := s.readMem (faceBase stope + t.base + 64 * row * t.s 1 + k0 * w / 8) ((n * w + 7) / 8)
    let x := if t.mx then d.1.readMem (faceBase stope + t.scale + t.grid 0 * row + k0 / 32) 1 else (d.1, 127, false)
    (x.1, (List.range g).map fun e => if e < n then some (packedElem t.fmt d.2.1 e, x.2.1) else none,
      d.2.2 || x.2.2)

/-- Is a bank of a group held by a locked sequence, so that its fetch waits (09 R247). -/
def State.groupHeld (s : State) (stope : Nat) (t : TensorDesc) (row k0 g : Nat) : Bool :=
  let w := (Fmt.ofCode t.fmt).width
  !(t.d 1 ≤ row ∨ t.d 0 ≤ k0) &&
    (s.heldAt (faceBase stope + t.base + 64 * row * t.s 1 + k0 * w / 8) ((min g (t.d 0 - k0) * w + 7) / 8) ||
      (t.mx && s.heldAt (faceBase stope + t.scale + t.grid 0 * row + k0 / 32) 1))

/-- Read the groups of a run of rows. -/
def State.readRows (s : State) (stope : Nat) (t : TensorDesc) (k0 g : Nat) : List Nat → State × List (List Elem) × Bool
  | [] => (s, [], false)
  | r :: l =>
    let x := s.readGroup stope t r k0 g
    let y := State.readRows x.1 stope t k0 g l
    (y.1, x.2.1 :: y.2.1, x.2.2 || y.2.2)

/-- The product of two elements of a group; elements beyond the extents give a zero product (R97, R542). -/
def elemProduct (f : Fmt) (mx : Bool) : Elem → Elem → Product
  | some (wa, xa), some (wb, xb) => productOf (f.operand mx xa wa) (f.operand mx xb wb)
  | _, _ => .zero

/-- An element as an exact integer in units of 2^-150, 0 unless finite (R114). -/
def elemValue (f : Fmt) (mx : Bool) : Elem → Int
  | some (w, x) => (f.elemInt mx x w).getD 0
  | none => 0

/-- A breaching event of a group in documented order (R80, R101). -/
abbrev Candidate := Nat × Nat × Nat × Breach

/-- Is one event earlier than another: reduction index, row, column. -/
def Candidate.before (a b : Candidate) : Bool :=
  a.1 < b.1 || (a.1 = b.1 && (a.2.1 < b.2.1 || (a.2.1 = b.2.1 && a.2.2.1 < b.2.2.1)))

/-- The earlier of an event found and a new one. (DESIGN CHOICE: notes/assumptions/30) -/
def Candidate.pick (o : Option Candidate) (c : Candidate) : Option Candidate :=
  match o with
  | none => some c
  | some d => if c.before d then some c else some d

/-- What one output takes from a group (R61, R77, R81, R86): its lode, its pan products, what was truncated, and its
first product above the window. -/
def outputGroup (t : TileCtx) (f : Fmt) (k0 i j : Nat) (l : LodeAcc) (as bs : List Elem) :
    LodeAcc × List PanProduct × Int × Option Candidate :=
  ((as.zip bs).zip (List.range as.length)).foldl
    (fun (x : LodeAcc × List PanProduct × Int × Option Candidate) e =>
      let p := elemProduct f t.mx e.1.1 e.1.2
      let z := enterProduct t.fmt t.kind t.anchor p
      let l := (x.1.special p).count t.kind 1
      let l := { l with inexact := l.inexact || decide (z.lost ≠ 0), breach := l.breach || z.above }
      (l, x.2.1 ++ z.pan.toList, x.2.2.1 + z.lost,
       if z.above then
         x.2.2.2.orElse fun _ => some (k0 + e.2, i, j, ⟨i, j, k0 + e.2, z.band, t.kind, 1, t.anchor, l.terms⟩)
       else x.2.2.2))
    (l, [], 0, none)

/-- The column and row checks of a group (R114): operand sums times operands, over finite elements. -/
def CheckState.group (c : CheckState) (f : Fmt) (mx : Bool) (r0 c0 : Nat) (as bs : List (List Elem)) : CheckState :=
  let val := fun (l : List Elem) => l.map (elemValue f mx)
  let av := as.map val
  let bv := bs.map val
  let sum := fun (x y : List Int) => (x.zip y).map fun p => p.1 + p.2
  let dot := fun (x y : List Int) => ((x.zip y).map fun p => p.1 * p.2).foldl (· + ·) 0
  let g := (as.headD []).length
  let asum := av.foldl sum (List.replicate g 0)
  let bsum := bv.foldl sum (List.replicate g 0)
  { c with
    col := (bv.zip (List.range bv.length)).foldl (fun m x => Store.modify 0 m (c0 + x.2) (· + dot asum x.1)) c.col
    row := (av.zip (List.range av.length)).foldl (fun m x => Store.modify 0 m (r0 + x.2) (· + dot x.1 bsum)) c.row }

/-- Add a truncated part to the remainders of its column and row (R114). -/
def CheckState.lose (c : CheckState) (i j : Nat) (v : Int) : CheckState :=
  { c with colRem := Store.modify 0 c.colRem j (· + v), rowRem := Store.modify 0 c.rowRem i (· + v) }

/-- The outputs of the running pass. -/
def TileCtx.outs (t : TileCtx) : List (Nat × Nat) :=
  let r := t.region
  (List.range (r.2.1 - r.1)).flatMap fun i => (List.range (r.2.2.2 - r.2.2.1)).map fun j => (r.1 + i, r.2.2.1 + j)

/-- An output takes its next group: lode, cell and remainders change; the first breaching product is kept.
(DESIGN CHOICE: notes/assumptions/30) -/
def takeGroup (f : Fmt) (k0 r0 c0 : Nat) (as bs : List (List Elem)) (x : TileCtx × Option Candidate) (o : Nat × Nat) :
    TileCtx × Option Candidate :=
  let t := x.1
  let key := outKey t.shape o.1 o.2
  let r := outputGroup t f k0 o.1 o.2 (Store.get LodeAcc.zero t.lodes key) (as.getD (o.1 - r0) []) (bs.getD (o.2 - c0) [])
  let cell := Store.get OutCell.empty t.cells key
  ({ t with
     lodes := Store.set LodeAcc.zero t.lodes key r.1
     cells := Store.set OutCell.empty t.cells key { cell with pend := r.2.1 }
     chk := if t.check && r.2.2.1 ≠ 0 then t.chk.lose o.1 o.2 r.2.2.1 else t.chk },
   match r.2.2.2 with
   | some c => Candidate.pick x.2 c
   | none => x.2)

/-- The whole group enters the outputs of the pass. -/
def TileCtx.takeAll (t : TileCtx) (as bs : List (List Elem)) : TileCtx × Option Candidate :=
  let f := Fmt.ofCode t.fmt
  let r := t.region
  let t := if t.check then { t with chk := t.chk.group f t.mx r.1 r.2.2.1 as bs } else t
  t.outs.foldl (takeGroup f t.kpos r.1 r.2.2.1 as bs) (t, none)

/-- A pan of an output folds into its lode: an overflow of a narrow or wide lode breaches the tile (R82), one of a full
lode is recorded (R83). -/
def TileCtx.foldInto (t : TileCtx) (key : Nat) (p : Pan) : TileCtx × Option Breach :=
  let r := (Store.get LodeAcc.zero t.lodes key).foldPan t.fmt t.kind t.anchor p.band p.val
  let rec_ : Breach := ⟨key / tileCols t.shape, key % tileCols t.shape, 0xFFFFFFFF, p.band, t.kind,
    if t.kind = 2 then 3 else 2, if t.kind = 2 then 0 else t.anchor, r.1.terms⟩
  ({ t with lodes := Store.set LodeAcc.zero t.lodes key r.1 }, if r.2 then some rec_ else none)

/-- What a cycle's folds did on a place: the tile, breaches by folds, and folds demanded per row group of each quadrant. -/
structure Folds where
  place : Nat
  tile : TileCtx
  past : List Breach
  demand : List Nat
  count : Nat
deriving DecidableEq, Repr

/-- No fold yet. -/
def Folds.start (place : Nat) (t : TileCtx) : Folds := ⟨place, t, [], List.replicate 16 0, 0⟩

/-- One more fold of an output's pan. -/
def Folds.add (x : Folds) (key : Nat) (p : Pan) : Folds :=
  let r := x.tile.foldInto key p
  let g := rowGroup x.place x.tile.shape (key / tileCols x.tile.shape) (key % tileCols x.tile.shape)
  ⟨x.place, r.1, x.past ++ r.2.toList, x.demand.set g (x.demand.getD g 0 + 1), x.count + 1⟩

/-- One cycle of placement for every output with products pending (R65, R102). -/
def TileCtx.placeAll (t : TileCtx) (place now : Nat) : Folds :=
  let r := t.cells.foldl (fun (x : Store OutCell × List (Nat × Pan)) e =>
    let y := e.2.place now
    (x.1 ++ [(e.1, y.1)], x.2 ++ y.2.toList.map fun p => (e.1, p))) ([], [])
  r.2.foldl (fun x e => x.add e.1 e.2) (Folds.start place { t with cells := r.1 })

/-- Does an output still hold products of its group (R102). -/
def TileCtx.splitting (t : TileCtx) : Bool := t.cells.any fun e => e.2.pend ≠ []

/-- Every occupied pan folds and the slots are free (R66): of one output, slots 0, 1, 2 in this order.
(DESIGN CHOICE: notes/assumptions/102) -/
def TileCtx.drain (t : TileCtx) (place : Nat) : Folds :=
  let l := t.cells.flatMap fun e => (e.2.slots.filterMap fun p => p).map fun p => (e.1, p)
  l.foldl (fun x e => x.add e.1 e.2) (Folds.start place { t with cells := [] })

/-! ## Events of the array (R98-R104) -/

/-- Can a tile context start its next pass (R100). (DEDUCED: notes/assumptions/31) -/
def State.tileReady (s : State) (stope : Nat) (t : TileCtx) : Bool :=
  decide (t.phase = .ready) && decide ((s.crew (t.crewRef stope)).phase ≠ .draining)

/-- Count a cycle of one of four kinds: a quadrant's cycles count one quarter each (R118). -/
def State.drillCycle (s : State) (stope : Nat) (quad : Bool) (kind : Nat) : State :=
  let reg := match kind with
    | 0 => Reg.drlIssueCnt stope
    | 1 => Reg.drlSplitCnt stope
    | 2 => Reg.drlFoldStallCnt stope
    | _ => Reg.drlOpndStallCnt stope
  if !quad then s.bump reg
  else
    let d := s.drill stope
    let q := match kind with
      | 0 => d.qIssue
      | 1 => d.qSplit
      | 2 => d.qFold
      | _ => d.qOpnd
    let q' := (q + 1) % 4
    let d := match kind with
      | 0 => { d with qIssue := q' }
      | 1 => { d with qSplit := q' }
      | 2 => { d with qFold := q' }
      | _ => { d with qOpnd := q' }
    ({ s with drills := Store.set Drill.idle s.drills stope d }).bumpIf (q' = 0) reg

/-- Folds that one place can do in a cycle (R103). -/
def foldCap (place : Nat) : Nat := if place < 4 then 512 else 2048

/-- Set the place of an array. -/
def State.setPlace (s : State) (stope place : Nat) (p : ArrayPlace) : State :=
  let d := s.drill stope
  { s with drills := Store.set Drill.idle s.drills stope { d with places := Store.set ArrayPlace.idle d.places place p } }

/-- A place of the array. -/
def Drill.placeOf (d : Drill) (place : Nat) : ArrayPlace := Store.get ArrayPlace.idle d.places place

/-- The quadrants of a place. -/
def quadrants (place : Nat) : List Nat := if place < 4 then [place] else [0, 1, 2, 3]

/-- Sum two demand lists. -/
def addDemand (a b : List Nat) : List Nat := (List.range (max a.length b.length)).map fun i => a.getD i 0 + b.getD i 0

/-- The folds of the row groups of a quadrant, by the cycle in which each falls due (R103): one cycle of skew between successive row
groups, and the lower quadrants of the whole array after the upper ones. -/
def skewed (place q : Nat) (groups : List Nat) : List Nat := List.replicate (if place < 4 ∨ q < 2 then 0 else 4) 0 ++ groups

/-- The demands of a quadrant among those of a cycle. -/
def quadDemand (demand : List Nat) (q : Nat) : List Nat := (demand.drop (4 * q)).take 4

/-- A pass starts on a place: its row groups drain the pans of the last pass, each in the cycle in which it starts (R103). -/
def Drill.startDrains (d : Drill) (place : Nat) : Drill :=
  (quadrants place).foldl (fun d q =>
    let p := d.placeOf q
    let p := { p with drains := addDemand p.drains (skewed place q p.left), left := [] }
    { d with places := Store.set ArrayPlace.idle d.places q p }) d

/-- The pans that a pass leaves wait for the next pass of their row groups (R66, R103). -/
def Drill.leaveDrains (d : Drill) (demand : List Nat) (place : Nat) : Drill :=
  (quadrants place).foldl (fun d q =>
    let p := d.placeOf q
    { d with places := Store.set ArrayPlace.idle d.places q { p with left := addDemand p.left (quadDemand demand q) } }) d

/-- The folds of a cycle's evictions join those that fall due in this cycle and the next ones (R103): the drill after the cycle, and
the folds due in it. -/
def Drill.cycleDrains (d : Drill) (demand : List Nat) (place : Nat) : Drill × Nat :=
  (quadrants place).foldl (fun (x : Drill × Nat) q =>
    let p := x.1.placeOf q
    let due := addDemand p.drains (skewed place q (quadDemand demand q))
    ({ x.1 with places := Store.set ArrayPlace.idle x.1.places q { p with drains := due.tail } }, x.2 + due.headD 0)) (d, 0)

/-- Change what the drill of a stope holds beside its contexts. -/
def State.modDrill (s : State) (stope : Nat) (f : Drill → Drill) : State :=
  { s with drills := Store.set Drill.idle s.drills stope (f (s.drill stope)) }

/-- DRILL_PASS_START (R99, R100): the oldest ready context starts its next pass, in the lowest idle quadrant when it
shares the array, else on the whole idle array. -/
def execDrillPassStart (stope : Nat) (s : State) : Host.Outcome State Fault Refusal :=
  let d := s.drill stope
  match d.ctxs.find? (s.tileReady stope) with
  | none => .next s
  | some t =>
    let busy := d.ctxs.filter (·.isRunning)
    let place :=
      if t.quad then
        if busy.all fun x => !x.on 4 && x.fmt = t.fmt && x.mx = t.mx then
          (List.range 4).find? fun q => busy.all fun x => !x.on q
        else none
      else if busy.isEmpty then some 4 else none
    match place with
    | none => .next s
    | some p =>
      .next ((s.modTile stope t.id fun t => { t with phase := .running p, kpos := t.slabStart }).modDrill stope fun d =>
        d.startDrains p)

/-- Full-lode overflows of a cycle are counted and kept for their records (03 R83); overflows of narrow or wide lodes
breach the tile (R82). -/
def TileCtx.noteOver (t : TileCtx) (l : List Breach) : TileCtx :=
  if t.kind = 2 then { t with recs := t.recs ++ l }
  else match l with
    | [] => t
    | b :: _ => { t with breached := true, first := t.first.orElse fun _ => some b }

/-- Full-lode overflows count in LOD_FULL_OVF_CNT (03 R83). -/
def State.countOver (s : State) (stope kind : Nat) (l : List Breach) : State :=
  if kind = 2 then s.bumpN (Reg.lodFullOvfCnt stope) l.length else s

/-- A breached narrow or wide tile stops at the end of its group: every occupied pan drains (03 R78, R80). -/
def State.stopTile (s : State) (stope place : Nat) (t : TileCtx) : State :=
  let f := t.drain place
  let s := s.modTile stope t.id fun _ => { (f.tile.noteOver f.past) with phase := .stopped }
  (s.modDrill stope fun d => d.leaveDrains f.demand place).bump (Reg.lodBreachCnt stope)

/-- The end of an issue or split cycle: folds demanded now meet the fold capacity (R103). -/
def State.endCycle (s : State) (stope place : Nat) (f : Folds) (cand : Option Candidate) : State :=
  let t := f.tile
  let t := match cand with
    | some c => { t with breached := true, first := t.first.orElse fun _ => some c.2.2.2 }
    | none => t
  let t := t.noteOver f.past
  let r := (s.drill stope).cycleDrains f.demand place
  let s := s.modDrill stope fun _ => r.1
  let s := s.setPlace stope place { r.1.placeOf place with owed := r.2 - foldCap place }
  let s := (s.bumpN (Reg.drlEvictCnt stope) f.count).countOver stope t.kind f.past
  if t.breached && !t.splitting then s.stopTile stope place t
  else s.modTile stope t.id fun _ => t

/-- The operand rows of A, and of B, that the running pass reads. -/
def TileCtx.passRows (t : TileCtx) : List Nat × List Nat :=
  let r := t.region
  ((List.range (r.2.1 - r.1)).map fun i => t.trow * tileRows t.shape + r.1 + i,
    (List.range (r.2.2.2 - r.2.2.1)).map fun j => t.tcol * tileCols t.shape + r.2.2.1 + j)

/-- Does the next operand fetch of a pass wait for a bank that a locked sequence holds (09 R246, R247). -/
def State.fetchHeld (s : State) (stope : Nat) (t : TileCtx) : Bool :=
  let g := groupSize t.fmt
  !s.locks.isEmpty && ((t.passRows.1.any fun i => s.groupHeld stope t.a i t.kpos g) ||
    t.passRows.2.any fun j => s.groupHeld stope t.b j t.kpos g)

/-- An issue cycle (R102): every output takes its next group, read from face memory (R95). -/
def State.issueCycle (s : State) (stope place : Nat) (t : TileCtx) : State :=
  let g := groupSize t.fmt
  let a := s.readRows stope t.a t.kpos g t.passRows.1
  let b := a.1.readRows stope t.b t.kpos g t.passRows.2
  let s := if a.2.2 || b.2.2 then b.1.markBad (t.crewRef stope) 4 else b.1
  let x := t.takeAll a.2.1 b.2.1
  s.endCycle stope place ({ x.1 with kpos := t.kpos + g }.placeAll place (s.drill stope).cycle) x.2

/-- DRILL_ARRAY_CYCLE (R102, R103): one cycle of the pass running on a place: a fold stall while folds are owed, a
split cycle while products are pending, an operand stall on a bank conflict, else an issue cycle. -/
def execDrillArrayCycle (stope place : Nat) (conflict : Bool) (s : State) : Host.Outcome State Fault Refusal :=
  let d := s.drill stope
  match d.ctxs.find? (·.on place) with
  | none => .next s
  | some t =>
    let pl := d.placeOf place
    let q := decide (place < 4)
    let s := { s with drills := Store.set Drill.idle s.drills stope { d with cycle := d.cycle + 1 } }
    if pl.owed ≠ 0 then
      .next ((s.setPlace stope place { pl with owed := pl.owed - foldCap place }).drillCycle stope q 2)
    else if t.splitting then .next ((s.endCycle stope place (t.placeAll place (d.cycle + 1)) none).drillCycle stope q 1)
    else if t.slabEnd ≤ t.kpos then .next s
    else if conflict || s.fetchHeld stope t then .next (s.drillCycle stope q 3)
    else .next (((s.issueCycle stope place t).active stope).drillCycle stope q 0)

/-- The tile after a pass (R98): the next region, the next slab, or its end. -/
def TileCtx.nextPass (t : TileCtx) : TileCtx :=
  if t.pass + 1 < slabPasses t.shape then { t with pass := t.pass + 1, kpos := t.slabStart, phase := .ready }
  else
    let t := { t with slab := t.slab + 1, pass := 0 }
    if padK t.k ≤ t.slabStart then { t with phase := .done } else { t with kpos := t.slabStart, phase := .ready }

/-- DRILL_PASS_END (R66, R98): at the end of the pass every occupied pan folds into its lode. -/
def execDrillPassEnd (stope place : Nat) (s : State) : Host.Outcome State Fault Refusal :=
  let d := s.drill stope
  match d.ctxs.find? (·.on place) with
  | none => .next s
  | some t =>
    let pl := d.placeOf place
    if t.splitting || t.kpos < t.slabEnd || pl.owed ≠ 0 then .next s
    else
      let f := t.drain place
      let t := f.tile.noteOver f.past
      let s := (s.modDrill stope fun d => d.leaveDrains f.demand place).countOver stope t.kind f.past
      if t.breached then
        .next ((s.modTile stope t.id fun _ => { t with phase := .stopped }).bump (Reg.lodBreachCnt stope))
      else .next (s.modTile stope t.id fun _ => t.nextPass)

/-! ## Re-runs, checks and commits (03 R79, R80, R88; 04 R107-R117) -/

/-- Start values of a widened re-run: from the start images or retained lodes, widened to the new kind (03 R79, R90). The record
of a value that does not fit names no product and no fold: KIDX is 0xFFFF_FFFF and BAND 0.
(DESIGN CHOICE: notes/assumptions/99) -/
def TileCtx.widened (t : TileCtx) : TileCtx × List Breach :=
  let k := t.kind + 1
  let r := t.startLodes.map fun e => (e.1, e.2.widen t.startKind k t.startAnchor)
  let a := if k = 2 then 0 else t.anchor
  ({ t with kind := k, anchor := a, run := t.run + 1, lodes := r.map fun e => (e.1, e.2.1) },
   (r.filter (·.2.2)).map fun e =>
     ⟨e.1 / tileCols t.shape, e.1 % tileCols t.shape, 0xFFFFFFFF, 0, 2, 3, 0, e.2.1.terms⟩)

/-- Does a stopped tile re-run at the next wider lode (03 R79). -/
def TileCtx.reruns (t : TileCtx) : Bool := t.breached && t.widen && decide (t.kind < 2)

/-- Claim the units of a re-run when they are free (R107): it stands at its start from then on, or waits there; the discarded run's
checksum state is gone with its lodes (R116). -/
def State.claimRerun (s : State) (stope : Nat) (t : TileCtx) (past : List Breach) : State :=
  let need := tileUnits t.shape t.kind
  let go := decide (need ≤ (s.drill stope).unitsFree)
  s.modTile stope t.id fun _ =>
    { ({ t with units := if go then need else 0 } : TileCtx).restart with
        phase := if go then .ready else .waitUnits, recs := past }

/-- TILE_WIDEN_RERUN (R107, 03 R79): the tile frees its units, claims those of its new kind and re-runs from its start;
while they are not free it waits. -/
def execTileWidenRerun (stope ctx : Nat) (s : State) : Host.Outcome State Fault Refusal :=
  match s.tile stope ctx with
  | none => .next s
  | some t =>
    if t.phase = .stopped ∧ t.reruns then
      let x := t.widened
      let s := s.modTile stope ctx fun t => { t with units := 0 }
      let s := (s.bump (Reg.lodWidenCnt stope)).countOver stope x.1.kind x.2
      .next (s.claimRerun stope { x.1 with units := 0 } x.2)
    else if t.phase = .waitUnits then .next (s.claimRerun stope t t.recs)
    else .next s

/-- Is a lode excluded from the comparison of its row and column (R115). -/
def LodeAcc.excluded (l : LodeAcc) : Bool := l.nan || l.pinf || l.ninf || l.breach

/-- Compare one row or column of a tile (R115): `none` when it is excluded, else whether it is equal. -/
def TileCtx.compare (t : TileCtx) (keys : List Nat) (check rem : Int) : Option Bool :=
  let l := keys.map fun k => Store.get LodeAcc.zero t.lodes k
  if l.any (·.excluded) then none
  else
    let sum := (l.map fun x => shiftInt x.val (lodeWeight t.kind t.anchor + 300)).foldl (· + ·) 0
    some (decide (sum + rem = check))

/-- The comparisons of every column of a tile, inside M × N (R115). -/
def TileCtx.compareCols (t : TileCtx) : List (Option Bool) :=
  let inside := tileInside t.shape t.trow t.tcol t.m t.n
  (List.range (min (tileCols t.shape) (t.n - t.tcol * tileCols t.shape))).map fun j =>
    t.compare ((inside.filter (·.2 = j)).map fun p => outKey t.shape p.1 p.2) (Store.get 0 t.chk.col j)
      (Store.get 0 t.chk.colRem j)

/-- The comparisons of every row of a tile, inside M × N (R115). -/
def TileCtx.compareRows (t : TileCtx) : List (Option Bool) :=
  let inside := tileInside t.shape t.trow t.tcol t.m t.n
  (List.range (min (tileRows t.shape) (t.m - t.trow * tileRows t.shape))).map fun i =>
    t.compare ((inside.filter (·.1 = i)).map fun p => outKey t.shape p.1 p.2) (Store.get 0 t.chk.row i)
      (Store.get 0 t.chk.rowRem i)

/-- The rows or columns that mismatch. -/
def mismatches (l : List (Option Bool)) : List Nat := (List.range l.length).filter fun k => l[k]? = some (some false)

/-- A tile whose outcome is bad is reported to the deputy with the rows and columns that mismatch (R115). -/
def State.reportTile (s : State) (stope : Nat) (t : TileCtx) (rows cols : List Nat) : State :=
  ((s.bump (Reg.drlChkFailCnt stope)).markBad (t.crewRef stope) 1).find ⟨3, stope, t.crew, t.tile, 0, 0, rows, cols⟩

/-- TILE_CHECK_COMPLETE (R115, R116): the outcome of a tile whose last pass has ended. `residueBad` is a residue
mismatch found at a fold. -/
def execTileCheckComplete (stope ctx : Nat) (residueBad : Bool) (s : State) : Host.Outcome State Fault Refusal :=
  match s.tile stope ctx with
  | none => .next s
  | some t =>
    if t.outcome.isSome ∨ ¬(t.phase = .done ∨ (t.phase = .stopped ∧ ¬t.reruns)) then .next s
    else if !t.check then .next (s.modTile stope ctx fun t => { t with outcome := some false })
    else
      let cols := t.compareCols
      let rows := t.compareRows
      let skips := ((cols ++ rows).filter (·.isNone)).length
      let bad := residueBad || (cols ++ rows).contains (some false)
      let s := s.modTile stope ctx fun t => { t with outcome := some bad }
      let s := (s.bumpN (Reg.drlChkSkipCnt stope) skips).raiseIf (t.skipEvent && skips ≠ 0) 0
      .next (if bad then s.reportTile stope t (mismatches rows) (mismatches cols) else s)

/-- A breach record (03 Table 3.5). -/
def breachRecord (tile : Nat) (b : Breach) : Nat :=
  packFields [(8, tile), (2, b.row), (2, b.col), (4, b.kidx), (2, ofInt 16 b.band), (1, b.kind), (1, b.cause),
    (2, ofInt 16 b.anchor), (2, 0), (8, b.terms)]

/-- Write a breach record (R117): the primary run's reaches the ring, a shadow run's is only compared. -/
def State.writeBreach (s : State) (stope : Nat) (t : TileCtx) (b : Breach) : State :=
  let r := breachRecord t.tile b
  let put := fun (s : State) => (s.ringPush ringDrill t.record 32 r).raiseIf t.recordEvent 0
  match (s.crew (t.crewRef stope)).inst with
  | some i => s.offStope i ⟨3, [r]⟩ put
  | none => put s

/-- One converted row of a tile (03 R88, 02 R39): encodings of its columns, and the scale bytes of its blocks. -/
def TileCtx.convertRow (t : TileCtx) (i : Instance) (row cols : Nat) : List Nat × List Nat :=
  let b := Ncb.ofNat t.ncb
  let f := Fmt.ofCode b.fmt
  let gr := t.trow * tileRows t.shape + row
  let src := (List.range cols).map fun j =>
    (Store.get LodeAcc.zero t.lodes (outKey t.shape row j)).source t.kind t.anchor
  let r := fun j => if b.rnd = 2 then
    keyedDraw i.seed i.keyStep t.o.tid (t.tcol * tileCols t.shape + j + t.n * gr) 0 0 else 0
  if b.mx then
    let xs := (List.range ((cols + 31) / 32)).map fun k => blockScale b.fmt ((src.drop (32 * k)).take 32)
    (((src.zip (List.range cols)).map fun e => (convertScaled f b.sat b.rnd (r e.2) (xs.getD (e.2 / 32) 127) e.1).1), xs)
  else ((src.zip (List.range cols)).map fun e => (f.convert b.sat b.rnd (r e.2) e.1).1, [])

/-- Write one converted row to face memory, with its padding elements and scale bytes (R109, R542). -/
def State.writeRow (s : State) (stope : Nat) (t : TileCtx) (row : Nat) (codes scales : List Nat) : State :=
  let gr := t.trow * tileRows t.shape + row
  let c0 := t.tcol * tileCols t.shape
  let n := if c0 + codes.length < t.n then codes.length else t.o.stored t.n - c0
  let w := (Fmt.ofCode t.o.fmt).width
  let s := s.faceWrite stope (t.o.base + 64 * gr * t.o.s 1 + c0 * w / 8) (t.o.bytes n) (packElems w codes)
    (allBytes (t.o.bytes n))
  if t.o.mx then
    s.faceWrite stope (t.o.scale + t.o.grid 0 * gr + c0 / 32) scales.length (packElems 8 scales)
      (allBytes scales.length)
  else s

/-- Write the converted outputs of a tile and update the assay record (R109, 03 R74, R88); the record lies off the stope, so a
shadow run's update is only compared (15 R405). -/
def State.writeConverted (s : State) (stope : Nat) (t : TileCtx) (i : Instance) : State :=
  let rows := min (tileRows t.shape) (t.m - t.trow * tileRows t.shape)
  let cols := min (tileCols t.shape) (t.n - t.tcol * tileCols t.shape)
  let l := (List.range rows).map fun r => (r, t.convertRow i r cols)
  let s := l.foldl (fun s e => s.writeRow stope t e.1 e.2.1 e.2.2) s
  let stored := l.flatMap fun e =>
    (e.2.1.zip (List.range cols)).map fun x =>
      (t.tcol * tileCols t.shape + x.2 + t.n * (t.trow * tileRows t.shape + e.1), x.1, e.2.2.getD (x.2 / 32) 127)
  s.offStope i ⟨5, t.o.assay :: stored.map fun e => e.2.1⟩ fun s => s.assayStore (some stope) t.o 1 stored

/-- Write the lode images of a tile (R109, R542, 03 R89). A value that its breached lode cannot hold is free.
(DESIGN CHOICE: notes/assumptions/17) -/
def State.writeImages (s : State) (stope : Nat) (t : TileCtx) : State :=
  let n := imageBytes t.kind
  (tileInside t.shape t.trow t.tcol t.m t.n).foldl (fun s p =>
    let l := Store.get LodeAcc.zero t.lodes (outKey t.shape p.1 p.2)
    let row := t.trow * tileRows t.shape + p.1
    let col := t.tcol * tileCols t.shape + p.2
    s.faceWrite stope (imageOff t.o row col) n (l.image t.kind t.anchor (s.openBits stope t row col l)) (allBytes n)) s

/-- The handle of a committed tile (07 R187): retained for output 2, invalid otherwise. Its leaving the pending state is the
operand-release signal of the tile (03 R79, 10 R276); its completion shows in the completion signal of its instance (06 R166).
(DEDUCED: notes/assumptions/31; DEDUCED: notes/assumptions/105) -/
def State.settleHandle (s : State) (stope : Nat) (t : TileCtx) : State :=
  s.modCrew (t.crewRef stope) fun c =>
    if c.handle t.handle = .pending t.id then
      c.setHandle t.handle (if t.out = 2 then .retained t.id else .invalid)
    else c

/-- TILE_COMMIT (R109): outputs are written, records and counters made, the handle settled and the units freed unless
the tile is retained. -/
def execTileCommit (stope ctx : Nat) (s : State) : Host.Outcome State Fault Refusal :=
  match s.tile stope ctx with
  | none => .next s
  | some t =>
    match t.outcome, (s.crew (t.crewRef stope)).inst with
    | some _, some i =>
      if t.phase = .retained then .next s
      else
        let s := if t.out = 0 then s.writeConverted stope t i else if t.out = 1 then s.writeImages stope t else s
        let s := (t.first.toList ++ t.recs).foldl (fun s b => s.writeBreach stope t b) s
        let any := fun (g : LodeAcc → Bool) => t.lodes.any fun e => g e.2
        let s := s.bumpIf (any (·.inexact)) (Reg.lodInexactCnt stope)
        let s := s.bumpIf (any (·.gexh)) (Reg.lodGuardExhCnt stope)
        let s := (s.bump (Reg.drlTileCnt stope)).settleHandle stope t
        .next (if t.out = 2 then s.modTile stope ctx fun t => { t with phase := .retained, outcome := none }
          else s.freeCtx stope ctx)
    | _, _ => .next s

end Sys2Proof.Machine
end

