-- ==== Sys2Proof/Machine/Scalar.lean ====
section
/-!
DEFINITION. The scalar slot (07 R176-R178, 06 R151-R156): arithmetic, branches, loops.
-/
namespace Sys2Proof.Machine

/-- A scalar operation of opcode `op` issues: it is skipped with the first cause that applies, or writes s[D].
(DESIGN CHOICE: notes/assumptions/19) -/
def State.scalarSlot (s : State) (op : Nat) (c : CrewRef) (w : Nat) (f : Crew → Nat → Nat) : State :=
  let cr := s.crew c
  if !cr.active then s
  else if bits w 39 34 = op then
    match firstCause [(scalarBadField op w, 2), (cr.dual [.s (bits w 33 29)], 9)] with
    | some k => s.skipSlot c 0 k
    | none => s.setCrew c (cr.wS (bits w 33 29) (f cr w))
  else if op = 0x01 ∧ !(scalarOps.contains (bits w 39 34)) then s.skipSlot c 0 1
  else s

/-- The target of a branch (R177). -/
def branchTarget (foff w : Nat) : Nat :=
  (((foff : Int) + 32 * sext 24 (bits w 23 0)) % (2 ^ 22 : Nat)).toNat

/-- A branch of opcode `op` issues (R177, R156); taken, it keeps its crew from issuing for 2 cycles (R165). -/
def State.branchSlot (s : State) (op : Nat) (c : CrewRef) (w : Nat) : State :=
  let cr := s.crew c
  if !cr.active ∨ bits w 39 34 ≠ op then s
  else if scalarBadField op w then s.skipSlot c 0 2
  else if branchTaken op (Store.get 0 cr.snap.s (bits w 33 29)) (Store.get 0 cr.snap.s (bits w 28 24)) then
    let t := branchTarget cr.curFoff w
    let ls := closeLoops t cr.curLoops
    (s.setCrew c { cr with pc := t, loops := ls, stall := s.cycle + 3 }).bumpN (Reg.crwLoopExitCnt c.stope) (cr.curLoops.length - ls.length)
  else s

/-- Does a loop entry break R155. -/
def loopBad (levels : List LoopLevel) (last : Nat) : Bool :=
  levels.length ≥ 4 ||
  (match levels with
   | l :: _ => decide (l.last < last)
   | [] => false)

/-- A loop entry issues (R151-R155, R178). (DEDUCED: notes/assumptions/20) -/
def State.loopSlot (s : State) (c : CrewRef) (w : Nat) : State :=
  let cr := s.crew c
  if !cr.active ∨ bits w 39 34 ≠ 0x28 then s
  else
    let len := bits w 27 16 + 1
    let first := cr.curFoff + 32
    let last := cr.curFoff + 32 * len
    match firstCause [(scalarBadField 0x28 w, 2), (loopBad cr.curLoops last, 8)] with
    | some k => s.skipSlot c 0 k
    | none =>
      let n := if w.testBit 33 then bits w 15 0 else cr.sr (bits w 32 28) % 2 ^ 32
      if n = 0 then
        let r := fallThrough last cr.curLoops
        (s.setCrew c { cr with pc := r.1, loops := r.2 }).bump (Reg.crwLoopZeroCnt c.stope)
      else s.setCrew c { cr with pc := first, loops := ⟨first, last, n⟩ :: cr.curLoops }

/-- ADD (Table 7.2): d = a + b. -/
def execAdd (c : CrewRef) (slot : Slot40) (s : State) : Host.Outcome State Fault Refusal :=
  .next (s.scalarSlot 0x1 c slot.toNat fun cr w => scalarResult 0x1 cr w)

/-- SUB (Table 7.2): d = a − b. -/
def execSub (c : CrewRef) (slot : Slot40) (s : State) : Host.Outcome State Fault Refusal :=
  .next (s.scalarSlot 0x2 c slot.toNat fun cr w => scalarResult 0x2 cr w)

/-- MUL (Table 7.2): low 64 bits of a × b. -/
def execMul (c : CrewRef) (slot : Slot40) (s : State) : Host.Outcome State Fault Refusal :=
  .next (s.scalarSlot 0x3 c slot.toNat fun cr w => scalarResult 0x3 cr w)

/-- MULHU (Table 7.2): high 64 bits of unsigned a × b. -/
def execMulhu (c : CrewRef) (slot : Slot40) (s : State) : Host.Outcome State Fault Refusal :=
  .next (s.scalarSlot 0x4 c slot.toNat fun cr w => scalarResult 0x4 cr w)

/-- AND (Table 7.2): bitwise and. -/
def execAnd (c : CrewRef) (slot : Slot40) (s : State) : Host.Outcome State Fault Refusal :=
  .next (s.scalarSlot 0x5 c slot.toNat fun cr w => scalarResult 0x5 cr w)

/-- OR (Table 7.2): bitwise or. -/
def execOr (c : CrewRef) (slot : Slot40) (s : State) : Host.Outcome State Fault Refusal :=
  .next (s.scalarSlot 0x6 c slot.toNat fun cr w => scalarResult 0x6 cr w)

/-- XOR (Table 7.2): bitwise exclusive or. -/
def execXor (c : CrewRef) (slot : Slot40) (s : State) : Host.Outcome State Fault Refusal :=
  .next (s.scalarSlot 0x7 c slot.toNat fun cr w => scalarResult 0x7 cr w)

/-- SHL (Table 7.2): a shifted left by b mod 64. -/
def execShl (c : CrewRef) (slot : Slot40) (s : State) : Host.Outcome State Fault Refusal :=
  .next (s.scalarSlot 0x8 c slot.toNat fun cr w => scalarResult 0x8 cr w)

/-- SHR (Table 7.2): a shifted right logically by b mod 64. -/
def execShr (c : CrewRef) (slot : Slot40) (s : State) : Host.Outcome State Fault Refusal :=
  .next (s.scalarSlot 0x9 c slot.toNat fun cr w => scalarResult 0x9 cr w)

/-- SAR (Table 7.2): a shifted right arithmetically by b mod 64. -/
def execSar (c : CrewRef) (slot : Slot40) (s : State) : Host.Outcome State Fault Refusal :=
  .next (s.scalarSlot 0xa c slot.toNat fun cr w => scalarResult 0xa cr w)

/-- MIN (Table 7.2): signed minimum. -/
def execMin (c : CrewRef) (slot : Slot40) (s : State) : Host.Outcome State Fault Refusal :=
  .next (s.scalarSlot 0xb c slot.toNat fun cr w => scalarResult 0xb cr w)

/-- MAX (Table 7.2): signed maximum. -/
def execMax (c : CrewRef) (slot : Slot40) (s : State) : Host.Outcome State Fault Refusal :=
  .next (s.scalarSlot 0xc c slot.toNat fun cr w => scalarResult 0xc cr w)

/-- MINU (Table 7.2): unsigned minimum. -/
def execMinu (c : CrewRef) (slot : Slot40) (s : State) : Host.Outcome State Fault Refusal :=
  .next (s.scalarSlot 0xd c slot.toNat fun cr w => scalarResult 0xd cr w)

/-- MAXU (Table 7.2): unsigned maximum. -/
def execMaxu (c : CrewRef) (slot : Slot40) (s : State) : Host.Outcome State Fault Refusal :=
  .next (s.scalarSlot 0xe c slot.toNat fun cr w => scalarResult 0xe cr w)

/-- SLT (Table 7.2): 1 when a < b signed. -/
def execSlt (c : CrewRef) (slot : Slot40) (s : State) : Host.Outcome State Fault Refusal :=
  .next (s.scalarSlot 0xf c slot.toNat fun cr w => scalarResult 0xf cr w)

/-- SLTU (Table 7.2): 1 when a < b unsigned. -/
def execSltu (c : CrewRef) (slot : Slot40) (s : State) : Host.Outcome State Fault Refusal :=
  .next (s.scalarSlot 0x10 c slot.toNat fun cr w => scalarResult 0x10 cr w)

/-- SEQ (Table 7.2): 1 when a = b. -/
def execSeq (c : CrewRef) (slot : Slot40) (s : State) : Host.Outcome State Fault Refusal :=
  .next (s.scalarSlot 0x11 c slot.toNat fun cr w => scalarResult 0x11 cr w)

/-- MOVI (Table 7.2): IMM sign-extended. -/
def execMovi (c : CrewRef) (slot : Slot40) (s : State) : Host.Outcome State Fault Refusal :=
  .next (s.scalarSlot 0x17 c slot.toNat fun cr w => scalarResult 0x17 cr w)

/-- ADDI (Table 7.2): a + IMM sign-extended. -/
def execAddi (c : CrewRef) (slot : Slot40) (s : State) : Host.Outcome State Fault Refusal :=
  .next (s.scalarSlot 0x18 c slot.toNat fun cr w => scalarResult 0x18 cr w)

/-- ANDI (Table 7.2): a and IMM zero-extended. -/
def execAndi (c : CrewRef) (slot : Slot40) (s : State) : Host.Outcome State Fault Refusal :=
  .next (s.scalarSlot 0x19 c slot.toNat fun cr w => scalarResult 0x19 cr w)

/-- ORI (Table 7.2): a or IMM zero-extended. -/
def execOri (c : CrewRef) (slot : Slot40) (s : State) : Host.Outcome State Fault Refusal :=
  .next (s.scalarSlot 0x1a c slot.toNat fun cr w => scalarResult 0x1a cr w)

/-- XORI (Table 7.2): a exclusive or IMM zero-extended. -/
def execXori (c : CrewRef) (slot : Slot40) (s : State) : Host.Outcome State Fault Refusal :=
  .next (s.scalarSlot 0x1b c slot.toNat fun cr w => scalarResult 0x1b cr w)

/-- SHLI (Table 7.2): a shifted left by IMM[5:0]. -/
def execShli (c : CrewRef) (slot : Slot40) (s : State) : Host.Outcome State Fault Refusal :=
  .next (s.scalarSlot 0x1c c slot.toNat fun cr w => scalarResult 0x1c cr w)

/-- SHRI (Table 7.2): a shifted right logically by IMM[5:0]. -/
def execShri (c : CrewRef) (slot : Slot40) (s : State) : Host.Outcome State Fault Refusal :=
  .next (s.scalarSlot 0x1d c slot.toNat fun cr w => scalarResult 0x1d cr w)

/-- SARI (Table 7.2): a shifted right arithmetically by IMM[5:0]. -/
def execSari (c : CrewRef) (slot : Slot40) (s : State) : Host.Outcome State Fault Refusal :=
  .next (s.scalarSlot 0x1e c slot.toNat fun cr w => scalarResult 0x1e cr w)

/-- INSI (Table 7.2): a × 2^24 or IMM. -/
def execInsi (c : CrewRef) (slot : Slot40) (s : State) : Host.Outcome State Fault Refusal :=
  .next (s.scalarSlot 0x1f c slot.toNat fun cr w => scalarResult 0x1f cr w)

/-- BEQ (Table 7.2): branch when a = b (R177). -/
def execBeq (c : CrewRef) (slot : Slot40) (s : State) : Host.Outcome State Fault Refusal :=
  .next (s.branchSlot 0x20 c slot.toNat)

/-- BNE (Table 7.2): branch when a ≠ b (R177). -/
def execBne (c : CrewRef) (slot : Slot40) (s : State) : Host.Outcome State Fault Refusal :=
  .next (s.branchSlot 0x21 c slot.toNat)

/-- BLT (Table 7.2): branch when a < b signed (R177). -/
def execBlt (c : CrewRef) (slot : Slot40) (s : State) : Host.Outcome State Fault Refusal :=
  .next (s.branchSlot 0x22 c slot.toNat)

/-- BGE (Table 7.2): branch when a ≥ b signed (R177). -/
def execBge (c : CrewRef) (slot : Slot40) (s : State) : Host.Outcome State Fault Refusal :=
  .next (s.branchSlot 0x23 c slot.toNat)

/-- BLTU (Table 7.2): branch when a < b unsigned (R177). -/
def execBltu (c : CrewRef) (slot : Slot40) (s : State) : Host.Outcome State Fault Refusal :=
  .next (s.branchSlot 0x24 c slot.toNat)

/-- BGEU (Table 7.2): branch when a ≥ b unsigned (R177). -/
def execBgeu (c : CrewRef) (slot : Slot40) (s : State) : Host.Outcome State Fault Refusal :=
  .next (s.branchSlot 0x25 c slot.toNat)

/-- JMP (Table 7.2): branch when always (R177). -/
def execJmp (c : CrewRef) (slot : Slot40) (s : State) : Host.Outcome State Fault Refusal :=
  .next (s.branchSlot 0x26 c slot.toNat)

/-- LOOP (R151-R155, R178). -/
def execLoop (c : CrewRef) (slot : Slot40) (s : State) : Host.Outcome State Fault Refusal :=
  .next (s.loopSlot c slot.toNat)

end Sys2Proof.Machine
end

