-- ==== Sys2Proof/Machine/Issue.lean ====
section
/-!
DEFINITION. When a bundle issues (06 R143-R146, R163-R165): the registers that its slots read and write with their latencies,
the units that they need, tile handles and admission (04 R106, 07 R187), the post queue (10 R270), duplicates (05 R136), and
the choice among ready crews.
-/
namespace Sys2Proof.Machine

/-! ## What the slots read and write (06 R146, 07 Tables 7.2, 7.4, 7.8, 7.10, 7.12, 7.14) -/

/-- The bits of a slot of a bundle, 0 where it is disabled (06 Table 6.2). -/
def slotBits (w slot : Nat) : Nat :=
  if !w.testBit slot then 0
  else match slot with
    | 0 => bits w 47 8
    | 1 => bits w 95 48
    | 2 => bits w 143 96
    | 3 => bits w 183 144
    | 4 => bits w 223 184
    | _ => bits w 255 224

/-- Registers that a scalar slot reads. -/
def scalarReads (w : Nat) : List RegRef :=
  let op := bits w 39 34
  if op ≤ 0x11 then [.s (bits w 28 24), .s (bits w 23 19)]
  else if 0x18 ≤ op ∧ op ≤ 0x1F then [.s (bits w 28 24)]
  else if 0x20 ≤ op ∧ op ≤ 0x25 then [.s (bits w 33 29), .s (bits w 28 24)]
  else if op = 0x28 ∧ !w.testBit 33 then [.s (bits w 32 28)]
  else []

/-- The register that a scalar slot writes, with its latency (Table 7.2). -/
def scalarWrites (w : Nat) : List (RegRef × Nat) :=
  let op := bits w 39 34
  if op ≤ 0x1F then [(.s (bits w 33 29), if op = 0x03 ∨ op = 0x04 then 3 else 1)] else []

/-- The predicate registers of an index in a mode (05 R125). -/
def predRefs (mode q : Nat) : List RegRef := if half mode then [.p q, .p (q + 1)] else [.p q]

/-- Registers that a vector slot reads: the unwritten elements of its destination too (05 R125). -/
def VecSlot.reads (f : VecSlot) : List RegRef :=
  let two := [1, 2, 3, 4, 5, 6, 9, 0x0A, 0x10, 0x11, 0x12, 0x13, 0x14, 0x15, 0x16, 0x17, 0x18, 0x19].contains f.op
    || (f.op = 0x0C && f.aux = 0)
  let keys := if f.draws then [RegRef.s f.kb, .s (f.kb + 1), .s (f.kb + 2)] else []
  if f.op = 0x1C ∨ f.op = 0x1D ∨ f.op = 0x1E then [.p f.va, .p f.vb]
  else if f.op = 0x1F then [.p f.va]
  else if f.op = 0x28 then
    (if f.kind = 8 then [] else predRefs f.mode f.q) ++ .v f.va :: (if f.kind = 2 then [.v f.vb] else []) ++
    (if f.kind ≤ 2 ∨ f.kind = 5 ∨ f.kind = 6 then [.s f.sx] else []) ++
    (if 5 ≤ f.kind ∧ f.kind ≤ 7 then [.s f.sc] else []) ++ (if 7 ≤ f.kind then [.v f.vd] else [])
  else
    predRefs f.mode f.q ++ keys ++
    (if f.op = 0x20 ∨ f.op = 0x21 then [.s f.sx] else if f.op = 0x25 then [] else [.v f.va]) ++
    (if two then [.v f.vb] else []) ++ (if f.op = 4 then [.v f.vc] else []) ++
    (if f.op = 0x0A then predRefs f.mode f.vc else []) ++ (if f.op = 0x24 then [.s f.sx] else [])

/-- The latency of a vector operation (05 Table 5.1). -/
def VecSlot.latency (f : VecSlot) : Nat :=
  if f.op = 0x0C then 20
  else if f.op = 0x24 ∨ f.op = 0x25 ∨ (f.op = 0x0B ∧ bits f.ncb 5 4 = 2) then 6
  else if f.op = 0x28 then 12
  else 4

/-- Registers that a matrix slot reads: the descriptors and the tile coordinates (Table 7.7). -/
def MatSlot.reads (m : MatSlot) : List RegRef :=
  if matrixOps.contains m.op && m.op < 0x20 then [.s m.sa, .s (m.sa + 1), .s (m.sa + 2), .s (m.sa + 3)] else []

/-- Registers that a load slot reads (Table 7.10). -/
def loadReads (w : Nat) : List RegRef :=
  let op := bits w 39 34
  let a := bits w 28 24
  if !loadOps.contains op then []
  else .s a ::
    (if op = 3 ∧ w.testBit 19 then [.s (a + 1)] else []) ++ (if op = 5 then [.s (bits w 20 16)] else []) ++
    (if op = 6 then .s (bits w 4 0) :: (if (Ncb.ofNat (bits w 15 8)).rnd = 2 then
      [.s (bits w 20 16), .s (bits w 20 16 + 1), .s (bits w 20 16 + 2)] else []) else [])

/-- The register that a load slot writes, with its latency (Table 7.10). -/
def loadWrites (w : Nat) : List (RegRef × Nat) :=
  let op := bits w 39 34
  if !loadOps.contains op then []
  else [(loadDst op w, match op with
    | 1 | 4 => 6
    | 2 => 10
    | 6 => 24
    | _ => 12)]

/-- Registers that a store slot reads (Table 7.12). -/
def storeReads (w : Nat) : List RegRef :=
  let b := bits w 33 29
  let a := RegRef.s (bits w 28 24)
  match bits w 39 34 with
  | 1 | 4 | 5 => [a, .s b]
  | 2 => [a, .v b] ++ (if w.testBit 19 then [.p (bits w 18 16), .p (bits w 18 16 + 1)] else [.p (bits w 18 16)])
  | 3 => [a, .p b]
  | _ => []

/-- Registers that a sync slot reads (Table 7.14). -/
def syncReads (w : Nat) : List RegRef :=
  match bits w 31 26 with
  | 1 | 2 | 3 => [.s (bits w 9 5)]
  | 8 | 9 => [.s (bits w 25 21), .s (bits w 20 16)]
  | _ => []

/-- The register that a sync slot writes, with its latency; a wait keeps its crew from issuing until it has written (R165). -/
def syncWrites (w : Nat) : List (RegRef × Nat) := if bits w 31 26 = 4 then [(.s (bits w 4 0), 4)] else []

/-- Every register that a bundle reads. -/
def bundleReads (w : Nat) : List RegRef :=
  let on := fun (k : Nat) (l : List RegRef) => if w.testBit k then l else []
  on 0 (scalarReads (slotBits w 0)) ++
  on 1 (if vectorOps.contains (bits (slotBits w 1) 47 42) then (VecSlot.ofNat (slotBits w 1)).reads else []) ++
  on 2 (MatSlot.ofNat (slotBits w 2)).reads ++ on 3 (loadReads (slotBits w 3)) ++
  on 4 (storeReads (slotBits w 4)) ++ on 5 (syncReads (slotBits w 5))

/-- Every register that a bundle writes: slot, register, latency. -/
def bundleWrites (w : Nat) : List (Nat × RegRef × Nat) :=
  let on := fun (k : Nat) (l : List (RegRef × Nat)) => if w.testBit k then l.map fun e => (k, e.1, e.2) else []
  let f := VecSlot.ofNat (slotBits w 1)
  on 0 (if scalarOps.contains (bits (slotBits w 0) 39 34) then scalarWrites (slotBits w 0) else []) ++
  on 1 (if vectorOps.contains f.op then f.dst.map fun r => (r, f.latency) else []) ++
  on 3 (loadWrites (slotBits w 3)) ++ on 5 (syncWrites (slotBits w 5))

/-! ## Readiness (06 R146, R163; 07 R187; 10 R270) -/

/-- Has a register no write pending in this cycle (R146). p[0] is never written (05 R125). -/
def Crew.free (cr : Crew) (now : Nat) (r : RegRef) : Bool :=
  r = .p 0 || cr.busy.all fun b => b.reg ≠ r || b.ready ≤ now

/-- Has every earlier bundle of the crew completed, as HOLD asks (R143): no write, duplicate or tile of it is pending.
(DESIGN CHOICE: notes/assumptions/21) -/
def Crew.quiet (cr : Crew) (now : Nat) : Bool :=
  cr.busy.all (fun b => b.ready ≤ now) && cr.dups.isEmpty &&
  cr.handles.all fun e => match e.2 with
    | .pending _ => false
    | _ => true

/-- Does the stope have a duplicate that takes this cycle, the 64th after its original (05 R136). -/
def State.dupDue (s : State) (stope : Nat) : Bool :=
  (List.range 16).any fun k => (s.crew ⟨stope, k⟩).dups.any fun d => !d.issued && d.at_ + 64 ≤ s.cycle

/-- Will the sluice accept the vector slot of a bundle (05 R121, R136): no duplicate has issued in this cycle, and the unit of its
class is free. (DESIGN CHOICE: notes/assumptions/21) -/
def State.sluiceFree (s : State) (stope w : Nat) : Bool :=
  let x := s.stope stope
  let op := bits (slotBits w 1) 47 42
  !w.testBit 1 || (x.vecNext ≤ s.cycle && (op ≠ 0x0C || x.transFree ≤ s.cycle) && (op ≠ 0x28 || x.redFree ≤ s.cycle))

/-- Does a bundle post to the post row while the post queue is full (10 R270). -/
def State.postHeld (s : State) (c : CrewRef) (cr : Crew) (w : Nat) : Bool :=
  let x := slotBits w 4
  w.testBit 4 && bits x 39 34 = 1 && bits x 17 16 = 3 && cr.effOff x = postRow && s.postFree c.stope = 0

/-- Does a bundle's matrix slot name a handle that is pending (07 R187). -/
def Crew.handleHeld (cr : Crew) (w : Nat) : Bool :=
  let m := MatSlot.ofNat (slotBits w 2)
  w.testBit 2 && matrixOps.contains m.op && (match cr.handle m.lh with
    | .pending _ => true
    | _ => false)

/-- Does a bundle's matrix slot start a tile that the drill does not admit (04 R106). -/
def State.admitHeld (s : State) (c : CrewRef) (i : Instance) (cr : Crew) (w : Nat) : Bool :=
  let m := MatSlot.ofNat (slotBits w 2)
  w.testBit 2 && matrixOps.contains m.op && m.op < 0x20 &&
  s.tileHeld c.stope (s.judgeTile c i cr m (slotBits w 2)).2

/-- Is the crew's kernel image still on its way, so that nothing may be fetched (08 R220, 10 R271).
(DESIGN CHOICE: notes/assumptions/23) -/
def State.imageWait (s : State) (c : CrewRef) (i : Instance) : Bool :=
  match i.origin with
  | .dispatch id _ =>
    s.dispatches.any fun d => d.id = id && d.copying.any fun x => x.1 = c.stope
  | .canary _ _ _ _ => (s.skip c.stope).streams.any fun x => x.use = .image 0

/-- Did the copy of the crew's kernel image fail (10 R271). -/
def State.imageFailed (s : State) (c : CrewRef) (i : Instance) : Bool :=
  i.noImage || (match i.origin with
    | .dispatch id _ => s.dispatches.any fun d => d.id = id && d.copyFailed.contains c.stope
    | .canary _ _ _ _ => false)

/-- Bytes that a compare buffer holds for one run of a pair (15 R405). -/
def trafficBytes (l : List Traffic) : Nat := (l.map fun t => 8 * t.words.length).foldl (· + ·) 0

/-- Is one run of a level-2 pair 256 KiB ahead of the other (15 R405). (DESIGN CHOICE: notes/assumptions/23) -/
def State.pairLeads (s : State) (i : Instance) : Bool :=
  s.pairs.any fun (p : Pair) => p.id = i.pair && 262144 ≤ trafficBytes (if i.shadow then p.shadow else p.primary)

/-- May a crew fetch at all: it runs an instance whose image has arrived, and no wait of it is pending (R149, R163). -/
def State.mayFetch (s : State) (c : CrewRef) (i : Instance) : Bool :=
  (s.crew c).active && !(s.imageWait c i) && !(s.pairLeads i)

/-- A fetch that faults (R150): the program counter is past face memory, or the image never came. -/
def State.fetchFaults (s : State) (c : CrewRef) (i : Instance) : Bool :=
  s.imageFailed c i || decide (0x300000 ≤ (s.crew c).pc)

/-- Do R146, R165 and the units let a bundle issue, tile admission apart. -/
def State.unheld (s : State) (c : CrewRef) (cr : Crew) (w : Nat) : Bool :=
  cr.stall ≤ s.cycle && (bundleReads w).all (cr.free s.cycle) && (bundleWrites w).all (fun e => cr.free s.cycle e.2.1) &&
  (!w.testBit 6 || cr.quiet s.cycle) && s.sluiceFree c.stope w && !(s.postHeld c cr w) && !(cr.handleHeld w) &&
  !(s.heldAt (faceBase c.stope + cr.pc) 32)

/-- The crew with its registers as its next bundle reads them (R145), and that bundle. -/
def State.nextBundle (s : State) (c : CrewRef) : Crew × Nat :=
  let cr := s.crew c
  ({ cr with snap := cr.regs }, s.faceRead c.stope cr.pc 32)

/-- Is a crew ready (R163): its next bundle is fetched and may issue. -/
def State.crewReady (s : State) (c : CrewRef) : Bool :=
  match (s.crew c).inst with
  | none => false
  | some i =>
    s.mayFetch c i && !(s.fetchFaults c i) &&
    (let b := s.nextBundle c
     s.unheld c b.1 b.2 && !(s.admitHeld c i b.1 b.2))

/-- Does a crew wait for the admission of its tile alone (04 R106). -/
def State.crewHeld (s : State) (c : CrewRef) : Bool :=
  match (s.crew c).inst with
  | none => false
  | some i =>
    s.mayFetch c i && !(s.fetchFaults c i) &&
    (let b := s.nextBundle c
     s.unheld c b.1 b.2 && s.admitHeld c i b.1 b.2)

/-- The ready crews of a stope in the order of R164: in ascending number after the crew that issued last, normal ones first. -/
def State.readyCrews (s : State) (stope : Nat) : List Nat :=
  let last := (s.stope stope).lastCrew
  let l := ((List.range 16).map fun k => (last + 1 + k) % 16).filter fun k => s.crewReady ⟨stope, k⟩
  let ballast := fun (k : Nat) => (s.crew ⟨stope, k⟩).inst.any fun i => i.ballast
  l.filter (fun k => !(ballast k)) ++ l.filter ballast

/-- The crew that a stope lets issue (R163, R164): none once it has issued in this cycle, or while a duplicate takes it. -/
def State.issuer (s : State) (stope : Nat) : Option Nat :=
  if s.turns.contains stope || s.cycle < (s.stope stope).dupTook || s.dupDue stope then none else (s.readyCrews stope).head?

/-! ## Issue -/

/-- The units that the vector slot of a bundle holds: the transcendental unit and the reduction unit for as many cycles as their
rates take over a register (05 R121, Table 5.1). (DESIGN CHOICE: notes/assumptions/21) -/
def StopeCtl.holdUnits (x : StopeCtl) (now w : Nat) : StopeCtl :=
  let f := VecSlot.ofNat (slotBits w 1)
  if !w.testBit 1 then x
  else if f.op = 0x0C then { x with transFree := now + 4 }
  else if f.op = 0x28 then { x with redFree := now + elemCount f.mode / 128 }
  else x

/-- A crew's next bundle issues (R144, R145, R154): its slots read the registers as they stand, and it falls through unless the
scalar slot branches. -/
def Crew.issue (cr : Crew) (now slc w : Nat) : Crew :=
  let n := fallThrough cr.pc cr.loops
  let pend := (bundleWrites w).map fun e => (⟨e.2.1, e.1, now, now + e.2.2⟩ : Busy)
  { cr with
    snap := cr.regs
    curFoff := cr.pc
    curLoops := cr.loops
    written := []
    pc := n.1
    loops := n.2
    busy := cr.busy.filter (fun b => now < b.ready) ++ pend
    issued := now
    loadDue := w.testBit 3
    slc }

/-- A stope issues the next bundle of a crew. -/
def State.issueBundle (s : State) (c : CrewRef) : State :=
  let cr := s.crew c
  let w := s.crewRead c cr.pc 32
  let s := { w.1 with turns := c.stope :: w.1.turns }.active c.stope
  let s := s.modStope c.stope fun x => { x.holdUnits s.cycle w.2 with lastCrew := c.crew }
  let s := s.modCrew c fun x => x.issue s.cycle (s.was Reg.slcCtrl) w.2
  let s := s.bump (Reg.crwBundleCnt c.stope)
  if w.2.testBit 7 then s.skipSlot c 6 12 else s

/-- BUNDLE_FETCH (06 R143-R150, R154, R163-R165): a fetch that faults ends the instance; else the crew's next bundle issues when the
stope chooses the crew. (DESIGN CHOICE: notes/assumptions/21) -/
def execBundleFetch (c : CrewRef) (s : State) : Host.Outcome State Fault Refusal :=
  match (s.crew c).inst with
  | none => .next s
  | some i =>
    if !(s.mayFetch c i) then .next s
    else if s.fetchFaults c i then .next (s.fetchFault c (s.crew c).pc)
    else if s.issuer c.stope = some c.crew then .next (s.issueBundle c)
    else .next s

/-- DUPLICATE_ISSUE (05 R136): the oldest unissued duplicate of the crew issues in a cycle after its original's in which no vector
operation of the stope does; from the 64th on it takes the cycle, which counts when it holds back a bundle that a crew was
ready to issue. -/
def execDuplicateIssue (stope crew : Nat) (s : State) : Host.Outcome State Fault Refusal :=
  let c : CrewRef := ⟨stope, crew⟩
  let cr := s.crew c
  match cr.dups.find? (!·.issued) with
  | none => .next s
  | some d =>
    if s.cycle ≤ d.at_ || s.cycle < (s.stope c.stope).vecNext then .next s
    else
      let stolen := d.at_ + 64 ≤ s.cycle && !(s.turns.contains c.stope) && !(s.readyCrews c.stope).isEmpty
      let t := (s.setCrew c { cr with dups := cr.dups.map fun x => if x = d then { x with issued := true } else x }).modStope
        c.stope fun x =>
          { x with vecNext := s.cycle + 1
                   dupTook := if d.at_ + 64 ≤ s.cycle then s.cycle + 1 else x.dupTook
                   stole := if stolen then s.cycle + 1 else x.stole }
      .next (t.bumpIf stolen (Reg.slcDupStealCnt c.stope))

/-! ## Waiting for the lode store (04 R106, R107) -/

/-- Each cycle in which a tile waits for a context or for lode-store units counts once (04 R106, Table 4.7): crews whose bundle is
held back for its tile, and re-runs that wait for units. (DEDUCED: notes/assumptions/31) -/
def State.countLodeWaits (s : State) : State :=
  (List.range 144).foldl (fun s st =>
    if s.drill st = Drill.idle then s
    else
      let n := ((List.range 16).filter fun k => s.crewHeld ⟨st, k⟩).length +
        ((s.drill st).ctxs.filter fun t => t.phase = .waitUnits).length
      if n = 0 then s else s.bumpN (Reg.drlLodeWaitCnt st) n) s

end Sys2Proof.Machine
end

