-- ==== Sys2Proof/Machine/Crews.lean ====
section
/-!
DEFINITION. The onsetter (06 R141, R166-R169; 08 R219-R224; 15 R405, R423-R426): dispatch, commit,
switching crews out and in.
-/
namespace Sys2Proof.Machine

/-! ## Dispatch (08 R219-R223) -/

/-- Is a crew idle (06 R166). -/
def State.crewIdle (s : State) (c : CrewRef) : Bool :=
  decide ((s.crew c).phase = .idle) && (s.crew c).inst.isNone

/-- The lowest-numbered idle crew of a stope (R221). -/
def State.idleCrewOf (s : State) (stope : Nat) : Option CrewRef :=
  ((List.range 16).find? fun n => s.crewIdle ⟨stope, n⟩).map fun n => ⟨stope, n⟩

/-- Can a stope receive instances: active and not about to leave service, not selected for gating, its block ON (R221, 10 R275, 17
R468, 18 R488). -/
def State.stopeOpen (s : State) (stope : Nat) : Bool :=
  decide (s.stopeState stope = 1) && decide ((s.stope stope).leaving = 0) && !(s.stope stope).gate && s.blockOn (0x100 + stope)

/-- The next stope of a level in ascending number after the last one served that can take an instance (R221). -/
def State.pickStope (s : State) (level : Nat) (ok : Nat → Bool) : Option CrewRef :=
  let last := Store.get 71 s.lastStope level
  (((List.range 72).map fun k => level * 72 + (last + 1 + k) % 72).find? fun st =>
    s.stopeOpen st && ok st && (s.idleCrewOf st).isSome).bind s.idleCrewOf

/-- The onsetter of a level has served a stope (R221). -/
def State.served (s : State) (stope : Nat) : State :=
  { s with lastStope := Store.set 71 s.lastStope (stope / 72) (stope % 72) }

/-- The crew state of a new instance (06 R141). -/
def Crew.fresh (i : Instance) (dupCount : Nat) : Crew :=
  let w := fun (m : Store Dword) (k v : Nat) => Store.set 0 m k (BitVec.ofNat 64 v)
  { Crew.idle with
    phase := .running
    inst := some i
    regs := { CrewRegs.zero with s := w (w (w (w [] 0 i.tile) 1 i.args) 2 i.coord) 3 i.step.num }
    pc := i.kface + i.entry
    dupCount }

/-- Give an instance to an idle crew (06 R141, 08 R221): the crew's bundle count of 05 R136 goes on.
(DESIGN CHOICE: notes/assumptions/95) -/
def State.putInstance (s : State) (c : CrewRef) (i : Instance) : State :=
  let r := s.newId
  let s := r.2
  let s := s.setCrew c (Crew.fresh { i with order := r.1, started := s.cycle } (s.crew c).dupCount)
  (s.setPhase c .running).served c.stope

/-- A stream that the module itself runs on a stope skip: a kernel-image copy or a merge (10 R271). -/
def State.ownStream (s : State) (k : Nat) (use : StreamUse) (step : StepId) (at_ : Nat) (d : Option StreamDesc) :
    Nat × State :=
  let r := s.newId
  (r.1, r.2.setSkip k { r.2.skip k with
    streams := (r.2.skip k).streams ++ [{ Stream.waiting r.1 use step at_ true with desc := d }] })

/-- The stream descriptor of a kernel-image copy (08 R220). (DESIGN CHOICE: notes/assumptions/24) -/
def imageDesc (src kface klen : Nat) : StreamDesc :=
  { src, dst := kface, rowlen := klen, rows := 1, sstride := 0, dstride := 0, sface := false, dface := true,
    remote := false, gal := 0, ctally := 0, cadd := 0, dnode := 0, rtally := 0, rate := 0, burst := 0, rsig := false,
    rsvOk := true, tag := 0 }

/-- Change a DISPATCH in progress. -/
def State.modDispatch (s : State) (id : Nat) (f : Dispatch → Dispatch) : State :=
  { s with dispatches := s.dispatches.map fun d => if d.id = id then f d else d }

/-- Copy the kernel image of a DISPATCH to a stope, once (08 R220). (DESIGN CHOICE: notes/assumptions/24) -/
def State.copyImage (s : State) (d : Dispatch) (stope : Nat) : State :=
  if d.copied.contains stope || d.copyFailed.contains stope || d.copying.any (·.1 = stope) then s
  else if d.klen = 0 then s.modDispatch d.id fun x => { x with copied := x.copied ++ [stope] }
  else
    let r := s.ownStream stope (.image d.id) d.step 0 (some (imageDesc d.kimg d.kface d.klen))
    r.2.modDispatch d.id fun x => { x with copying := x.copying ++ [(stope, r.1)] }

/-- The instance of a work-list entry (08 Table 8.6) before its tickets are known. (DEDUCED: notes/assumptions/27) -/
def entryInstance (d : Dispatch) (idx w seed level : Nat) : Instance :=
  { tile := getBytes w 0 8, step := d.step, args := getBytes w 8 8, coord := getBytes w 16 8,
    entry := getBytes w 24 4, kface := d.kface, klen := d.klen, seed, keyStep := d.step.num,
    origin := .dispatch d.id idx, ballast := false, prio := d.prio, shaft := d.shaft, pos := d.pos, level, ticket := 0,
    born := 0, tickets := [], oldTickets := [], shadow := false, pair := 0, started := 0, order := 0, bad := none,
    ended := false, result := 0, faultEnd := false, noImage := false, canaryFail := none, refusals := [],
    storeRefusals := [], restart := Restart.empty, done := Restart.empty, nSignal := 0, nSkip := 0, nPost := 0,
    mergesOut := 0, mergeIssued := false }

/-- Check level in force (15 R404). -/
def State.checkLevel (s : State) : Nat := s.fld Reg.dptCtrl Fld.dptCtrlLevel

/-- Start an instance with its ticket (15 R408) and, at level 2, open its pair: the second run waits for another stope
(15 R405). (DEDUCED: notes/assumptions/27) -/
def State.startInstance (s : State) (c : CrewRef) (i : Instance) : State :=
  let r := s.issueTicket i.step 1 i.oldTickets (if i.oldTickets = [] then none else some 1)
  let i := { i with ticket := r.1, born := r.2.1, tickets := [r.1] }
  let s := r.2.2.modStep i.step fun x => { x with level := x.level.orElse fun _ => some i.level }
  if i.level = 2 then
    let p := s.newId
    let q : Pair := { id := p.1, stope := c.stope, primary := [], shadow := [], mismatch := false, endedP := false,
                      endedS := false, badP := none, kept := none, waitingShadow := some { i with shadow := true, pair := p.1 } }
    ({ p.2 with pairs := p.2.pairs ++ [q] }).putInstance c { i with pair := p.1 }
  else s.putInstance c i

/-- The step of an instance's ticket for which a restarted run's streams must complete is held by its tile ticket: give
the ticket the number of the run (15 R412). -/
def State.tieTicket (s : State) (c : CrewRef) : State :=
  match (s.crew c).inst with
  | none => s
  | some i => { s with tickets := s.tickets.map fun t =>
      if t.id = i.ticket && t.waitTile.isSome then { t with waitTile := some i.order } else t }

/-- Serve the next entry of a DISPATCH on a crew (08 R219, R221). An entry whose ENTRY is bad is reported as a fetch
fault; one that cannot be read stays untaken. -/
def State.serveEntry (s : State) (d : Dispatch) (c : CrewRef) : State :=
  match s.devRead none (d.list + 32 * d.next) 32 with
  | (s, .stop _) => s
  | (s, .ok (w, bad)) =>
    let seed := ((s.step? d.step).map (·.seed)).getD 0
    let i := entryInstance d d.next w seed s.checkLevel
    let i := { i with bad := if bad then some 4 else none }
    let take := fun (s : State) =>
      { s.modDispatch d.id (fun x => { x with next := x.next + 1, waitSince := s.cycle }) with
        lastShaft := Store.set 255 s.lastShaft (c.stope / 72) d.shaft }
    if i.entry % 32 ≠ 0 ∨ d.klen ≤ i.entry then
      let s := take (s.putInstance c i)
      s.fetchFault c (d.kface + i.entry)
    else if !s.ticketRoom then s.waitOn (.entry d.id d.next) .ticket
    else (take ((s.copyImage d c.stope).startInstance c i)).tieTicket c

/-- Give a re-queued instance to a crew (08 R223; 15 R412): it restarts from its start under a new ticket that resolves
together with its old ones. -/
def State.serveRequeued (s : State) (i : Instance) (c : CrewRef) : State :=
  if !s.ticketRoom then s.waitOn (.again i.ticket) .ticket
  else
    let s := { s with requeued := s.requeued.erase i }
    let s := match i.origin with
      | .dispatch id _ => (match s.dispatches.find? (fun (d : Dispatch) => d.id = id) with
        | some d => s.copyImage d c.stope
        | none => s)
      | _ => s
    (s.startInstance c i).tieTicket c

/-- Place the waiting second run of a pair on another stope (15 R405). -/
def State.serveShadow (s : State) (p : Pair) (i : Instance) (c : CrewRef) : State :=
  let s := { s with pairs := s.pairs.map fun (q : Pair) => if q.id = p.id then { q with waitingShadow := none } else q }
  let s := match i.origin with
    | .dispatch id _ => (match s.dispatches.find? (fun (d : Dispatch) => d.id = id) with
      | some d => s.copyImage d c.stope
      | none => s)
    | _ => s
  s.putInstance c i

/-- Levels that may take a re-queued instance: those of its DISPATCH. -/
def State.levelsOf (s : State) (i : Instance) : Nat :=
  match i.origin with
  | .dispatch id _ => ((s.dispatches.find? fun (d : Dispatch) => d.id = id).map fun d => d.levels).getD 3
  | _ => 3

/-- Start a canary of the active pack on a crew (15 R423, R424, R426). -/
def State.startCanary (s : State) (p : Pack) (c : CrewRef) (forced : Bool) : State :=
  let idx := (s.stope c.stope).canaryNext % p.entries.length
  match p.entries[idx]? with
  | none => s
  | some e =>
    let va := s.fld Reg.dptPackVa0 Fld.dptPackVaVaLo * 2 ^ 16 + s.fld Reg.dptPackVa1 Fld.dptPackVaVaHi * 2 ^ 32
      + p.half * 0x4000000
    let kface := s.fld Reg.dptCanaryFace Fld.dptCanaryFaceBaseKib * 1024 + e.foff
    let i : Instance :=
      { tile := idx, step := ⟨2 ^ 64, e.step⟩, args := va + e.argoff, coord := 0, entry := e.entry, kface,
        klen := e.klen, seed := e.seed, keyStep := e.step, origin := .canary p.version idx e.runlimit e.expect,
        ballast := true, prio := if forced then 1 else 0, shaft := 0, pos := 0, level := min s.checkLevel 1, ticket := 0,
        born := 0, tickets := [], oldTickets := [], shadow := false, pair := 0, started := 0, order := 0, bad := none,
        ended := false, result := 0, faultEnd := false, noImage := false, canaryFail := none, refusals := [],
        storeRefusals := [], restart := Restart.empty, done := Restart.empty, nSignal := 0, nSkip := 0, nPost := 0,
        mergesOut := 0, mergeIssued := false }
    let s := if e.klen = 0 then s
      else (s.ownStream c.stope (.image 0) i.step 0 (some (imageDesc (va + e.koff) kface e.klen))).2
    let s := s.modStope c.stope fun x =>
      { x with canaryNext := (idx + 1) % p.entries.length, canaryBusy := true, canaryForced := false }
    s.putInstance c i

/-- The active pack, while canaries are enabled (15 R423). -/
def State.canaryPack (s : State) : Option Pack :=
  if s.flag Reg.dptCtrl Fld.dptCtrlCanaryEn then s.pack.filter fun p => p.entries ≠ [] else none

/-- The DISPATCH commands with the priority class their shafts have now (R222). -/
def State.classed (s : State) : List Dispatch :=
  s.dispatches.map fun d => { d with prio := s.fld (Reg.sftShaftCtrl d.shaft) Fld.sftShaftCtrlPrio }

/-- The first of the DISPATCH commands given for a level, in the order in which they are served (R222): highest class first,
within it the next shaft after the last one served. -/
def State.firstServed (s : State) (level : Nat) (l : List Dispatch) : Option Dispatch :=
  let top := (l.map (·.prio)).foldl max 0
  let last := Store.get 255 s.lastShaft level
  (l.filter (·.prio = top)).foldl (fun (best : Option Dispatch) d =>
    let key := fun (x : Dispatch) => ((x.shaft + 256 - (last + 1) % 256) % 256, x.pos)
    match best with
    | none => some d
    | some b =>
      if (key d).1 < (key b).1 || ((key d).1 = (key b).1 && d.id < b.id) then some d else some b) none

/-- DISPATCH commands with an entry to take on a level (R221). -/
def State.entries (s : State) (level : Nat) : List Dispatch :=
  s.classed.filter fun d => d.next < d.count && d.levels.testBit level

/-- The DISPATCH whose entry is served next on a level (R222). -/
def State.nextDispatch (s : State) (level : Nat) : Option Dispatch := s.firstServed level (s.entries level)

/-! ## Switching out and in (06 R167-R169) -/

/-- Has the wait of a saved context been satisfied, or was it preempted (R169). -/
def SavedCtx.mayResume (x : SavedCtx) : Bool := x.preempted || x.ready

/-- The saved contexts of a stope that may resume (R169). -/
def State.resumables (s : State) (stope : Nat) : List SavedCtx := s.saved.filter fun x => x.stope = stope && x.mayResume

/-- Does a saved context of a stope wait to resume, so that no new instance is dispatched to the stope (R169). -/
def State.resuming (s : State) (stope : Nat) : Bool := !(s.resumables stope).isEmpty

/-- The free save slots in ascending number (R168), as CRW_SAVE_SLOTS stood before this cycle (R171). -/
def State.freeSlots (s : State) : List Nat :=
  (List.range (s.fldWas Reg.crwSaveSlots Fld.crwSaveSlotsSlots)).filter fun n =>
    !(s.saved.any fun x => x.slot = n) && !(s.crews.any fun e => e.2.saveSlot = some n)

/-- Crews that drain and will take a save slot each. -/
def State.slotClaims (s : State) : Nat :=
  (s.crews.filter fun e => decide (e.2.phase = .draining) && e.2.saveSlot.isNone).length

/-- Is a save slot free for one more switch-out (R167). (DESIGN CHOICE: notes/assumptions/29) -/
def State.slotRoom (s : State) : Bool := decide (s.slotClaims < s.freeSlots.length)

/-- CRW_SAVE_USED follows the slots in use (Table 6.7). -/
def State.countSlots (s : State) : State :=
  s.setFld Reg.crwSaveUsed Fld.crwSaveUsedUsed
    ((s.saved.filter fun (x : SavedCtx) => !(s.crews.any fun e => e.2.saveSlot = some x.slot)).length +
      (s.crews.filter fun e => e.2.saveSlot.isSome).length)

/-- The device virtual address of a save slot (R168). -/
def State.slotVa (s : State) (slot : Nat) : Nat := s.reg64 Reg.crwSaveBase0 Reg.crwSaveBase1 + slot * 0x400000

/-- Begin to switch a crew out: it issues no further bundle and drains (R167, R168); without a free save slot the refusal is
counted. -/
def State.switchOut (s : State) (c : CrewRef) (preempted : Bool) : State :=
  if s.slotRoom then
    (s.modCrew c fun x => { x with saveSlot := none, preempted, saveLen := 19264, savedH := [] }).setPhase c .draining
  else s.bump (Reg.crwNoslotCnt c.stope)

/-- Has a draining crew drained (R168): its operations, the passes of its tiles and its duplicates are complete.
(DESIGN CHOICE: notes/assumptions/29) -/
def State.drained (s : State) (c : CrewRef) : Bool :=
  let cr := s.crew c
  cr.phase = .draining && cr.busy.all (fun b => b.ready ≤ s.cycle) && cr.dups.isEmpty &&
  (s.drill c.stope).ctxs.all fun t => t.crew ≠ c.crew || t.phase = .ready || t.phase = .waitUnits || t.phase = .retained

/-- A drained crew takes the lowest-numbered free save slot, once (R168): the slot that it has. -/
def State.takeSlot (s : State) (c : CrewRef) : State × Option Nat :=
  match (s.crew c).saveSlot with
  | some n => (s, some n)
  | none =>
    if !s.drained c then (s, none)
    else match s.freeSlots.head? with
      | none => (s, none)
      | some n => ((s.modCrew c fun x => { x with saveSlot := some n }).countSlots, some n)

/-- Does the onsetter hold a dispatchable instance for a stope: an entry, a re-queued instance, or the second run of a pair. -/
def State.entryFor (s : State) (stope : Nat) : Bool :=
  s.stopeOpen stope &&
  (s.dispatches.any (fun d => d.next < d.count && d.levels.testBit (stope / 72)) ||
   s.requeued.any (fun i => (s.levelsOf i).testBit (stope / 72)) ||
   s.pairs.any fun p => p.stope ≠ stope && p.waitingShadow.any fun i => (s.levelsOf i).testBit (stope / 72))

/-- SWITCH_WAIT_EXPIRY (R167): a wait has been pending for CRW_SWITCH_WAIT cycles, and was not satisfied in the last of them (R231),
while work waits for the stope and no crew of it is idle. -/
def execSwitchWaitExpiry (c : CrewRef) (s : State) : Host.Outcome State Fault Refusal :=
  let cr := s.crew c
  match cr.phase, cr.wait with
  | .waiting, some w =>
    if w.sat.isNone && w.late.isNone && s.was Reg.crwSwitchWait < s.cycle - w.since && s.entryFor c.stope
        && (s.idleCrewOf c.stope).isNone && s.was Reg.crwSaveSlots ≠ 0 then
      .next (s.switchOut c false)
    else .next s
  | _, _ => .next s

/-- Crews of a level's active stopes that run an instance of a class below `p`, with class and dispatch order.
(DESIGN CHOICE: notes/assumptions/29) -/
def State.victims (s : State) (levels p : Nat) : List (CrewRef × Nat × Nat) :=
  s.crews.filterMap fun e =>
    let c : CrewRef := ⟨e.1 / 16, e.1 % 16⟩
    match e.2.inst with
    | some i =>
      if levels.testBit (c.stope / 72) && s.stopeState c.stope = 1 && i.prio < p && !i.ballast && !i.ended
          && (e.2.phase = .running || e.2.phase = .waiting) then some (c, i.prio, i.order) else none
    | none => none

/-- The crew that a preemption is aimed at (R224): of the lowest class, the most recently dispatched. -/
def pickVictim (l : List (CrewRef × Nat × Nat)) : Option CrewRef :=
  (l.foldl (fun (best : Option (CrewRef × Nat × Nat)) x =>
    match best with
    | none => some x
    | some b => if x.2.1 < b.2.1 || (x.2.1 = b.2.1 && b.2.2 < x.2.2) then some x else some b) none).map (·.1)

/-- The crew that an entry which has waited SFT_PREEMPT_WAIT cycles preempts, when no crew on an active stope of its levels is
idle (R224). -/
def State.preempts? (s : State) (d : Dispatch) : Option CrewRef :=
  let idle := (List.range 144).any fun st =>
    s.stopeState st = 1 && d.levels.testBit (st / 72) && (s.idleCrewOf st).isSome
  if s.cycle - d.waitSince < s.reg Reg.sftPreemptWait || idle then none else pickVictim (s.victims d.levels d.prio)

/-- PREEMPT_REQUEST (R224): an entry of the level that has waited preempts a crew, the first in the order of service among those
that have, while no request of the level is outstanding. -/
def execPreemptRequest (level : Nat) (s : State) : Host.Outcome State Fault Refusal :=
  match (s.firstServed level ((s.entries level).filter fun d => (s.preempts? d).isSome)).bind s.preempts? with
  | none => .next s
  | some c =>
    if Store.get 0 s.preempts level ≠ 0 then .next s
    else if s.slotRoom then .next (({ s with preempts := Store.set 0 s.preempts level (crewKey c + 1) }).switchOut c true)
    else .next (s.bump (Reg.crwNoslotCnt c.stope))

/-! ## Saved contexts (04 R112, R113; 06 Table 6.6) -/

/-- The accumulators of a tile's checksum state, in the order column checks, row checks, column and row remainders
(04 R114): none at check level 0, no remainders for a full lode. (DEDUCED: notes/assumptions/32) -/
def TileCtx.checkSums (t : TileCtx) : List Int :=
  if !t.check then []
  else
    let all := fun (m : Store Int) (n : Nat) => (List.range n).map fun i => Store.get 0 m i
    let r := tileRows t.shape
    let c := tileCols t.shape
    all t.chk.col c ++ all t.chk.row r ++ (if t.kind = 2 then [] else all t.chk.colRem c ++ all t.chk.rowRem r)

/-- Outputs of a tile shape. -/
def tileOuts (shape : Nat) : Nat := tileRows shape * tileCols shape

/-- The length of a saved tile context (04 Table 4.6). -/
def TileCtx.size (t : TileCtx) : Nat := 64 + imageBytes t.kind * tileOuts t.shape + 82 * t.checkSums.length

/-- A saved tile context as bytes (04 Table 4.6): header, one image per output, checksum state. `free` gives the bits of a value
that no image of its kind holds. (DEDUCED: notes/assumptions/32; DESIGN CHOICE: notes/assumptions/17) -/
def TileCtx.bytes (t : TileCtx) (free : Nat → Nat) : Nat :=
  let n := tileOuts t.shape
  let ib := imageBytes t.kind
  let lode := fun k => Store.get LodeAcc.zero t.lodes k
  let chk := t.checkSums
  let head := packFields [(8, t.tile), (1, t.shape), (1, t.ncb), (2, t.lcw), (1, t.fmt + 8 * t.mx.toNat), (1, t.run),
    (1, t.kind), (1, 0), (2, ofInt 16 (if t.kind = 2 then 0 else t.anchor)), (2, t.slab), (1, t.pass), (3, 0),
    (8, (lode 0).terms), (8, t.adesc), (8, t.bdesc), (8, t.odesc), (4, 82 * chk.length), (4, 0)]
  let imgs := packElems (8 * ib) ((List.range n).map fun k => (lode k).image t.kind t.anchor (free k))
  let sums := packElems 656 (chk.map (ofInt 656))
  head + 2 ^ 512 * (imgs + 2 ^ (8 * ib * n) * sums)

/-- A tile context of a crew that is switched out goes to its save slot (04 R112). -/
def State.saveTile (s : State) (c : CrewRef) (slot : Nat) (i : Instance) (t : TileCtx) : State :=
  let cr := s.crew c
  let off := (cr.saveLen + 63) / 64 * 64
  let free := fun (k : Nat) => s.openBits c.stope t (t.trow * tileRows t.shape + k / tileCols t.shape)
    (t.tcol * tileCols t.shape + k % tileCols t.shape) (Store.get LodeAcc.zero t.lodes k)
  match s.devWrite (some c.stope) (s.slotVa slot + off) t.size (t.bytes free) with
  | (_, .stop _) => s
  | (s, .ok _) =>
    let s := s.freeCtx c.stope t.id
    let s := s.modCrew c fun x => { x with saveLen := off + t.size, savedH := x.savedH ++ [(t.handle, off)] }
    let add := fun (x : SavedCtx) => if x.slot = slot then { x with tiles := x.tiles ++ [(t.handle, t)] } else x
    let new : SavedCtx :=
      { stope := c.stope, crew := c.crew, slot, inst := i, pc := cr.pc, wait := none, preempted := false, ready := false,
        tiles := [(t.handle, t)], sites := cr.merge.map fun (m : MergeEntry) => m.site }
    let s := { s with saved := if s.saved.any (fun (x : SavedCtx) => x.slot = slot) then s.saved.map add
      else s.saved ++ [new] }
    s.bump (Reg.drlCtxSaveCnt c.stope)

/-- TILE_CONTEXT_SAVE (04 R112): the tile context of a drained crew is written to its save slot, and the context and its units are
freed. -/
def execTileContextSave (stope ctx : Nat) (s : State) : Host.Outcome State Fault Refusal :=
  match s.tile stope ctx with
  | none => .next s
  | some t =>
    let c := t.crewRef stope
    match (s.crew c).inst, s.takeSlot c with
    | some i, (s, some slot) => .next (s.saveTile c slot i t)
    | _, _ => .next s

/-- The crew record of a save slot (Table 6.6). -/
def Crew.record (cr : Crew) (c : CrewRef) (i : Instance) : Nat :=
  let sreg := (List.range 32).map fun k => (Store.get 0 cr.regs.s k).toNat
  let vreg := (List.range 8).map fun k => (Store.get 0 cr.regs.v k).toNat
  let preg := (List.range 8).map fun k => if k = 0 then 2 ^ 512 - 1 else (Store.get 0 cr.regs.p k).toNat
  let loops := (List.range 4).map fun k => match cr.loops.reverse[k]? with
    | some l => packFields [(4, l.first), (4, l.last), (4, l.count)]
    | none => 0
  let merge := (List.range 16).map fun k => match cr.merge[k]? with
    | some m => packFields [(96, m.lode.image 2 0 0), (8, m.target)]
    | none => 0
  let htab := (List.range 32).map fun k => ((cr.savedH.find? (·.1 = k)).map (·.2)).getD 0
  let hvalid := (List.range 32).map fun k => (cr.savedH.any (·.1 = k)).toNat
  packFields [(8, i.tile), (8, i.step.num), (4, (cr.wait.map fun w => w.foff).getD cr.pc), (1, cr.wait.isSome.toNat + 2 * i.ballast.toNat), (1, cr.loops.length), (2, c.stope),
    (4, packElems 1 hvalid), (2, 2 ^ cr.merge.length - 1), (2, 0), (4, cr.saveLen), (28, 0),
    (256, packElems 64 sreg), (16384, packElems 16384 vreg), (512, packElems 512 preg), (128, packElems 256 loops),
    (1664, packElems 832 merge), (256, packElems 64 htab)]

/-- The saved context of a crew that is switched out (R168, R169). -/
def State.savedCtx (s : State) (c : CrewRef) (slot : Nat) (cr : Crew) (i : Instance) : SavedCtx :=
  let tiles := ((s.saved.find? fun (x : SavedCtx) => x.slot = slot).map (·.tiles)).getD []
  { stope := c.stope, crew := c.crew, slot, inst := i, pc := cr.pc, wait := cr.wait,
    preempted := cr.preempted || cr.wait.isNone, ready := (cr.wait.map fun w => w.sat.isSome).getD true, tiles,
    sites := cr.merge.map fun (m : MergeEntry) => m.site }

/-- CREW_SAVE (R168): the record of a drained crew whose tile contexts are saved is written to its save slot, and the crew becomes
idle. -/
def execCrewSave (c : CrewRef) (s : State) : Host.Outcome State Fault Refusal :=
  let cr := s.crew c
  match cr.phase, cr.inst, s.takeSlot c with
  | .draining, some i, (s, some slot) =>
    if (s.drill c.stope).ctxs.any (fun t => t.crew = c.crew) || cr.dups ≠ [] then .next s
    else
      match s.devWrite (some c.stope) (s.slotVa slot) 19264 (cr.record c i) with
      | (_, .stop _) => .next s
      | (s, .ok _) =>
        let x := s.savedCtx c slot cr i
        let s := { s with saved := s.saved.filter (fun (y : SavedCtx) => y.slot ≠ slot) ++ [x] }
        let s := { s with preempts := s.preempts.filter fun (e : Nat × Nat) => e.2 ≠ crewKey c + 1 }
        let s := (s.setCrew c { Crew.idle with dupCount := cr.dupCount }).setPhase c .idle
        .next ((s.bump (Reg.crwSwitchOutCnt c.stope)).countSlots)
  | _, _, _ => .next s

/-- Lodes of a saved tile context from its images (04 R113, Table 4.6). -/
def savedLodes (shape kind w : Nat) : Store LodeAcc :=
  let ib := imageBytes kind
  (List.range (tileOuts shape)).foldl (fun m k =>
    Store.set LodeAcc.zero m k (LodeAcc.ofImage kind (getBytes w (64 + ib * k) ib)).1) []

/-- Restore one saved tile context from its slot (04 R113): none when its images cannot be read. -/
def State.restoreTile (s : State) (c : CrewRef) (va : Nat) (t : TileCtx) : Option State :=
  match s.devRead (some c.stope) va t.size with
  | (_, .stop _) => none
  | (s, .ok (w, bad)) =>
    let t := { t with crew := c.crew, lodes := savedLodes t.shape t.kind w, slab := getBytes w 18 2,
                      pass := getBytes w 20 1, units := if t.phase = .waitUnits then 0 else tileUnits t.shape t.kind }
    let d := s.drill c.stope
    let s := (s.setDrill c.stope { d with ctxs := d.ctxs ++ [t] }).bump (Reg.drlCtxRestoreCnt c.stope)
    let s := s.modCrew c fun x =>
      x.setHandle t.handle (if t.phase = .retained then .retained t.id else .pending t.id)
    some (if bad then s.markBad c 4 else s)

/-- The registers, loops and merge buffer of a crew record (Table 6.6). -/
def Crew.ofRecord (cr : Crew) (w : Nat) : Crew :=
  let regs : CrewRegs :=
    { s := (List.range 32).foldl (fun m k => Store.set 0 m k (BitVec.ofNat 64 (getBytes w (64 + 8 * k) 8))) []
      v := (List.range 8).foldl (fun m k => Store.set 0 m k (BitVec.ofNat 16384 (getBytes w (320 + 2048 * k) 2048))) []
      p := (List.range 7).foldl (fun m k =>
        Store.set 0 m (k + 1) (BitVec.ofNat 512 (getBytes w (16704 + 64 * (k + 1)) 64))) [] }
  let loops := ((List.range (getBytes w 21 1)).map fun k =>
    let o := 17216 + 32 * k
    (⟨getBytes w o 4, getBytes w (o + 4) 4, getBytes w (o + 8) 4⟩ : LoopLevel)).reverse
  let merge := (cr.merge.zip (List.range cr.merge.length)).map fun m =>
    { m.1 with target := getBytes w (17344 + 104 * m.2 + 96) 8
               lode := (LodeAcc.ofImage 2 (getBytes w (17344 + 104 * m.2) 96)).1 }
  { cr with regs, snap := regs, loops, curLoops := loops, merge }

/-- Units that the saved tiles of a context claim again (04 R113). -/
def SavedCtx.units (x : SavedCtx) : Nat :=
  (x.tiles.map fun e => if e.2.phase = .waitUnits then 0 else tileUnits e.2.shape e.2.kind).foldl (· + ·) 0

/-- A wait that is re-performed on a resume (R169, 07 R201): its timeout starts afresh. -/
def CrewWait.again (w : CrewWait) (now : Nat) : CrewWait :=
  { w with since := now, left := w.timeout, age := 0, sat := none, late := none }

/-- Resume a saved context on an idle crew of its stope (R169): none while its units or tile contexts are not free, or its slot
cannot be read. -/
def State.resume (s : State) (x : SavedCtx) (c : CrewRef) : Option State :=
  let d := s.drill x.stope
  if d.unitsFree < x.units ∨ 32 < d.ctxs.length + x.tiles.length then none
  else
    match s.devRead (some x.stope) (s.slotVa x.slot) 19264 with
    | (_, .stop _) => none
    | (s, .ok (w, bad)) =>
      let n := bits (getBytes w 28 2) 15 0
      let cr : Crew := { Crew.idle with
        phase := .running, inst := some x.inst, pc := x.pc, dupCount := (s.crew c).dupCount
        merge := (List.range (Nat.log2 (n + 1))).map fun k => ⟨0, LodeAcc.zero, x.sites.getD k ⟨0, 0⟩⟩ }
      let s := (s.setCrew c (cr.ofRecord w)).setPhase c .running
      let s := if bad then s.markBad c 4 else s
      (x.tiles.foldl (fun (o : Option State) e => o.bind fun s =>
        s.restoreTile c (s.slotVa x.slot + getBytes w (19008 + 8 * e.1) 8) e.2) (some s)).map fun s =>
        let s := match x.wait with
          | none => s
          | some wt => (s.modCrew c fun y => { y with wait := some (wt.again s.cycle) }).setPhase c .waiting
        let s := { s with saved := s.saved.filter fun (y : SavedCtx) => y.slot ≠ x.slot }
        ((s.bump (Reg.crwSwitchInCnt c.stope)).served c.stope).countSlots

/-- A stope resumes the first of its resumable contexts that can, on its lowest-numbered idle crew (R169). -/
def State.resumeOn (s : State) (stope : Nat) : Option State :=
  if s.stopeState stope ≠ 1 || (s.stope stope).leaving ≠ 0 then none
  else (s.idleCrewOf stope).bind fun c => (s.resumables stope).findSome? fun x => s.resume x c

/-- CREW_RESUME (R169): a resumable context takes the lowest-numbered idle crew of its stope. -/
def execCrewResume (stope : Nat) (s : State) : Host.Outcome State Fault Refusal := .next ((s.resumeOn stope).getD s)

/-! ## The onsetter's order of service (08 R222) -/

/-- The second run of a pair that a stope of the level can take (15 R405). -/
def State.shadowFor (s : State) (level : Nat) : Option (Pair × Instance × CrewRef) :=
  s.pairs.findSome? fun (p : Pair) => match p.waitingShadow with
    | some i =>
      if (s.levelsOf i).testBit level then
        (s.pickStope level fun st => st ≠ p.stope && !(s.resuming st)).map fun c => (p, i, c)
      else none
    | none => none

/-- A stope of the level that serves a canary, forced ones only or any (15 R423): ballast stops when the cap asks for it (17
R467), and runs beside a running canary when level draw asks for more (17 R472). -/
def State.canaryFor (s : State) (level : Nat) (forced : Bool) : Option CrewRef :=
  s.pickStope level fun st =>
    (!(s.stope st).canaryBusy || (!forced && s.power.extra)) && (if forced then (s.stope st).canaryForced else !s.power.noBallast)
      && !(s.resuming st)

/-- A stope of the level that is to return to service after a canary (16 R453, 19 R516). -/
def State.returnFor (s : State) (level : Nat) : Option CrewRef :=
  (((List.range 72).map fun k => level * 72 + k).find? fun st =>
    (s.stope st).returning && !(s.stope st).passed && !(s.stope st).canaryBusy && s.blockOn (0x100 + st)
      && (s.idleCrewOf st).isSome).bind s.idleCrewOf

/-- ONSETTER_DISPATCH (08 R221, R222): the onsetter of a level serves, in this order, a resumable context, a re-queued
instance or second run or forced canary, the next work-list entry, and ballast. -/
def execOnsetterDispatch (level : Nat) (s : State) : Host.Outcome State Fault Refusal :=
  let any := fun (st : Nat) => !(s.resuming st)
  match (s.pickStope level fun st => (s.resumeOn st).isSome).bind fun c => s.resumeOn c.stope with
  | some t => .next t
  | none =>
    match s.requeued.find? (fun i => (s.levelsOf i).testBit level), s.shadowFor level, s.pickStope level any with
    | some i, _, some c => .next (s.serveRequeued i c)
    | _, some (p, i, c), _ => .next (s.serveShadow p i c)
    | _, _, none =>
      match s.canaryPack, s.returnFor level with
      | some p, some f => .next (s.startCanary p f true)
      | _, _ => .next s
    | _, _, some c =>
      match s.canaryPack, (s.returnFor level).orElse (fun _ => s.canaryFor level true), s.nextDispatch level, s.canaryFor level false with
      | some p, some f, _, _ => .next (s.startCanary p f true)
      | _, _, some d, _ => .next (s.serveEntry d c)
      | some p, _, none, some f => .next (s.startCanary p f false)
      | _, _, none, _ => .next s

/-! ## Commit (06 R166) -/

/-- Issue a crew's merge buffer as lode-adds of lode values (05 R128, 10 R271); a shadow run's are only compared.
(DESIGN CHOICE: notes/assumptions/25) -/
def State.issueMerges (s : State) (c : CrewRef) (i : Instance) : State :=
  let l := (s.crew c).merge
  let s := l.foldl (fun s m =>
    s.offStope i ⟨4, [m.target, m.lode.image 2 0 0]⟩ fun s =>
      ((s.ownStream c.stope (.merge c.crew m.site m.lode) i.step m.target none).2.bump (Reg.slcMergeCnt c.stope)).modInst c
        fun i => { i with mergesOut := i.mergesOut + 1 }) s
  (s.modCrew c fun x => { x with merge := [] }).modInst c fun i => { i with mergeIssued := true }

/-- Is a tile of the crew not yet committed and not handed on by its handle. -/
def State.tilesOpen (s : State) (c : CrewRef) : Bool :=
  (s.drill c.stope).ctxs.any fun t => t.crew = c.crew && t.phase ≠ .retained

/-- Has a run of a pair posted streams that have not completed, whose words are still to be compared (15 R406). -/
def State.pairStreams (s : State) (c : CrewRef) (i : Instance) : Bool :=
  i.pair ≠ 0 && (s.skip c.stope).streams.any fun (x : Stream) => x.pair = i.pair && x.shadow = i.shadow

/-- INSTANCE_COMMIT (06 R166): an ended instance issues its merge buffer once its tiles have committed and no duplicate
is pending, and commits when every merge is done. (DESIGN CHOICE: notes/assumptions/25) -/
def execInstanceCommit (c : CrewRef) (s : State) : Host.Outcome State Fault Refusal :=
  let cr := s.crew c
  match cr.inst with
  | none => .next s
  | some i =>
    if !i.ended || s.tilesOpen c || cr.dups ≠ [] || s.pairStreams c i then .next s
    else if cr.merge ≠ [] && !i.mergeIssued then .next (s.issueMerges c i)
    else if i.mergesOut ≠ 0 then .next s
    else .next (s.finishInstance c)

end Sys2Proof.Machine
end

