-- ==== Sys2Proof/Machine/Phase.lean ====
section
/-!
DEFINITION. Phase markers (14 R398-R400): the time mark, the record, its match and the LONG judgement.
-/
namespace Sys2Proof.Machine

/-- Nanoseconds of fleet time between two marks, truncated and saturated (R399): a frame lasts WHS_PERIOD ticks of 10 ns. -/
def phaseDur (period : Nat) (a b : PhaseMark) : Nat :=
  let f := fun (m : PhaseMark) => (clockMHz m.freq : Int)
  let n : Int := ((b.frame : Int) - a.frame) * period * 10 * (f a * f b) + b.cyc * 1000 * f a - a.cyc * 1000 * f b
  min (n / (f a * f b)).toNat 0xFFFFFFFF

/-- Take the first begin of a phase and micro-batch out of the unmatched ones. -/
def takeBegin (phase mb : Nat) : List PhaseMark → Option PhaseMark × List PhaseMark
  | [] => (none, [])
  | m :: l =>
    if m.phase = phase ∧ m.mb = mb then (some m, l)
    else
      let r := takeBegin phase mb l
      (r.1, m :: r.2)

/-- Sort ascending. -/
def sortNat (l : List Nat) : List Nat := l.foldl (fun m x => m.takeWhile (· ≤ x) ++ x :: m.dropWhile (· ≤ x)) []

/-- The lower median of a list (R400). -/
def lowerMedian (l : List Nat) : Nat := (sortNat l).getD ((l.length - 1) / 2) 0

/-- Is a duration LONG against the kept ones (R400). -/
def isLong (mult : Nat) (kept : List Nat) (dur : Nat) : Bool :=
  decide (mult ≠ 0) && decide (4 ≤ kept.length) && decide (mult * lowerMedian kept < 8 * dur)

/-- A phase record (Table 14.6). -/
def phaseRecord (step frame cyc phase edge shaft mb dur : Nat) (long unmatched : Bool) : Nat :=
  packFields [(8, step), (4, frame), (4, cyc), (1, phase), (1, edge), (2, shaft), (4, mb), (4, dur),
    (1, long.toNat + 2 * unmatched.toNat), (3, 0)]

/-- Write a phase record: to the pit log for the shaft's current step and, when enabled, to the phase ring (R399). -/
def State.phaseWrite (s : State) (step : StepId) (shaft rec_ : Nat) : State :=
  let s := s.report step ⟨11, false, false, shaft, rec_⟩
  if s.flag Reg.smlCtrl Fld.smlCtrlPhaseqEn then s.ringPush ringPhase true 32 rec_ else s

/-- A PHASE command completes (R398-R400). -/
def State.phaseMark (s : State) (shaft : Nat) (step : StepId) (c : Command) : State :=
  let b := fun (lo n : Nat) => getBytes c.raw lo n
  let m : PhaseMark :=
    { phase := b 16 1, mb := b 20 4, frame := s.frame, cyc := s.cycle - s.bcycle, freq := s.freqCode }
  let rec_ := phaseRecord step.num m.frame m.cyc m.phase (b 17 1) shaft m.mb
  if b 17 1 = 0 then
    ({ s with phases := { s.phases with begun := m :: s.phases.begun } }).phaseWrite step shaft (rec_ 0 false false)
  else
    match takeBegin m.phase m.mb s.phases.begun with
    | (none, _) => s.phaseWrite step shaft (rec_ 0 false true)
    | (some a, l) =>
      let dur := phaseDur (s.fld Reg.whsPeriod Fld.whsPeriodTicks) a m
      let kept := Store.get [] s.phases.kept m.phase
      let long := isLong (s.fld Reg.smlLongMult Fld.smlLongMultMult) kept dur
      let kept := kept ++ [dur]
      let s := { s with phases :=
        { begun := l, kept := Store.set [] s.phases.kept m.phase (kept.drop (kept.length - 15)),
          long := s.phases.long || long } }
      let s := s.phaseWrite step shaft (rec_ dur long false)
      if long then (s.bump Reg.smlLongCnt).raiseIf (s.flag Reg.smlCtrl Fld.smlCtrlLongEvent) 9 else s

end Sys2Proof.Machine
end

