-- ==== Sys2Proof/Machine/Shafts.lean ====
section
/-!
DEFINITION. Shafts (08 R205-R218, R235): rings, doorbells, the start, refusal and completion of commands, and the
commands that no engine executes: NOP, STEP_BEGIN, DISPATCH, ASSAY_CLEAR, TALLY and STEP_END (15 R421).
-/
namespace Sys2Proof.Machine

/-! ## Rings (08 R205-R208) -/

/-- The hidden state of a shaft. -/
def State.shaft (s : State) (n : Nat) : Shaft := Store.get Shaft.idle s.shafts n

/-- Change the hidden state of a shaft. -/
def State.modShaft (s : State) (n : Nat) (f : Shaft → Shaft) : State :=
  { s with shafts := Store.modify Shaft.idle s.shafts n f }

/-- Entries of a shaft's ring (R205). -/
def State.ringSize (s : State) (n : Nat) : Nat := 2 ^ max 6 (s.fld (Reg.sftShaftCtrl n) Fld.sftShaftCtrlSizeLog2)

/-- The device virtual address of a shaft's ring (R205). -/
def State.ringBase (s : State) (n : Nat) : Nat :=
  s.fld (Reg.sftRingLo n) Fld.sftRingLoBaseLo * 4096 + s.fld (Reg.sftRingHi n) Fld.sftRingHiBaseHi * 2 ^ 32

/-- Is a shaft enabled. -/
def State.shaftOn (s : State) (n : Nat) : Bool := s.flag (Reg.sftShaftCtrl n) Fld.sftShaftCtrlEn

/-- Is a shaft halted (R212, R233). -/
def State.halted (s : State) (n : Nat) : Bool := s.fld (Reg.sftShaftStat n) Fld.sftShaftStatHalt ≠ 0

/-- Entries from index `a` forward to index `b` of a ring. -/
def ringDist (size a b : Nat) : Nat := (b + size - a % size) % size

/-- Read one ring entry (R208): its 64 bytes, and whether it could not be read. An entry with a marked word counts as
unreadable (09 R255). (DEDUCED: notes/assumptions/34) -/
def State.readEntry (s : State) (n idx : Nat) : State × Nat × Bool :=
  match s.devRead none (s.ringBase n + 64 * idx) 64 with
  | (s, .stop _) => (s, 0, true)
  | (s, .ok (w, bad)) => (s, w, bad)

/-- Decode one entry (R208). -/
def State.decodeOne (s : State) (n idx : Nat) : State :=
  let r := s.readEntry n idx
  let i := r.1.newId
  let c : Command := { id := i.1, pos := idx, raw := r.2.1, unread := r.2.2, age := 0, declared := none, met := false, sat := false }
  (i.2.modShaft n fun h => { h with decoded := h.decoded ++ [c] }).setReg (Reg.sftDecode n) ((idx + 1) % s.ringSize n)

/-- Decode submitted commands in ring order, at most 512 ahead of HEAD (R208). -/
def State.decodeShaft (s : State) (n : Nat) : Nat → State
  | 0 => s
  | fuel + 1 =>
    let size := s.ringSize n
    let d := s.reg (Reg.sftDecode n)
    if s.shaftOn n && decide (d ≠ s.reg (Reg.sftDoorbell n)) && decide (ringDist size (s.reg (Reg.sftHead n)) d ≤ 512) then
      State.decodeShaft (s.decodeOne n d) n fuel
    else s

/-- Decode what may be decoded. -/
def State.pump (s : State) (n : Nat) : State := s.decodeShaft n 513

/-- A shaft event, when refusals raise one (R207, R212). -/
def State.refuseEvent (s : State) : State := s.raiseIf (s.flag Reg.sftCtrl Fld.sftCtrlRefuseEvent) 3

/-- SHAFT_DOORBELL (R206-R208): the written index, modulo the ring size, is judged against HEAD and TAIL; accepted
commands are decoded. -/
def execShaftDoorbell (shaft val : Nat) (s : State) : Host.Outcome State Fault Refusal :=
  if !s.up 1 then .next s else
  let s := s.noteReserved (Reg.sftDoorbell shaft) val
  let size := s.ringSize shaft
  let v := val % 2 ^ 16 % size
  let tail := s.reg (Reg.sftDoorbell shaft)
  if v = tail % size then .next s
  else if ringDist size tail v ≤ ringDist size tail (s.reg (Reg.sftHead shaft) + size - 1) then
    .next ((s.setReg (Reg.sftDoorbell shaft) v).pump shaft)
  else .next (s.bump Reg.sftDbBadCnt).refuseEvent

/-- SHAFT_ENABLE (R205): EN from 0 to 1 sets HEAD, DECODE and TAIL to 0. Commands started before run on and complete
without moving the new HEAD; a halt stands until RESUME or ABORT (R235). (DEDUCED: notes/assumptions/33) -/
def execShaftEnable (shaft : Nat) (s : State) : Host.Outcome State Fault Refusal :=
  if !s.up 1 then .next s else
  if s.shaftOn shaft then .next s
  else
    let s := s.setFld (Reg.sftShaftCtrl shaft) Fld.sftShaftCtrlEn 1
    let s := ((s.setReg (Reg.sftHead shaft) 0).setReg (Reg.sftDecode shaft) 0).setReg (Reg.sftDoorbell shaft) 0
    .next (s.modShaft shaft fun h =>
      { Shaft.idle with started := h.started.map fun c => { c with old := true } })

/-- SHAFT_DISABLE (Table 8.8): no new command starts; started commands complete. -/
def execShaftDisable (shaft : Nat) (s : State) : Host.Outcome State Fault Refusal :=
  if !s.up 1 then .next s else
  .next (s.setFld (Reg.sftShaftCtrl shaft) Fld.sftShaftCtrlEn 0)

/-- Clear the halt of a shaft. -/
def State.clearHalt (s : State) (n : Nat) : State :=
  (s.setFld (Reg.sftShaftStat n) Fld.sftShaftStatHalt 0).modShaft n fun h => { h with rejudge := false }

/-- SHAFT_RESUME (R235): a refused command is read again from the ring and judged again; a stalled one goes on
waiting. (DEDUCED: notes/assumptions/35) -/
def execShaftResume (shaft : Nat) (s : State) : Host.Outcome State Fault Refusal :=
  if !s.up 1 then .next s else
  if !s.halted shaft then .next s
  else
    let h := s.shaft shaft
    let s := s.clearHalt shaft
    match h.rejudge, h.decoded with
    | true, c :: l =>
      let r := s.readEntry shaft c.pos
      .next ((r.1.modShaft shaft fun h =>
        { h with decoded := { c with raw := r.2.1, unread := r.2.2, met := false, sat := false, age := 0, declared := none } :: l }))
    | _, _ => .next s

/-- SHAFT_ABORT (R235): the commands from HALT_POS up to TAIL that have not started are discarded; HEAD and DECODE are
set to TAIL; the discard is reported for the shaft's current step and blocks its seal.
(DEDUCED: notes/assumptions/35) -/
def execShaftAbort (shaft : Nat) (s : State) : Host.Outcome State Fault Refusal :=
  if !s.up 1 then .next s else
  if !s.halted shaft then .next s
  else
    let h := s.shaft shaft
    let pos := s.fld (Reg.sftShaftStat shaft) Fld.sftShaftStatHaltPos
    let tail := s.reg (Reg.sftDoorbell shaft)
    let s := ((s.clearHalt shaft).setReg (Reg.sftHead shaft) tail).setReg (Reg.sftDecode shaft) tail
    let s := s.modShaft shaft fun h =>
      { h with decoded := [], started := h.started.map fun c => { c with old := true } }
    match h.step with
    | none => .next s
    | some st => .next (s.report st ⟨3, true, false, shaft,
        packFields [(8, 0), (8, st.num), (4, pos), (2, 0), (1, 0), (1, 7), (1, 0), (1, 0), (1, 1), (1, 0), (4, 0)]⟩)

/-! ## Starting, refusing and completing (08 R209-R212) -/

/-- Opcode (Table 8.1). -/
def Command.op (c : Command) : Nat := getBytes c.raw 0 1
/-- FLAGS (Table 8.1). -/
def Command.flags (c : Command) : Nat := getBytes c.raw 1 1
/-- `n` bytes of the entry from byte `lo`. -/
def Command.get (c : Command) (lo n : Nat) : Nat := getBytes c.raw lo n

/-- Has a command's WAIT been satisfied and has it resumed (R210, R227). -/
def Command.waitMet (c : Command) : Bool :=
  match c.waitOn with
  | some _ => c.sat
  | none => true

/-- The head command of a shaft, when the conditions of R210 other than its engine's hold. -/
def State.headCommand (s : State) (n : Nat) : Option Command :=
  match (s.shaft n).decoded with
  | c :: _ =>
    if s.shaftOn n && !s.halted n && c.waitMet && (!c.flags.testBit 2 || (s.shaft n).started.isEmpty) then some c
    else none
  | [] => none

/-- Refuse a command when it would start (R212). -/
def State.refuseCommand (s : State) (n : Nat) (c : Command) (cause : Nat) : State :=
  let s := s.setReg (Reg.sftShaftStat n) (2 ^ 30 + cause % 256 * 2 ^ 16 + c.pos % 2 ^ 16)
  (s.modShaft n fun h => { h with rejudge := true }).refuseEvent

/-- What a command answers when it would start: refused with a cause of Table 8.2, not accepted yet by its engine, or
started. -/
inductive Verdict where
  | refuse (cause : Nat)
  | hold
  | start (x : Started)

/-- A started command that carries its shaft's current step. -/
def State.startedAs (s : State) (n : Nat) (c : Command) (st : CmdState) : Started :=
  { cmd := c, state := st, step := (s.shaft n).step, covers := [], old := false, failed := false, stallAge := 0,
    stallCounted := false }

/-- The first command of a shaft leaves the decoded ones and is started. -/
def State.beginCommand (s : State) (n : Nat) (x : Started) : State :=
  s.modShaft n fun h => { h with decoded := h.decoded.drop 1, started := h.started ++ [x] }

/-- Cause 2 of the header: FLAGS [7:4], or an EVENT_VEC above 2,047 (Table 8.1). (DEDUCED: notes/assumptions/34) -/
def Command.badHeader (c : Command) : Bool := c.flags / 16 ≠ 0 || 2047 < c.get 10 2

/-- The engine of a command, as a block of Table 18.4. -/
def Command.block (c : Command) : Option Nat :=
  match c.op with
  | 0x10 => some (4 + c.get 28 1 % 16)
  | 0x11 => some 0
  | 0x12 => some 1
  | 0x13 => some 2
  | 0x14 => some 3
  | _ => none

/-- Does a command's engine accept no command because of a block reset (18 R488). -/
def State.engineShut (s : State) (c : Command) : Bool :=
  match c.block with
  | some b => !s.blockOn b
  | none => false

/-- The head command of a shaft starts, if its opcode is `op`: judged, and refused or executed by `f`. -/
def State.startCommand (s : State) (n op : Nat) (f : State → Command → State × Verdict) : State :=
  match s.headCommand n with
  | none => s
  | some c =>
    if c.unread || c.op ≠ op || s.engineShut c then s
    else if c.badHeader then s.refuseCommand n c 2
    else
      match f s c with
      | (s, .refuse k) => s.refuseCommand n c k
      | (s, .hold) => s
      | (s, .start x) => s.beginCommand n x

/-- The opcodes of Table 8.3. -/
def shaftOps : List Nat := [1, 2, 3, 4, 5, 6, 7, 0x10, 0x11, 0x12, 0x13, 0x14]

/-- Refuse a head entry that could not be read (cause 5) or has a reserved opcode (cause 1; R212, R213). -/
def State.refuseReserved (s : State) (n : Nat) : State :=
  match s.headCommand n with
  | none => s
  | some c =>
    if c.unread then s.refuseCommand n c 5
    else if shaftOps.contains c.op then s
    else s.refuseCommand n c 1

/-- Answer the first cause that applies, or `v`. -/
def judge (l : List (Bool × Nat)) (v : Verdict) : Verdict :=
  match firstCause l with
  | some k => .refuse k
  | none => v

/-- NOP (Table 8.3): completes at once. -/
def execNop (shaft : Nat) (s : State) : Host.Outcome State Fault Refusal :=
  .next (s.startCommand shaft 1 fun s c =>
    (s, judge [(decide (c.get 16 48 ≠ 0), 2)] (.start (s.startedAs shaft c .done))))

/-- TALLY (Table 8.3): its signal is made at its completion. -/
def execTally (shaft : Nat) (s : State) : Host.Outcome State Fault Refusal :=
  .next (s.startCommand shaft 5 fun s c =>
    (s, judge [(decide (c.get 28 1 / 2 ≠ 0 ∨ c.get 29 35 ≠ 0), 2)] (.start (s.startedAs shaft c .done))))

/-- PHASE (14 R398): it does no work of its own; its mark is taken at its completion. -/
def execPhase (shaft : Nat) (s : State) : Host.Outcome State Fault Refusal :=
  .next (s.startCommand shaft 6 fun s c =>
    (s, judge [(decide (63 < c.get 16 1 ∨ 1 < c.get 17 1 ∨ c.get 18 2 ≠ 0 ∨ c.get 24 40 ≠ 0), 7)]
      (.start (s.startedAs shaft c .done))))

/-! ## Descriptors named by commands (08 R214, R217) -/

/-- Read the tensor descriptors at the given addresses: those read, and the refusal causes met (4 inconsistent, 5
misaligned or unreadable). -/
def State.readDescs (s : State) : List Nat → State × List TensorDesc × List Nat
  | [] => (s, [], [])
  | a :: l =>
    let r := s.readDesc none a
    let q := State.readDescs r.1 l
    match r.2 with
    | some (t, false) => (q.1, t :: q.2.1, if t.ok then q.2.2 else 4 :: q.2.2)
    | _ => (q.1, q.2.1, 5 :: q.2.2)

/-- ASSAY_CLEAR (Table 8.3). -/
def execAssayClear (shaft : Nat) (s : State) : Host.Outcome State Fault Refusal :=
  .next (s.startCommand shaft 4 fun s c =>
    let r := s.readDescs [c.get 16 8]
    match firstCause [(decide (c.get 24 40 ≠ 0), 2), (r.2.2.contains 4, 4), (r.2.2.contains 5, 5)] with
    | some k => (r.1, .refuse k)
    | none => (r.2.1.foldl (fun s t => s.assayClear none t) r.1, .start (s.startedAs shaft c .done)))

/-! ## Steps (08 R214, R215; 15 R421) -/

/-- Steps begun and not sealed in the current sequence (R214). (DEDUCED: notes/assumptions/36) -/
def State.inflight (s : State) : Nat := (s.steps.filter fun r => r.id.seq = s.seqNo && r.unsealed).length

/-- SFT_STEPS follows the steps begun and not sealed (Table 8.8). (DEDUCED: notes/assumptions/36) -/
def State.countSteps (s : State) : State := s.setFld Reg.sftSteps Fld.sftStepsInflight s.inflight

/-- Begin a new step (R214): its seed is latched as it stood before this cycle (02 R57). A step whose poison arrived before it began begins aborted (15
R416). (DEDUCED: notes/assumptions/37) -/
def State.beginStep (s : State) (id : StepId) : State :=
  let r : StepRec :=
    { id, seed := s.was Reg.sftJobSeed0 + s.was Reg.sftJobSeed1 * 2 ^ 32, bframe := s.frame % 2 ^ 32, shafts := [], level := none, nend := 0,
      endStarted := 0, endDone := 0, endFrame := none, poison := s.poisonOf id, state := .begun, items := [],
      dropSeal := false, nskip := 0, vgood := 0, vbad := 0, digest := 0, suspect := false, resolve := none }
  ({ s with steps := s.steps ++ [r] }).countSteps

/-- The highest step number begun in the current sequence (R215). -/
def State.topStep (s : State) : Option Nat :=
  match (s.steps.filter fun r => r.id.seq = s.seqNo).map (·.id.num) with
  | [] => none
  | a :: l => some (l.foldl max a)

/-- Is a step number above every number begun in the current sequence (R215). -/
def State.newStep (s : State) (num : Nat) : Bool :=
  match s.topStep with
  | some t => t < num
  | none => true

/-- STEP_BEGIN (R214, R215). (DEDUCED: notes/assumptions/37) -/
def execStepBegin (shaft : Nat) (s : State) : Host.Outcome State Fault Refusal :=
  .next (s.startCommand shaft 2 fun s c =>
    let id : StepId := ⟨s.seqNo, c.get 16 8⟩
    let list := c.get 24 8
    let n := c.get 32 4
    let joins := (s.step? id).any fun r => r.unsealed
    let l := if n = 0 then (s, Res.ok (0, false)) else s.devRead none list (8 * n)
    let bad := match l.2 with
      | .ok (_, b) => b
      | .stop _ => true
    let addrs := match l.2 with
      | .ok (w, false) => (List.range n).map fun k => getBytes w (8 * k) 8
      | _ => []
    let r := l.1.readDescs addrs
    match firstCause [(decide (c.get 36 28 ≠ 0), 2), (r.2.2.contains 4, 4),
        (decide (list % 8 ≠ 0) || bad || r.2.2.contains 5, 5), (!joins && !s.newStep id.num, 7)] with
    | some k => (r.1, .refuse k)
    | none =>
      if !joins && decide (4 ≤ s.inflight) then (s, .hold)
      else
        let s := if joins then r.1 else r.1.beginStep id
        let s := (s.setReg Reg.sftStepNum0 id.num).setReg Reg.sftStepNum1 (id.num / 2 ^ 32)
        let s := s.modShaft shaft fun h => { h with step := some id }
        let s := s.modStep id fun r => { r with shafts := r.shafts ++ [shaft] }
        (r.2.1.foldl (fun s t => if t.stepScoped then s.assayClear none t else s) s,
          .start (s.startedAs shaft c .done)))

/-- STEP_END (15 R421): a commit that waits for the tickets of its step and earlier ones (R414), unless its step is
aborted (R417). -/
def execStepEnd (shaft : Nat) (s : State) : Host.Outcome State Fault Refusal :=
  .next (s.startCommand shaft 7 fun s c =>
    let id : StepId := ⟨s.seqNo, c.get 16 8⟩
    let nend := c.get 24 2
    let bad := match s.step? id with
      | none => true
      | some r => !r.unsealed || nend = 0 || 256 < nend || (r.endStarted ≠ 0 && r.nend ≠ nend) || nend ≤ r.endStarted
    match firstCause [(decide (c.get 26 38 ≠ 0), 2), (bad, 7)] with
    | some k => (s, .refuse k)
    | none =>
      (s.modStep id fun r => { r with nend, endStarted := r.endStarted + 1 },
        .start { s.startedAs shaft c .done with step := some id, covers := s.coverOf id }))

/-- DISPATCH (R218-R220). A reserved opcode at the head of the shaft is refused here (R213). -/
def execDispatch (shaft : Nat) (s : State) : Host.Outcome State Fault Refusal :=
  .next ((s.refuseReserved shaft).startCommand shaft 3 fun s c =>
    let list := c.get 16 8
    let count := c.get 24 4
    let klen := c.get 28 4
    let kimg := c.get 32 8
    let kface := c.get 40 4
    let levels := c.get 44 1
    let iflags := c.get 45 1
    match firstCause [
        (decide (levels / 4 ≠ 0 ∨ iflags / 2 ≠ 0 ∨ c.get 48 16 ≠ 0), 2),
        (decide (list % 32 ≠ 0 ∨ klen % 32 ≠ 0 ∨ 0x100000 < klen ∨ kimg % 32 ≠ 0 ∨ kface % 32 ≠ 0 ∨
          postRow < kface + klen ∨ 2 ^ 57 < list + 32 * count ∨ 2 ^ 57 < kimg + klen), 5),
        (decide (levels = 0), 6), ((s.shaft shaft).step.isNone, 7)], (s.shaft shaft).step with
    | some k, _ => (s, .refuse k)
    | none, none => (s, .refuse 7)
    | none, some step =>
      if count = 0 then (s, .start (s.startedAs shaft c .done))
      else
        let r := s.newId
        let d : Dispatch :=
          { id := r.1, shaft, cmd := c.id, pos := c.pos, step, list, count, klen, kimg, kface, levels,
            itally := if iflags = 1 then some (c.get 46 2) else none, prio := 0, next := 0, finished := 0,
            waitSince := s.cycle, copied := [], copying := [], copyFailed := [] }
        ({ r.2 with dispatches := r.2.dispatches ++ [d] }, .start (s.startedAs shaft c .working)))

/-! ## Completion (08 R211) -/

/-- May the oldest started command of a shaft complete: its work is done, and its commit waits for no ticket (15 R414)
unless its step is aborted (15 R417). -/
def State.completable (s : State) (x : Started) : Bool :=
  decide (x.state = .done) && (x.covers.isEmpty || (match x.step with
    | some id => (s.poisonOf id).isSome
    | none => false))

/-- Set the open buckets and HST_OPEN (12 R336, Table 12.7). -/
def State.setBuckets (s : State) (l : List Bucket) : State :=
  ({ s with buckets := l }).setFld Reg.hstOpen Fld.hstOpenBuckets l.length

/-- Set the open riffle operations and RFL_OPEN (13 R364, Table 13.7). -/
def State.setRiffles (s : State) (l : List Riffle) : State :=
  ({ s with riffles := l }).setFld Reg.rflOpen Fld.rflOpenOps l.length

/-- What the completion of a command does beside its signals: a TALLY's own signal (Table 8.3), a PHASE's time mark (14
R398), the count of STEP_END commands (15 R422). -/
def State.completeOwn (s : State) (shaft : Nat) (x : Started) : State :=
  let c := x.cmd
  if c.op = 5 then
    s.signalNamed (c.get 16 8) ((c.get 28 1).testBit 0) (c.get 24 4) ((x.step.map (·.num)).getD 0)
  else if c.op = 6 then s.phaseMark shaft (x.step.getD ⟨2 ^ 64, 0⟩) c
  else if c.op = 7 then
    match x.step with
    | some id => s.modStep id fun r =>
        { r with endDone := r.endDone + 1, endFrame := if r.endDone + 1 = r.nend then some s.frame else r.endFrame }
    | none => s
  else if c.op = 0x11 then s.setBuckets (s.buckets.filter fun b => b.cmd.all fun x => x.2 ≠ c.id)
  else if c.op = 0x12 then s.setRiffles (s.riffles.filter fun b => b.cmd.all fun x => x.2 ≠ c.id)
  else s

/-- COMMAND_COMPLETE (R208, R211): the oldest started command of a shaft completes once its work is done: HEAD advances,
SIG_TALLY is added to, EVENT_VEC is raised, and further commands are decoded. -/
def execCommandComplete (shaft : Nat) (s : State) : Host.Outcome State Fault Refusal :=
  match (s.shaft shaft).started with
  | [] => .next s
  | x :: l =>
    if !s.completable x then .next s
    else
      let c := x.cmd
      let s := s.modShaft shaft fun h => { h with started := l }
      let s := if x.old then s else s.setReg (Reg.sftHead shaft) ((c.pos + 1) % s.ringSize shaft)
      let s := s.bump (Reg.sftCplCnt shaft)
      let s := s.completeOwn shaft x
      let s := if c.flags.testBit 1 then s.signal (c.get 8 2) false (c.get 12 4) else s
      let s := if c.flags.testBit 3 then s.msix (c.get 10 2) else s
      .next (s.pump shaft)

end Sys2Proof.Machine
end

