-- ==== Sys2Proof/Machine/Tallies.lean ====
section
/-!
DEFINITION. Tallies (08 R225-R230), the stall check and the wait graph (08 R232-R234).
-/
namespace Sys2Proof.Machine

/-- A write to TLY_HOST_OP performs one signal of TLY_HOST_ARG (R228). -/
def State.hostSignal (s : State) (n : Nat) (set : Bool) : State :=
  (s.setReg Reg.tlyHostOp (set.toNat * 2 ^ 16 + n % 2 ^ 16)).signal (n % 2 ^ 16) set (s.reg Reg.tlyHostArg)

/-- TLY_HOST_SET (R228). -/
def execTlyHostSet (tally : Nat) (s : State) : Host.Outcome State Fault Refusal :=
  if !s.up 1 then .next s else .next (s.hostSignal tally true)

/-- TLY_HOST_ADD (R228). -/
def execTlyHostAdd (tally : Nat) (s : State) : Host.Outcome State Fault Refusal :=
  if !s.up 1 then .next s else .next (s.hostSignal tally false)

/-- REMOTE_SIGNAL_ARRIVE (R229): judged against the epoch in force and its window. -/
def execRemoteSignalArrive (m : SignalMsg) (s : State) : Host.Outcome State Fault Refusal :=
  if !s.up 1 then .next s else
  .next (s.remoteSignal m.epoch (m.tally % 2 ^ 16) m.set m.value)

/-! ## Stalls (08 R232, R233) -/

/-- Halt a shaft for a stall (R233); a halt that already stands is kept. -/
def State.stallHalt (s : State) (n pos : Nat) : State :=
  if !s.flag Reg.sftCtrl Fld.sftCtrlStallHalt || s.halted n then s
  else s.setReg (Reg.sftShaftStat n) (2 * 2 ^ 30 + pos % 2 ^ 16)

/-- The head command of a shaft when it waits for its tally (R210, R232). -/
def State.waitingCommand (s : State) (n : Nat) : Option (Command × Nat × Nat) :=
  match (s.shaft n).decoded with
  | c :: _ => if c.met then none else c.waitOn.map fun w => (c, w.1, w.2)
  | [] => none

/-- Declare the wait of a shaft's head command stalled, when its age has reached the limit (R232, R233). -/
def State.declareShaft (s : State) (limit n : Nat) : State :=
  match s.waitingCommand n with
  | none => s
  | some (c, t, _) =>
    if c.declared.isSome || c.age < limit then s
    else
      let s := s.bump Reg.tlyStallCnt
      let s := s.modShaft n fun h => match h.decoded with
        | d :: l => { h with decoded := { d with declared := some (s.tally t) } :: l }
        | [] => h
      s.stallHalt n c.pos

/-- Is a wait of a crew to be declared stalled (R232). -/
def CrewWait.stalls (w : CrewWait) (limit : Nat) : Bool :=
  w.declared.isNone && w.sat.isNone && w.late.isNone && limit ≤ w.age

/-- Declare the wait of a crew stalled, when its age has reached the limit (R232, R233): a ballast instance fails its
canary and halts nothing. -/
def State.declareCrew (s : State) (limit : Nat) (c : CrewRef) : State :=
  match (s.crew c).wait, (s.crew c).inst with
  | some w, some i =>
    if !(w.stalls limit) then s
    else
      let s := s.bump Reg.tlyStallCnt
      let s := s.modCrew c fun x => { x with wait := some { w with declared := some (s.tally w.tally) } }
      if i.ballast then s.failCanary c 4 else s.stallHalt i.shaft i.pos
  | _, _ => s

/-- Declare the wait of a crew that is switched out stalled, when its age has reached the limit (R232, R233): its wait is pending
still. A ballast instance fails its canary. -/
def State.declareSaved (s : State) (limit : Nat) (x : SavedCtx) : State :=
  match x.wait with
  | none => s
  | some w =>
    if x.ready || !(w.stalls limit) then s
    else
      let s := s.bump Reg.tlyStallCnt
      let w := { w with declared := some (s.tally w.tally) }
      let tell := x.inst.ballast && x.inst.canaryFail.isNone
      let i := if tell then { x.inst with canaryFail := some 4 } else x.inst
      let s := { s with saved := s.saved.map fun (y : SavedCtx) =>
        if y.slot = x.slot then { y with wait := some w, inst := i } else y }
      if !x.inst.ballast then s.stallHalt i.shaft i.pos
      else match x.inst.origin with
        | .canary _ idx _ _ => if tell then s.canaryFail x.stope 4 idx else s
        | .dispatch _ _ => s

/-! ## The wait graph (08 R234) -/

/-- Does a command signal a tally of this module (R234): by SIGNAL, or as a TALLY that targets it. -/
def Command.signals (c : Command) (t node : Nat) : Bool :=
  (c.flags.testBit 1 && c.get 8 2 = t) ||
  (c.op = 5 && c.get 16 2 = t && (!(c.get 16 8).testBit 34 || bits (c.get 16 8) 33 16 = node))

/-- The earliest command, decoded and not started in any shaft, that signals a tally: its shaft and index (R234). -/
def State.signaller (s : State) (t : Nat) : Option (Nat × Nat) :=
  let l := s.shafts.flatMap fun e => (e.2.decoded.filter fun c => c.signals t s.node).map fun c => (c.id, e.1, c.pos)
  (l.foldl (fun (b : Option (Nat × Nat × Nat)) x =>
    match b with
    | none => some x
    | some y => if x.1 < y.1 then some x else b) none).map (·.2)

/-- A stalled wait, with what Table 8.7 gives of it. -/
structure WaitNode where
  kind : Nat
  tally : Nat
  count : Nat
  thresh : Nat
  waiter : Nat
  crew : Nat
  pos : Nat
  sig : Option (Nat × Nat)
  tile : Nat
deriving DecidableEq, Repr

/-- Every wait that is stalled and still pending: commands by shaft, crews, then crews that are switched out (R234). -/
def State.stalledWaits (s : State) : List WaitNode :=
  let cmds := s.shafts.filterMap fun e =>
    match s.waitingCommand e.1 with
    | some (c, t, th) => c.declared.map fun n => (⟨0, t, n, th, e.1, 0, c.pos, s.signaller t, 0⟩ : WaitNode)
    | none => none
  let crews := s.crews.filterMap fun e =>
    match e.2.wait, e.2.inst with
    | some w, some i =>
      if w.sat.isSome || w.late.isSome then none
      else w.declared.map fun n =>
        (⟨1, w.tally, n, w.thresh, e.1 / 16, e.1 % 16, w.foff, s.signaller w.tally, i.tile⟩ : WaitNode)
    | _, _ => none
  let saved := s.saved.filterMap fun x =>
    match x.wait with
    | some w =>
      if x.ready then none
      else w.declared.map fun n =>
        (⟨1, w.tally, n, w.thresh, x.stope, x.crew, w.foff, s.signaller w.tally, x.inst.tile⟩ : WaitNode)
    | none => none
  cmds ++ crews ++ saved

/-- Does following signallers from shaft `n`'s stalled command lead to shaft `goal` (R234). -/
def leadsTo (l : List WaitNode) (goal : Nat) : Nat → Nat → Bool
  | 0, _ => false
  | fuel + 1, n =>
    match l.find? (fun w => w.kind = 0 && w.waiter = n) with
    | none => false
    | some w =>
      n = goal || (match w.sig with
        | some (k, _) => leadsTo l goal fuel k
        | none => false)

/-- Is a stalled wait a member of a cycle (R234). -/
def WaitNode.cyclic (w : WaitNode) (l : List WaitNode) : Bool :=
  w.kind = 0 && (match w.sig with
    | some (k, _) => leadsTo l w.waiter (l.length + 1) k
    | none => false)

/-- A wait-graph entry (Table 8.7). -/
def WaitNode.entry (w : WaitNode) (l : List WaitNode) : Nat :=
  let sg := w.sig.getD (0xFFFF, 0)
  packFields [(1, w.kind), (1, (w.cyclic l).toNat), (2, w.tally), (4, w.count), (4, w.thresh), (2, w.waiter), (1, w.crew),
    (1, 0), (4, w.pos), (2, sg.1), (2, sg.2), (8, w.tile)]

/-- Every wait whose age has reached the limit is declared stalled (R232). -/
def State.declareAll (s : State) (limit : Nat) : State :=
  let s := (s.shafts.map (·.1)).foldl (fun s k => s.declareShaft limit k) s
  let s := (s.crews.map (·.1)).foldl (fun s k => s.declareCrew limit ⟨k / 16, k % 16⟩) s
  s.saved.foldl (fun s x => s.declareSaved limit x) s

/-- STALL_DECLARE (R231-R234): at the end of the cycle of a frame boundary, every undeclared wait whose age has reached
SFT_STALL_LIMIT is declared; with any declared, one shaft event is raised and the wait graph is built.
(DESIGN CHOICE: notes/assumptions/90) -/
def execStallDeclare (s : State) : Host.Outcome State Fault Refusal :=
  let limit := s.fldWas Reg.sftStallLimit Fld.sftStallLimitFrames
  if limit = 0 || s.cycle ≠ s.bcycle + 1 then .next s
  else
    let t := s.declareAll limit
    if t.reg Reg.tlyStallCnt = s.reg Reg.tlyStallCnt then .next s
    else
      let t := t.raiseIf (t.flag Reg.sftCtrl Fld.sftCtrlStallEvent) 3
      let l := t.stalledWaits
      .next { t with waitGraph := l.map fun w => w.entry l }

end Sys2Proof.Machine
end

