-- ==== Sys2Proof/WellFormed.lean ====
section
/-!
DEFINITION. The commands that something outside or inside the module can in fact give: every number of a stope, crew, shaft,
skip, adit, stack or tally is one the module has, and every value fits the width the spec gives it.
-/
namespace Sys2Proof

/-- A stope 0-143 and a crew 0-15 (01 R19, 06 R140). -/
def CrewRef.wf (c : CrewRef) : Bool := decide (c.stope < 144) && decide (c.crew < 16)

/-- A crew, or a shaft 0-255 (08 R205). -/
def Waiter.wf : Waiter → Bool
  | .crew c => c.wf
  | .shaft n => decide (n < 256)

/-- A face memory 0-143 or a stockpile 0-1 (09 R241, R242). -/
def BankMem.wf : BankMem → Bool
  | .face n => decide (n < 144)
  | .stockpile l => decide (l < 2)

/-- What the background engine tests (09 R257). -/
def TestMem.wf : TestMem → Bool
  | .face n | .lodeStore n => decide (n < 144)
  | .stockpile l => decide (l < 2)

/-- An access within one row of a bank, whose data and enables fit it (09 R241). -/
def BankAcc.wf (a : BankAcc) : Bool :=
  decide (0 < a.len) && decide (a.off % 64 + a.len ≤ 64) && decide (a.data < 2 ^ (8 * a.len)) && decide (a.en < 2 ^ a.len)

/-- Is a locked sequence one of the background engine (09 Table 9.3). -/
def LockOp.background : LockOp → Bool
  | .writeback _ | .copyIn _ _ | .copyBack _ _ => true
  | _ => false

/-- Does a request raise what Table 9.2 gives its port: at a face bank by direction and atomic, at a stockpile bank any access
but those of the background engine. -/
def BankReq.fits (m : BankMem) (r : BankReq) : Bool :=
  let reads := r.lock.isNone && r.acc.all fun a => !a.write
  let writes := r.lock.isNone && r.acc.all fun a => a.write
  match r.port, m with
  | 0, _ => match r.lock with
    | some op => op.background
    | none => true
  | _, .stockpile _ => decide (r.port ≤ 10) && (match r.lock with
    | some op => !op.background
    | none => true)
  | 5, .face _ => reads || (match r.lock with
    | some (.swap _ _ _) => true
    | _ => false)
  | 6, .face _ => writes || (match r.lock with
    | some (.add _ _ _) => true
    | some (.lodeElem _ _ _ _ _) => true
    | _ => false)
  | 7, .face _ => writes
  | 8, .face _ => r.lock.isNone
  | 10, .face _ => writes || (match r.lock with
    | some (.lodeValue _ _) => true
    | _ => false)
  | _, .face _ => decide (r.port ≤ 9) && reads

/-- A lode store 0-143, or a level or the headframe (09 R253, R264). -/
def OtherMem.wf : OtherMem → Bool
  | .lodeStore st => decide (st < 144)
  | .other l => decide (l < 3)

/-- A request of a port (09 R241, R243): one access a lane, a locked sequence or plain accesses. -/
def BankReq.wf (m : BankMem) (r : BankReq) : Bool :=
  r.fits m && r.acc.all BankAcc.wf && decide (r.acc.map fun a => a.off / 64).Nodup &&
    (r.lock.isNone || r.acc.isEmpty) && (match r.crew with | some c => c.wf | none => true) && r.along.all fun x => x.1.wf

/-- The requests of one cycle: a port raises one (09 R243). -/
def reqsWf (m : BankMem) (l : List BankReq) : Bool := l.all (BankReq.wf m) && decide (l.map (·.port)).Nodup

/-- The fields of a packet header (11 Table 11.3). -/
def Packet.wf (p : Packet) : Bool :=
  decide (p.dst < 2 ^ 18) && decide (p.cls < 8) && decide (p.repoch < 256) && decide (p.src < 2 ^ 18) && decide (p.kind < 16)
    && decide (p.hops < 256) && decide (p.plen < 4096) && decide (p.tepoch < 256) && decide (p.xfer < 2 ^ 32)
    && decide (p.addr < 2 ^ 64) && decide (p.count < 2 ^ 32) && decide (p.rtally < 2 ^ 16) && decide (p.ticket < 2 ^ 64)
    && decide (p.payload < 2 ^ (8 * p.plen))

/-- The fields of a remote tally signal (08 R229). -/
def SignalMsg.wf (m : SignalMsg) : Bool :=
  decide (m.src < 2 ^ 18) && decide (m.step < 2 ^ 64) && decide (m.epoch < 256) && decide (m.tally < 2 ^ 16)
    && decide (m.value < 2 ^ 32)

/-- A cage, or a request with its bytes (19 R512, R523). -/
def Ask.wf : Ask → Bool
  | .cage => true
  | .sideband opc reqlen req => decide (opc < 2 ^ 16) && decide (reqlen ≤ 1024) && decide (req < 2 ^ (8 * reqlen))

/-- A size of BAR2 is below 2^64 bytes (19 R500). -/
def ConfigWrite.wf : ConfigWrite → Bool
  | .power _ | .ats _ => true
  | .bar2Size n => decide (n < 64)

/-- What a frame boundary samples (17 R456): two CXL ports. -/
def Boundary.wf (b : Boundary) : Bool := decide (b.cxlUp < 4)

/-- The sizes of an access to the control space outside the cages, or within a cage page (19 R502). -/
def sizeOk (n : Nat) : Bool := decide (0 < n) && decide (n ≤ 4096)

/-- Is a command well-formed. -/
def Instr.wf : Instr → Bool
  | .registerWrite _ off size val en =>
    decide (off < 2 ^ 26) && sizeOk size && decide (val < 2 ^ (8 * size)) && decide (en < 2 ^ size)
  | .unassignedOffsetRead _ off size => decide (off < 2 ^ 26) && sizeOk size
  | .frameBoundary b => b.wf
  | .whistleOutEdge | .stallDeclare | .bankAtomicComplete _ | .backgroundWindowClose | .tlbInvalidatePage _
  | .tlbInvalidateAll | .tlbInvalidateDone | .routeArm | .routeBankDrainEnd | .bucketDeadline _ | .bucketDeliver _
  | .capacityDecide _ | .riffleRowsSend _ | .returnAccumulate _ | .combineConvert _ | .smeltChunk _ _
  | .smeltFinish _ | .ticketResolve _ | .resolveRelease | .resolveAbort | .cowCopy _ | .snapshotRegionCopy
  | .snapshotSeal | .powerEstimateTick _ | .powerMeasurementSample _ | .capControlTick | .deferLimitExpiry
  | .protectionTick | .disagreeDeclare | .recalibrationEnd | .distrustDeclare | .distrustClear | .levelDrawWindow
  | .timingLocked | .holdoverEnter | .unalignedSet | .powerOnReset | .perstAssert | .perstDeassert | .hotReset
  | .linkDownReset | .functionLevelReset | .mailboxReset | .sidebandReset | .watchdogExpiry | .foremanTakeover
  | .thermalTrip _ | .regulatorFault _ | .standbyLoss | .rstOutDeassert _ | .domainRelease _ _ _ | .tripRailRestore _
  | .regulatorRailRestore | .watchdogKick | .bootVerify | .inputPowerApply | .packageRailsUp | .moduleRemove
  | .bar2Read _ _ | .atsInvalidation _ _ | .pldmBaseRequest | .pldmMonitoringRequest _ | .activateFirmware => true
  | .canaryForce stope | .canaryLate stope | .drillPassStart stope | .crewResume stope | .droopEvent stope _ =>
    decide (stope < 144)
  | .mtZc c _ | .mtZl c _ | .mtZr c _ | .mtIc c _ | .mtIl c _ | .mtIr c _ | .mtHc c _ | .mtHl c _ | .mtHr c _
  | .mfree c _ | .mwait c _ | .vadd c _ | .vsub c _ | .vmul c _ | .vfma c _ | .vmin c _ | .vmax c _ | .vabs c _
  | .vneg c _ | .vcmp c _ | .vsel c _ | .vcvt c _ | .vtr c _ | .viadd c _ | .visub c _ | .vimul c _ | .vand c _
  | .vor c _ | .vxor c _ | .vshl c _ | .vshr c _ | .vsar c _ | .vicmp c _ | .pand c _ | .por c _ | .pxor c _
  | .pnot c _ | .vbcst c _ | .viota c _ | .vdrop c _ | .vrand c _ | .vred c _
  | .duplicateComplete c _ | .bundleFetch c | .add c _ | .sub c _ | .mul c _ | .mulhu c _ | .and c _ | .or c _
  | .xor c _ | .shl c _ | .shr c _ | .sar c _ | .min c _ | .max c _ | .minu c _ | .maxu c _ | .slt c _ | .sltu c _
  | .seq c _ | .movi c _ | .addi c _ | .andi c _ | .ori c _ | .xori c _ | .shli c _ | .shri c _ | .sari c _
  | .insi c _ | .beq c _ | .bne c _ | .blt c _ | .bge c _ | .bltu c _ | .bgeu c _ | .jmp c _ | .loop c _ | .lds c _
  | .ldv c _ | .ldvw c _ | .ldp c _ | .ldxch c _ | .ldlc c _ | .sts c _ | .stv c _ | .stp c _ | .stadd c _
  | .stladd c _ | .tadd c _ | .tset c _ | .twait c _ | .tread c _ | .taddx c _ | .tsetx c _ | .endOp c _
  | .twaitTimeout c | .instanceCommit c | .switchWaitExpiry c | .crewSave c => c.wf
  | .duplicateIssue stope crew => decide (stope < 144) && decide (crew < 16)
  | .drillArrayCycle stope place _ | .drillPassEnd stope place => decide (stope < 144) && decide (place < 5)
  | .tileWidenRerun stope ctx | .tileCheckComplete stope ctx _ | .tileCommit stope ctx | .tileContextSave stope ctx =>
    decide (stope < 144) && decide (ctx < 32)
  | .onsetterDispatch level | .preemptRequest level => decide (level < 2)
  | .twaitSatisfied w | .configurationRequest w => w.wf
  | .shaftDoorbell shaft val => decide (shaft < 256) && decide (val < 2 ^ 32)
  | .shaftEnable shaft | .shaftDisable shaft | .shaftResume shaft | .shaftAbort shaft | .nop shaft | .stepBegin shaft
  | .dispatch shaft | .assayClear shaft | .tally shaft | .phase shaft | .stepEnd shaft | .copy shaft
  | .collective shaft | .riffleDispatch shaft | .riffleCombine shaft | .riffleTeach shaft | .smeltUpdate shaft
  | .smeltInit shaft | .smeltRebase shaft | .snapshot shaft | .commandComplete shaft | .verdictStall shaft =>
    decide (shaft < 256)
  | .tlyHostSet t | .tlyHostAdd t => decide (t < 2 ^ 16)
  | .remoteSignalArrive m | .correctionWriteback m _ | .sramRegionTest m _ _ => m.wf
  | .bankGrant m reqs => m.wf && reqsWf m reqs
  | .portPromote m _ port => m.wf && decide (port < 11)
  | .patrolScrub stack _ | .hbmRowSpare stack _ _ | .hbmUeAddrRead stack => decide (stack < 8)
  | .hbmRecalibrate level controller => decide (level < 2) && decide (controller < 4)
  | .interleaveWrite val | .skpShareWrite val | .headroomWrite val | .btabBaseWrite _ val | .rflTabBaseWrite _ val
  | .dptCtrlWrite val | .canaryFaceWrite val | .setpointWrite val | .resetCauseClear val | .eventEnableWrite val
  | .cageDoorbell val => decide (val < 2 ^ 32)
  | .streamAccept skip | .tagIssue skip | .tagComplete skip _ _ _ | .streamComplete skip _
  | .hostCompletionTimeout skip _ _ => decide (skip < 160)
  | .streamResume fid | .streamResumeAbort fid => decide (fid < 2 ^ 16)
  | .cxlRequestTimeout port skip _ => decide (port < 2) && decide (skip < 160)
  | .cxlLinkDown port => decide (port < 2)
  | .aditTrain adit peerNode peerAdit _ lanes =>
    decide (adit < 24) && decide (peerNode < 2 ^ 18) && decide (peerAdit < 24) && decide (lanes < 16)
  | .linkBlockSend adit | .aditRetrain adit | .retrainAttemptEnd adit _ | .laneSpareTrained adit _ =>
    decide (adit < 24)
  | .linkBlockReceive adit block _ _ => decide (adit < 24) && decide (block < 2 ^ (8 * 528))
  | .laneFail adit lane => decide (adit < 24) && decide (lane < 4)
  | .packetRoute port gal _ | .escWaitExpiry port gal => decide (port.getD 0 < 24) && decide (gal < 16)
  | .routeEntryWrite off val => decide (off < 2 ^ 26) && decide (val < 2 ^ 32)
  | .galMarkWrite gal val => decide (gal < 16) && decide (val < 2 ^ 32)
  | .countedPacketArrive p | .xackArrive p | .xnakArrive p | .verdictArrive p | .poisonArrive p | .wordReceive p
  | .reportReceive p | .timeReceive p _ | .framenoReceive p => p.wf
  | .packAddressWrite idx val => decide (idx < 4) && decide (val < 2 ^ 32)
  | .whistleEnable val root => decide (val < 2 ^ 32) && decide (root < 2 ^ 18)
  | .blockReset _ block | .blockOff _ block | .blockOn _ block | .blockIdleReport block | .blockIdleTimeout block
  | .blockResetHoldEnd block | .blockReleaseEnd block => decide (block < 512)
  | .strapSample ratio => decide (ratio < 256)
  | .getVersion via | .negotiateAlgorithms via _ _ | .getDigests via | .getEndpointId via
  | .getMessageTypeSupport via | .getVendorMessageSupport via => decide (via < 3)
  | .getCapabilities via version => decide (via < 3) && decide (version < 256)
  | .getCertificate via slot offset length =>
    decide (via < 3) && decide (slot < 256) && decide (offset < 2 ^ 16) && decide (length < 2 ^ 16)
  | .challenge via slot nonce => decide (via < 3) && decide (slot < 256) && decide (nonce < 2 ^ 256)
  | .getMeasurements via index _ nonce => decide (via < 3) && decide (index < 256) && decide (nonce < 2 ^ 256)
  | .bar2Write _ n val en => decide (val < 2 ^ (8 * n)) && decide (en < 2 ^ n)
  | .eventStatClear val raised => decide (val < 2 ^ 32) && decide (raised < 2 ^ 18)
  | .vectorUnmask vec _ => decide (vec < 2048)
  | .getInfo ask | .getSensors ask _ | .reset ask | .getWaitGraph ask | .getHealth ask | .getMeasLog ask | .fence ask
  | .loadPack ask | .setPackKey ask | .fwStage ask | .fwActivate ask | .fwCommit ask | .revokeSlot ask
  | .raiseSvn ask => ask.wf
  | .longCommandComplete longId => decide (longId < 2 ^ 32)
  | .i3cAddressAssign _ static addr => decide (static < 128) && decide (addr < 128)
  | .setEndpointId via eid => decide (via < 3) && decide (eid < 256)
  | .getMctpVersionSupport via type => decide (via < 3) && decide (type < 256)
  | .pldmFirmwareUpdate bank _ _ => decide (bank < 2)

end Sys2Proof
end

