-- ==== Sys2Proof/Machine/Memory.lean ====
section
/-!
DEFINITION. Memory (09): bank arbitration, locked sequences, collisions, error correction, the background test, and
the HBM controllers.
-/
namespace Sys2Proof.Machine

/-! ## Keys and counters -/

/-- The key of a memory in the tables of ages and corrections. -/
def memKey : BankMem → Nat
  | .face st => st
  | .stockpile l => 144 + l

/-- The key of a bank, or of a spare buffer, of a memory. -/
def bankKey (m : BankMem) (unit : Nat) : Nat := memKey m * 2 ^ 20 + unit

/-- The key of a port at a bank. -/
def portKey (m : BankMem) (unit port : Nat) : Nat := bankKey m unit * 16 + port

/-- The counters of a memory: corrected, overtaken, dead lane-cycles. -/
def ceCnt : BankMem → Nat
  | .face st => Reg.memFaceCeCnt st
  | .stockpile l => Reg.memSpCeCnt l
/-- Overtaken accesses of a memory. -/
def ovtCnt : BankMem → Nat
  | .face st => Reg.memFaceOvtCnt st
  | .stockpile l => Reg.memSpOvtCnt l
/-- Dead lane-cycles of a memory. -/
def deadCnt : BankMem → Nat
  | .face st => Reg.memFaceDeadCnt st
  | .stockpile l => Reg.memSpDeadCnt l

/-! ## Locked sequences (R247, R248) -/

/-- The offset and bytes that a locked sequence touches (Table 9.3, Table 9.4). -/
def lockSpan (m : BankMem) : LockOp → Nat × Nat
  | .add off size _ => (off, size)
  | .swap off size _ => (off, size)
  | .lodeElem off _ _ _ _ => (off, 96)
  | .lodeValue off _ => (off, 96)
  | .writeback off => (off / 4 * 4, 4)
  | .copyIn region row | .copyBack region row =>
    (rowBase m (region / bankRegions m) (64 * (region % bankRegions m) + row % 64), 64)

/-- What a locked sequence holds: the banks of its rows, or the spare buffer where a row is on one (R257); a copy of a row holds
its bank and the region's spare buffer. -/
def State.lockUnits (s : State) (m : BankMem) (op : LockOp) : List Nat :=
  let a := lockSpan m op
  match op with
  | .copyIn region _ | .copyBack region _ => [bankOf m a.1, bufferOf region]
  | _ => s.spanUnits m a.1 a.2

/-- Cycles of a locked sequence (Table 9.3). -/
def lockCycles : LockOp → Nat
  | .add _ _ _ => 6
  | .swap _ _ _ => 4
  | .lodeElem off _ _ _ _ => lodeCycles off
  | .lodeValue off _ => lodeCycles off
  | .writeback _ => 6
  | .copyIn _ _ => 2
  | .copyBack _ _ => 2

/-- The banks and buffers that a request needs. -/
def State.reqBanks (s : State) (m : BankMem) (r : BankReq) : List Nat :=
  match r.lock with
  | some op => s.lockUnits m op
  | none => (r.acc.flatMap fun a => s.spanUnits m a.off a.len).eraseDups

/-! ## Arbitration (R244-R247) -/

/-- Is a port promoted at a bank (R245). -/
def State.promoted (s : State) (m : BankMem) (bank port : Nat) : Bool :=
  (Store.get PortAge.none s.ages (portKey m bank port)).promoted

/-- Requests in order of port number. -/
def insertReq (r : BankReq) : List BankReq → List BankReq
  | [] => [r]
  | x :: l => if r.port < x.port then r :: x :: l else x :: insertReq r l

/-- Lanes of a bank (R241), and of a spare buffer, which serves 64 B a cycle (R257). -/
def lanesOf (unit : Nat) : Nat := if unit < bufferOf 0 then 2 else 1

/-- Grant the lanes of a bank of `full` lanes down an order of requests (R244): `first` is true at the head of the order. -/
def grantLanes (full : Nat) : Bool → Nat → List BankReq → List Nat
  | _, _, [] => []
  | first, lanes, r :: l =>
    if r.lock.isSome then
      if lanes = full && first then r.port :: grantLanes full false 0 l else grantLanes full false lanes l
    else if 0 < lanes then r.port :: grantLanes full false (lanes - 1) l
    else grantLanes full false lanes l

/-- The ports that a bank grants in a cycle (R244). (DESIGN CHOICE: notes/assumptions/38) -/
def State.bankGrants (s : State) (m : BankMem) (reqs : List BankReq) (bank : Nat) : List Nat :=
  if s.bankLocked m bank then []
  else
    let l := (reqs.filter fun r => (s.reqBanks m r).contains bank).foldl (fun l r => insertReq r l) []
    grantLanes (lanesOf bank) true (lanesOf bank)
      ((l.filter fun r => s.promoted m bank r.port) ++ l.filter fun r => !s.promoted m bank r.port)

/-- Is a request granted at every bank it needs (R246). -/
def State.reqGranted (s : State) (m : BankMem) (reqs : List BankReq) (r : BankReq) : Bool :=
  (s.reqBanks m r).all fun b => (s.bankGrants m reqs b).contains r.port

/-- A denial in the present cycle (R245): it counts on from one in the cycle before, else it is the first. -/
def PortAge.deny (p : PortAge) (now : Nat) : PortAge :=
  if p.next = now + 1 then p
  else { p with denied := if p.next = now then p.denied + 1 else 1, next := now + 1 }

/-- Age the ports of a cycle's requests (R245): denied or withdrawn at a bank counts up, a grant clears. -/
def State.agePorts (s : State) (m : BankMem) (granted denied : List BankReq) : State :=
  let keys := fun (l : List BankReq) => l.flatMap fun r => (s.reqBanks m r).map fun b => portKey m b r.port
  let a := (keys granted).foldl (fun a k => Store.set PortAge.none a k PortAge.none) s.ages
  let a := (keys denied).foldl (fun a k => Store.modify PortAge.none a k fun p => p.deny s.cycle) a
  { s with ages := a }

/-- PORT_PROMOTE (R245): a port denied or withdrawn at a bank in 16 consecutive cycles, the last of them this one or the one
before, is promoted there until it is granted. -/
def execPortPromote (m : BankMem) (bank port : Nat) (s : State) : Host.Outcome State Fault Refusal :=
  let a := Store.get PortAge.none s.ages (portKey m bank port)
  if a.denied < 16 || a.next < s.cycle then .next s
  else .next { s with ages := Store.set PortAge.none s.ages (portKey m bank port) { a with promoted := true } }

/-! ## The code of R253 (R254, R255, R262) -/

/-- The hidden state of a controller. -/
def State.hbm (s : State) (k : Nat) : HbmCtl := Store.get HbmCtl.idle s.hbms k

/-- Set the hidden state of a controller. -/
def State.setHbm (s : State) (k : Nat) (c : HbmCtl) : State := { s with hbms := Store.set HbmCtl.idle s.hbms k c }

/-- Mark a row for sparing once (R262). (DESIGN CHOICE: notes/assumptions/41) -/
def HbmCtl.markRow (c : HbmCtl) (row pa : Nat) : HbmCtl :=
  if c.marked.any (·.1 = row) || c.cached.contains row then c else { c with marked := c.marked ++ [(row, pa)] }

/-- A read of a stack corrects a word (R254, R262): counted for its memory, and for its row, which is marked once its corrected
errors of this pass reach the threshold. The row error table holds 64 rows. -/
def State.hbmCorrected (s : State) (k pa : Nat) : State :=
  let s := s.bump (Reg.hbmCeCnt k)
  let c := s.hbm k
  let row := Config.hbmRow pa
  let n := Store.get 0 c.rowErr row + 1
  let c := if n = 1 && 64 ≤ c.rowErr.length then c else { c with rowErr := Store.set 0 c.rowErr row n }
  s.setHbm k (if max 1 (s.fld Reg.hbmCtrl Fld.hbmCtrlSpareThresh) ≤ n then c.markRow row pa else c)

/-- A read of a banked memory corrects a word (R254): counted, and queued for write-back, two at most a bank. -/
def State.bankCorrected (s : State) (m : BankMem) (off : Nat) : State :=
  let k := bankKey m (bankOf m off)
  let q := Store.get [] s.corrections k
  let s := s.bump (ceCnt m)
  if q.length < 2 then { s with corrections := Store.set [] s.corrections k (q ++ [off]) } else s

/-- What the code finds in a word that is read (R254, R255): one corrected bit, or an uncorrectable word, which stays so. -/
def State.codeFinds (s : State) (pa : Nat) (e : Ecc) : State :=
  match e with
  | .clean => s
  | .uncorrectable syn => s.mark pa syn
  | .corrected =>
    match s.paKind pa with
    | .face st => s.bankCorrected (.face st) (pa - faceBase st)
    | .stockpile l => s.bankCorrected (.stockpile l) (pa - spBase l)
    | .hbm k => s.hbmCorrected k pa
    | _ => s

/-- What the code finds in the words of runs that are read. -/
def State.codeFindsIn (s : State) (runs : List (Nat × Nat)) (l : List WordFind) : State :=
  (l.filter fun f => runs.any fun r => decide (r.1 ≤ f.word) && decide (f.word < r.1 + r.2)).foldl
    (fun s f => s.codeFinds f.word f.ecc) s

/-- A consumer's crew meets an uncorrectable word (R255). -/
def State.consumeBad (s : State) (c : Option CrewRef) : State :=
  match c with
  | some c => s.markBad c 4
  | none => s

/-- What the code finds in a lode store, or in the registers, buffers and datapaths of a level or the headframe (R253-R255,
Table 9.6). No physical address names such a word: MEM_UE_ADDR takes a free value. (DESIGN CHOICE: notes/assumptions/42) -/
def State.pathFinds (s : State) (c : Option CrewRef) (x : OtherMem × Ecc) : State :=
  let cnt := match x.1 with
    | .lodeStore st => (Reg.memFaceCeCnt st, Reg.memFaceUeCnt st, 2 * 2 ^ 24 + st * 2 ^ 16)
    | .other l => (Reg.memOtherCeCnt l, Reg.memOtherUeCnt l, 3 * 2 ^ 24 + 0xFF * 2 ^ 16)
  match x.2 with
  | .clean => s
  | .corrected => s.bump cnt.1
  | .uncorrectable syn =>
    let r := s.freeVal
    let s := ((r.2.bump cnt.2.1).setReg64 Reg.memUeAddr0 Reg.memUeAddr1 (r.1 % 2 ^ 48)).setReg Reg.memUeInfo
      (cnt.2.2 + syn % 128)
    (s.raiseIf (s.flag Reg.memCtrl Fld.memCtrlUeEvent) 4).consumeBad c

/-! ## Reads, writes and collisions (R250-R252) -/

/-- A granted read (R252, R254, R255): the word as it stood before the cycle's writes is delivered, poisoned where it is
uncorrectable. (DESIGN CHOICE: notes/assumptions/84) -/
def State.bankRead (s : State) (m : BankMem) (c : Option CrewRef) (a : BankAcc) : State :=
  let pa := memBase m + a.off
  let r := (s.codeFinds pa a.ecc).readMem pa a.len
  if r.2.2 then (r.1.consumeBad c).emit (.poisonedData r.2.1) else r.1.emit (.readData r.2.1)

/-- The write accesses of a request. -/
def reqWrites (r : BankReq) : List (BankReq × BankAcc) := (r.acc.filter (·.write)).map fun a => (r, a)

/-- Does a write enable a byte of the memory. -/
def accEnables (a : BankAcc) (o : Nat) : Bool := a.off ≤ o && o < a.off + a.len && a.en.testBit (o - a.off)

/-- Is a write overtaken by a lower-numbered port in its cycle: a byte that both enable (R250). -/
def overtaken (ws : List (BankReq × BankAcc)) (w : BankReq × BankAcc) : Bool :=
  ws.any fun x => x.1.port < w.1.port &&
    (List.range w.2.len).any fun i => accEnables w.2 (w.2.off + i) && accEnables x.2 (w.2.off + i)

/-- Count an overtaken write, and report it for the step whose work it is; one of BAR2, of no step, is reported nowhere else
(R251). -/
def State.noteOvertake (s : State) (m : BankMem) (w : BankReq × BankAcc) : State :=
  let s := s.bump (ovtCnt m)
  match w.1.step with
  | none => s
  | some n =>
    (s.raiseIf (s.flag Reg.memCtrl Fld.memCtrlOvtEvent) 4).report ⟨s.seqNo, n⟩
      ⟨5, s.flag Reg.memCtrl Fld.memCtrlOvtSeal, false, w.1.src,
        packFields [(8, memBase m + w.2.off), (2, bankOf m w.2.off), (1, w.1.port)]⟩

/-- The granted writes of a cycle, higher-numbered ports first, so that the lower port's bytes stand (R250). -/
def State.bankWrites (s : State) (m : BankMem) (ws : List (BankReq × BankAcc)) : State :=
  let s := (ws.filter (overtaken ws)).foldl (fun s w => s.noteOvertake m w) s
  ws.reverse.foldl (fun s w => s.storeAt (memBase m + w.2.off) w.2.len w.2.data w.2.en) s

/-- Start a locked sequence (R247). (DEDUCED: notes/assumptions/93) -/
def State.startLock (s : State) (m : BankMem) (r : BankReq) (op : LockOp) : State :=
  s.pushLock m (s.lockUnits m op) r.port (some op) r.crew r.step (lockCycles op)
    ((r.crew.map fun c => (s.crew c).site).getD ⟨0, 0⟩)

/-- Is the background window open (R256): from the boundary for MEM_BG_WIN cycles. (DESIGN CHOICE: notes/assumptions/40) -/
def State.windowOpen (s : State) : Bool := s.window && decide (s.cycle < s.bcycle + s.bgWin)

/-- Time left in the window, in sub-units of a ps. -/
def State.windowLeft (s : State) : Nat := (s.bcycle + s.bgWin - s.cycle) * s.cycleSub

/-- Is a store slot held back (R252): the load slot of its crew's bundle has not been granted yet, or raises its request in this
cycle and is not granted. -/
def State.storeHeld (s : State) (m : BankMem) (reqs : List BankReq) (r : BankReq) : Bool :=
  match m, r.crew with
  | .face _, some c =>
    let load := reqs.filter fun x => x.port = 5 && x.crew = some c
    r.port = 6 && (if load.isEmpty then (s.crew c).loadDue else load.any fun x => !s.reqGranted m reqs x)
  | _, _ => false

/-- BANK_GRANT (R243-R247, R250-R255): one cycle of the requests of one memory. The background engine raises one within its window
alone (R256). (DESIGN CHOICE: notes/assumptions/38) -/
def execBankGrant (m : BankMem) (reqs : List BankReq) (s : State) : Host.Outcome State Fault Refusal :=
  if !s.up 4 then .next s else
  let l := (reqs.filter fun r => r.fits m && (r.port ≠ 0 || s.windowOpen)).foldl (fun l r => insertReq r l) []
  let ok := fun (r : BankReq) => s.reqGranted m l r && !s.storeHeld m l r
  let granted := l.filter ok
  let denied := l.filter fun r => !ok r
  let dead := (denied.map fun r => ((s.reqBanks m r).filter fun b => (s.bankGrants m l b).contains r.port).length).foldl (· + ·) 0
  let t := (s.agePorts m granted denied).bumpN (deadCnt m) dead
  let t := granted.foldl (fun t r => r.along.foldl (fun t x => t.pathFinds r.crew x) t) t
  let t := (granted.flatMap fun r => (r.acc.filter fun a => !a.write).map fun a => (r, a)).foldl
    (fun t x => t.bankRead m x.1.crew x.2) t
  let t := t.bankWrites m (granted.flatMap reqWrites)
  .next (granted.foldl (fun t r => match r.lock with
    | some op => t.startLock m r op
    | none => t) t)

/-! ## The end of a locked sequence (R248, R541) -/

/-- A lode-add refused at its target is recorded for the crew's instance (05 R129, 06 R160). -/
def State.lodeRefused (s : State) (c : Option CrewRef) (site : Site) : State :=
  match c with
  | some c => s.modInst c fun i => { i with storeRefusals := i.storeRefusals ++ [site] }
  | none => s

/-- An atomic has read an uncorrectable word (R541): its crew's instance, or the step of its engine's operation, is bad. -/
def State.atomicBad (s : State) (l : LockedSeq) : State :=
  match l.crew, l.step with
  | some c, _ => s.markBad c 4
  | none, some n => s.poisonStep n 4 0 s.node
  | none, none => s

/-- Change the test of a region. -/
def State.modTest (s : State) (m : TestMem) (region : Nat) (f : RegionTest → RegionTest) : State :=
  { s with tests := s.tests.map fun (t : RegionTest) => if t.mem = m && t.region = region then f t else t }

/-- A row has been copied in (R257): uncorrectable words found in it are rewritten with the poison check pattern (R255), and
accesses to it go to the buffer from now on. -/
def State.rowCopied (s : State) (m : BankMem) (region row : Nat) : State :=
  let pa := memBase m + (lockSpan m (.copyIn region row)).1
  let hit := s.marks.filter fun e => decide (pa ≤ e.1 * 4) && decide (e.1 * 4 < pa + 64)
  let s := hit.foldl (fun s e => (s.noteUe (e.1 * 4) e.2).mark (e.1 * 4) poisonSyndrome) s
  s.modTest (testOf m) region fun t => { t with pos := row + 1, phase := if row + 1 = 64 then .march else t.phase }

/-- A row has been copied back (R257): accesses to it go to the bank again; with the last one the region counts as tested. -/
def State.rowReturned (s : State) (m : BankMem) (region row : Nat) : State :=
  if row + 1 < 64 then s.modTest (testOf m) region fun t => { t with pos := row + 1 }
  else
    { s with tests := s.tests.filter fun (t : RegionTest) => !(t.mem = (testOf m) && t.region = region) }.bump
      (match m with
       | .face st => Reg.memFaceTestCnt st
       | .stockpile l => Reg.memSpTestCnt l)

/-- What an atomic does at its end (R248): its sum, swap or lode-add, unless its target holds an uncorrectable word (R541) or
reaches the post row (10 R269). -/
def State.endAtomic (s : State) (l : LockedSeq) (op : LockOp) : State :=
  let a := lockSpan l.mem op
  let pa := memBase l.mem + a.1
  let bad := s.marked pa a.2
  let poison := (s.noteMarks pa a.2).atomicBad l
  match s.postReach pa a.2 with
  | some (st, _) => (match op with
    | .swap _ _ _ => (s.postBad st).emit (.readData 0)
    | _ => s.postBad st)
  | none =>
  let add := fun (v : LodeAcc) =>
    let r := s.lodeAdd pa v
    if r.2 then r.1.lodeRefused l.crew l.site else r.1
  match op with
  | .add _ size v => if bad then poison else s.writeMem pa size ((s.readLE pa size + v) % 2 ^ (8 * size)) (allBytes size)
  | .swap _ size v =>
    if bad then poison.emit (.readData 0)
    else (s.emit (.readData (s.readLE pa size))).writeMem pa size (v % 2 ^ (8 * size)) (allBytes size)
  | .lodeElem _ f mx sc b =>
    let f := Fmt.ofCode f
    if bad then poison else add (f.elemLode mx (sc % 256) (b % 2 ^ f.width))
  | .lodeValue _ img => if bad then poison else add (LodeAcc.ofImage 2 img).1
  | _ => s

/-- What a locked sequence does at its end: an atomic (R248), the write-back of the oldest queued correction of its bank (R254), or
the copy of a row (R257). The corrected word is what the memory already reads as. (DESIGN CHOICE: notes/assumptions/42) -/
def State.endLock (s : State) (l : LockedSeq) : State :=
  match l.op with
  | none => s
  | some (.writeback off) =>
    { s with corrections := Store.modify [] s.corrections (bankKey l.mem (bankOf l.mem off)) fun q => q.erase off }
  | some (.copyIn region row) => s.rowCopied l.mem region row
  | some (.copyBack region row) => s.rowReturned l.mem region row
  | some op => s.endAtomic l op

/-- BANK_ATOMIC_COMPLETE (R247, R248): a locked sequence has lasted its cycles and ends; its banks are free again. -/
def execBankAtomicComplete (id : Nat) (s : State) : Host.Outcome State Fault Refusal :=
  match s.locks.find? (fun (l : LockedSeq) => l.id = id) with
  | none => .next s
  | some l =>
    if s.cycle < l.since + l.cycles then .next s
    else .next ({ s with locks := s.locks.filter fun (x : LockedSeq) => x.id ≠ id }.endLock l)

/-- A locked sequence of the background engine begins when every bank and buffer it needs is free (R247, R256). -/
def State.backLock (s : State) (m : BankMem) (op : LockOp) : State :=
  if (s.lockUnits m op).any fun u => s.bankLocked m u then s
  else s.startLock m ⟨0, [], some op, none, 0, none, []⟩ op

/-- CORRECTION_WRITEBACK (R254, R256): within the window, the locked sequence that writes back the oldest queued correction of a
bank begins. (DESIGN CHOICE: notes/assumptions/42) -/
def execCorrectionWriteback (m : BankMem) (bank : Nat) (s : State) : Host.Outcome State Fault Refusal :=
  if !s.up 4 || !s.windowOpen then .next s
  else match Store.get [] s.corrections (bankKey m bank) with
    | [] => .next s
    | off :: _ => .next (s.backLock m (.writeback off))

/-- BACKGROUND_WINDOW_CLOSE (R256): once the window has lasted its cycles, background work raises no new request.
(DESIGN CHOICE: notes/assumptions/40) -/
def execBackgroundWindowClose (s : State) : Host.Outcome State Fault Refusal :=
  .next (if s.bcycle + s.bgWin ≤ s.cycle then { s with window := false } else s)

/-! ## Background test and row repair (R257-R259) -/

/-- The key of a memory's bank in the table of spare rows. -/
def spareKey (m : TestMem) (region : Nat) : Nat :=
  match m with
  | .face st => bankKey (.face st) (region / 24)
  | .stockpile l => bankKey (.stockpile l) (region / 96)
  | .lodeStore st => (146 + st) * 2 ^ 20

/-- Spare rows that a region's bank has (R259). -/
def spareRowsOf : TestMem → Nat
  | .lodeStore _ => 32
  | _ => 16

/-- Spare buffers of a stockpile in use, those of regions retired to them included (R257, R259). -/
def State.buffersUsed (s : State) (m : TestMem) : Nat := (s.tests.filter fun t => t.mem = m).length

/-- Is a spare buffer, or for a lode store a free unit, at hand for a test (R257, R258). -/
def State.testRoom (s : State) (m : TestMem) : Bool :=
  match m with
  | .face _ => s.buffersUsed m = 0
  | .stockpile _ => s.buffersUsed m < 16
  | .lodeStore st => 0 < (s.drill st).unitsFree

/-- Regions of a memory. -/
def regionsOf : TestMem → Nat
  | .face _ => 768
  | .stockpile _ => 24576
  | .lodeStore _ => 96

/-- A test begins (R257, R258): copy in from row 0; a free unit of a lode store is held and holds nothing to copy. -/
def State.beginTest (s : State) (m : TestMem) (region : Nat) : State :=
  match m with
  | .lodeStore st =>
    { s with tests := s.tests ++ [(⟨m, region, .march, 0, []⟩ : RegionTest)] }.setDrill st
      { s.drill st with held := (s.drill st).held + 1 }
  | _ => { s with tests := s.tests ++ [(⟨m, region, .copyIn, 0, []⟩ : RegionTest)] }

/-- Count a spare row as used (Table 9.6). -/
def State.countSpare (s : State) (m : TestMem) : State :=
  match m with
  | .face st => s.bump (Reg.memFaceSpare st)
  | .stockpile l => s.bump (Reg.memSpSpare l)
  | .lodeStore st => s.bumpN (Reg.memFaceSpare st) (2 ^ 16)

/-- A row has failed and no spare row is left (R259): the region's next step, and what follows. A stockpile region stays on its
spare buffer; past 16 of them the failure raises a memory event and the region stays in use. -/
def State.sparesOut (s : State) (m : TestMem) : State × TestPhase :=
  match m with
  | .face st => (s.requestFence st 2, .again)
  | .stockpile l =>
    if s.fld (Reg.memSpRetired l) Fld.memSpRetiredRegions < 16 then (s.bump (Reg.memSpRetired l), .retired)
    else (s.raise 4, .again)
  | .lodeStore st =>
    let d := s.drill st
    let s := s.setDrill st { d with badUnits := d.badUnits + 1 }
    (if 96 - (d.badUnits + 1) < 80 then s.requestFence st 2 else s, .again)

/-- Repair the failing rows of a region (R259): each is mapped to the next spare row of its bank while any is left. -/
def State.testRepair (s : State) (m : TestMem) (region : Nat) : List Nat → State × TestPhase
  | [] => (s, .again)
  | row :: l =>
    let k := spareKey m region
    let rows := Store.get [] s.spareRows k
    if rows.length < spareRowsOf m then
      State.testRepair (({ s with spareRows := Store.set [] s.spareRows k (rows ++ [row]) }).countSpare m) m region l
    else s.sparesOut m

/-- The march has run (R257): a lode-store unit is free again and counts as tested, a bank's region is copied back. -/
def State.endMarch (s : State) (m : TestMem) (region : Nat) : State :=
  match m with
  | .lodeStore st =>
    ({ s with tests := s.tests.filter fun (t : RegionTest) => !(t.mem = m && t.region = region) }.setDrill st
      { s.drill st with held := (s.drill st).held - 1 }).bump (Reg.memFaceTestCnt st)
  | _ => s.modTest m region fun t => { t with phase := .copyBack, pos := 0 }

/-- The banked memory of a test. -/
def bankTested : TestMem → Option BankMem
  | .face st => some (.face st)
  | .stockpile l => some (.stockpile l)
  | .lodeStore _ => none

/-- A row is copied in or back under its locked sequence (R257). -/
def State.copyRow (s : State) (m : TestMem) (op : LockOp) : State :=
  match bankTested m with
  | some b => s.backLock b op
  | none => s

/-- Does a locked sequence hold the bank of a region: the march waits (R247). -/
def State.testHeld (s : State) (m : TestMem) (region : Nat) : Bool :=
  match bankTested m with
  | some b => s.bankLocked b (region / bankRegions b)
  | none => false

/-- SRAM_REGION_TEST (R256-R259): within the window, the test of a region advances by one of its steps: the locked sequence that
copies a row in, the march, the repair of the failing rows with the march run once more, the locked sequence that copies a row
back. `fails` are the rows of the region that the march finds failing. (DEDUCED: notes/assumptions/107) -/
def execSramRegionTest (m : TestMem) (region : Nat) (fails : List Nat) (s : State) : Host.Outcome State Fault Refusal :=
  if !s.up 4 || !s.windowOpen || decide (regionsOf m ≤ region) then .next s
  else
    match s.tests.find? (fun (t : RegionTest) => t.mem = m && t.region = region) with
    | none =>
      if !s.flag Reg.memCtrl Fld.memCtrlTestEn then .next s
      else if s.testRoom m then .next (s.beginTest m region)
      else match m with
        | .stockpile l =>
          -- every buffer holds a retired region: what fails now stays in use under the code alone (R259)
          .next (s.raiseIf (decide (s.fld (Reg.memSpRetired l) Fld.memSpRetiredRegions = 16) && !fails.isEmpty) 4)
        | _ => .next s
    | some t =>
      match t.phase with
      | .copyIn => .next (s.copyRow m (.copyIn region t.pos))
      | .march =>
        if s.testHeld m region then .next s
        else if fails.isEmpty then .next (s.endMarch m region)
        else .next (s.modTest m region fun t => { t with phase := .repair, failing := fails })
      | .repair =>
        let r := s.testRepair m region t.failing
        .next (r.1.modTest m region fun t => { t with phase := r.2, failing := [] })
      | .again => .next (if s.testHeld m region then s else s.endMarch m region)
      | .copyBack => .next (s.copyRow m (.copyBack region t.pos))
      | .retired => .next s

/-! ## HBM controllers (R240, R260-R263) -/

/-- The position within its stack of an HBM address (R240, R261): the address without the bits that choose the stack.
(DEDUCED: notes/assumptions/108) -/
def State.stackPos (s : State) (pa : Nat) : Nat :=
  if s.fld Reg.hbmCtrl Fld.hbmCtrlInterleave = 0 then pa / 2 ^ 15 * 2 ^ 12 + pa % 2 ^ 12
  else
    let a := if pa < 0x3000000000 then pa else pa - 0x3000000000
    a / 2 ^ 14 * 2 ^ 12 + a % 2 ^ 12

/-- Units of 256 B in a stack (R261). -/
def scrubUnits : Nat := 201326592

/-- Does the scrub of a stack reach a word: in the `n` lines of 64 B from its position (R261). -/
def State.scrubbed (s : State) (k line n pa : Nat) : Bool :=
  (match s.paKind pa with
   | .hbm j => j = k
   | _ => false) && (s.stackPos pa / 64 + 4 * scrubUnits - line) % (4 * scrubUnits) < n

/-- The scrub of a stack finds an uncorrectable word (R255, R262): it counts, is rewritten with the poison check pattern, and its row
is marked. -/
def State.scrubBad (s : State) (k pa syn : Nat) : State :=
  let s := (s.noteUe pa syn).mark pa poisonSyndrome
  s.setHbm k ((s.hbm k).markRow (Config.hbmRow pa) pa)

/-- What the scrub finds in a word (R254, R255). -/
def State.scrubFind (s : State) (k : Nat) (f : WordFind) : State :=
  let pa := f.word / 4 * 4
  match f.ecc with
  | .clean => s
  | .corrected => s.hbmCorrected k pa
  | .uncorrectable syn => s.scrubBad k pa syn

/-- PATROL_SCRUB (R256, R261, R262): one window's scrub of a stack: 64 B per 100 µs of frame length, rounded up, from its position.
Words that are uncorrectable already are met again; `found` is what else the code finds in the lines scrubbed. -/
def execPatrolScrub (stack : Nat) (found : List WordFind) (s : State) : Host.Outcome State Fault Refusal :=
  let c := s.hbm stack
  if !s.up 3 || !s.windowOpen || !s.flag Reg.hbmCtrl Fld.hbmCtrlScrubEn || !s.flag (Reg.hbmStat stack) Fld.hbmStatTrained ||
      c.scrubFrame = s.frame + 1 then .next s
  else
    let line := 4 * s.reg (Reg.hbmScrubPos stack) + c.line
    let n := (s.reg Reg.whsPeriod + 9999) / 10000
    let old := s.marks.filter fun e => s.scrubbed stack line n (4 * e.1)
    let t := old.foldl (fun t e => t.scrubBad stack (4 * e.1) e.2) s
    let t := (found.filter fun f => s.scrubbed stack line n f.word && !s.marked (f.word / 4 * 4) 4).foldl
      (fun t f => t.scrubFind stack f) t
    let wrap := 4 * scrubUnits ≤ line + n
    let next := (line + n) % (4 * scrubUnits)
    let c := t.hbm stack
    let t := t.setHbm stack
      { c with line := next % 4, rowErr := if wrap then [] else c.rowErr, scrubFrame := s.frame + 1 }
    .next ((t.setReg (Reg.hbmScrubPos stack) (next / 4)).bumpIf wrap (Reg.hbmScrubPassCnt stack))

/-- Hold a row in the controller's row cache, or report its page for retirement (R263). -/
def State.holdRow (s : State) (k row pa : Nat) : State :=
  let c := s.hbm k
  if c.cached.length < 8 then
    (s.setHbm k { c with cached := c.cached ++ [row] }).setFld (Reg.hbmStat k) Fld.hbmStatCacheRows (c.cached.length + 1)
  else
    let s := ({ s with retired := s.retired ++ [pa / 0x10000 * 0x10000] }).bump Reg.hbmRetireCnt
    s.setFld (Reg.hbmStat k) Fld.hbmStatDegraded 1

/-- Is a word in a row of a stack. -/
def State.inHbmRow (s : State) (k row pa : Nat) : Bool :=
  (match s.paKind pa with
   | .hbm j => j = k
   | _ => false) && Config.hbmRow pa = row

/-- A controller reads a row into its row copy, and corrects as it reads (R254, R255, R262). -/
def State.copyHbmRow (s : State) (k row : Nat) (found : List WordFind) : State :=
  let old := s.marks.filter fun e => s.inHbmRow k row (4 * e.1)
  let t := old.foldl (fun t e => t.noteUe (4 * e.1) e.2) s
  (found.filter fun f => s.inHbmRow k row (f.word / 4 * 4) && !s.marked (f.word / 4 * 4) 4).foldl (fun (t : State) f =>
    match f.ecc with
    | .clean => t
    | .corrected => t.hbmCorrected k (f.word / 4 * 4)
    | .uncorrectable syn => (t.noteUe (f.word / 4 * 4) syn).mark (f.word / 4 * 4) syn) t

/-- HBM_ROW_SPARE (R256, R262, R263): a controller spares its first marked row, once a frame, with 2 µs left in the window; `found`
is what the code finds in the row as it is copied, and `resource` says whether the stack has a repair resource left for the row's bank. (DESIGN CHOICE: notes/assumptions/41) -/
def execHbmRowSpare (stack : Nat) (found : List WordFind) (resource : Bool) (s : State) : Host.Outcome State Fault Refusal :=
  if !s.up 3 then .next s else
  let c := s.hbm stack
  match c.marked with
  | [] => .next s
  | (row, pa) :: l =>
    if !s.windowOpen || !s.flag Reg.hbmCtrl Fld.hbmCtrlSpareEn || s.windowLeft < 2000000 * subUnit ||
        c.sparedFrame = s.frame + 1 then .next s
    else
      let s := s.copyHbmRow stack row found
      let c := s.hbm stack
      let s := s.setHbm stack { c with marked := l, sparedFrame := s.frame + 1, rowErr := Store.erase c.rowErr row }
      if resource then
        .next (({ s with repairs := s.repairs ++ [(stack, row)] }).bump (Reg.hbmSpareCnt stack))
      else .next (s.holdRow stack row pa)

/-- HBM_RECALIBRATE (R256, R260): within the window, with 1 µs left, at most once a frame. -/
def execHbmRecalibrate (level controller : Nat) (s : State) : Host.Outcome State Fault Refusal :=
  if !s.up 3 then .next s else
  let stack := 4 * level + controller
  let c := s.hbm stack
  if !s.windowOpen || s.windowLeft < 1000000 * subUnit || c.calFrame = s.frame + 1 then .next s
  else .next ((s.setHbm stack { c with calFrame := s.frame + 1 }).bump (Reg.hbmCalCnt stack))

/-- INTERLEAVE_WRITE (R240): a write of HBM_CTRL; its INTERLEAVE bit is discarded once an HBM access has completed. -/
def execInterleaveWrite (val : Nat) (s : State) : Host.Outcome State Fault Refusal :=
  if !s.up 3 then .next s else
  let s := s.noteReserved Reg.hbmCtrl val
  let old := s.fld Reg.hbmCtrl Fld.hbmCtrlInterleave
  let v := putBits (val % 2 ^ 32) 31 8 0
  .next (s.setReg Reg.hbmCtrl (putBits (putBits v 3 3 0) 0 0 (if s.hbmUsed then old else val % 2)))

/-- HBM_UE_ADDR_READ (R265): reads HBM_UE_ADDR and latches the matching top bit. -/
def execHbmUeAddrRead (stack : Nat) (s : State) : Host.Outcome State Fault Refusal :=
  let r := s.readReg (Reg.hbmUeAddr (stack % 8))
  .next (r.1.emit (.readData r.2))

end Sys2Proof.Machine
end

