-- ==== Sys2Proof/Machine/Skips.lean ====
section
/-!
DEFINITION. Streams (10): descriptors, acceptance, tags, completion, faults and resumes, translation caches, and the
CXL ports.
-/
namespace Sys2Proof.Machine

/-- The step of work that belongs to none: a shaft that has begun no step. -/
def noStep : StepId := ⟨2 ^ 64, 0⟩

/-! ## Descriptors (R267, R268) -/

/-- Parse a stream descriptor (Table 10.1). -/
def StreamDesc.ofNat (w : Nat) : StreamDesc :=
  let sp := getBytes w 32 1
  let dn := getBytes w 40 4
  let fl := getBytes w 50 1
  { src := getBytes w 0 8, dst := getBytes w 8 8, rowlen := getBytes w 16 4, rows := getBytes w 20 4,
    sstride := getBytes w 24 4, dstride := getBytes w 28 4, sface := sp.testBit 0, dface := sp.testBit 1,
    remote := sp.testBit 2, gal := getBytes w 33 1, ctally := getBytes w 34 2, cadd := getBytes w 36 4,
    dnode := dn % 2 ^ 18, rtally := getBytes w 44 2, rate := getBytes w 46 2, burst := getBytes w 48 2,
    rsig := fl.testBit 0,
    rsvOk := sp / 8 = 0 && dn / 2 ^ 18 = 0 && fl / 2 = 0 && getBytes w 51 5 = 0, tag := getBytes w 56 8 }

/-- Bytes of a stream. -/
def StreamDesc.total (d : StreamDesc) : Nat := d.rowlen * d.rows

/-- Is a stream a kibble (R280). -/
def StreamDesc.kibble (d : StreamDesc) : Bool := d.total ≤ 256

/-- One past the last face offset of a side. -/
def spanEnd (base stride rows rowlen : Nat) : Nat := base + (rows - 1) * stride + rowlen

/-- A descriptor is malformed for skip `k` (R268). -/
def StreamDesc.malformed (d : StreamDesc) (k : Nat) : Bool :=
  !d.rsvOk || d.rows = 0 || d.rowlen = 0 || 2 ^ 24 < d.rowlen || 2 ^ 36 < d.total ||
  (if k < 144 then
    (!d.sface && !d.dface) || (d.sface && postRow < spanEnd d.src d.sstride d.rows d.rowlen) ||
      (d.dface && postRow < spanEnd d.dst d.dstride d.rows d.rowlen)
   else d.sface || d.dface) ||
  (d.remote && d.dface) || (d.remote && d.gal = 0 && 256 < d.total) || 7 < d.gal || (d.gal ≠ 0 && !d.remote)

/-- Bytes of a tag of a skip (Table 10.3). -/
def tagSize (k : Nat) : Nat := if k < 144 then 128 else 256

/-- The next tag of a stream at a byte offset (R277): source and destination addresses before translation and length,
which ends at the row's end or at a tag-size boundary of the destination. -/
def StreamDesc.tagAt (d : StreamDesc) (off size : Nat) : Nat × Nat × Nat :=
  let row := off / d.rowlen
  let p := off % d.rowlen
  let dst := d.dst + row * d.dstride + p
  (d.src + row * d.sstride + p, dst, min (d.rowlen - p) (size - dst % size))

/-- WRITE packets of a row whose destination starts at `a` (11 R305): one for a kibble. -/
def StreamDesc.pieces (d : StreamDesc) (row : Nat) : Nat :=
  let a := d.dst + row * d.dstride
  if d.kibble then 1 else (a + d.rowlen - 1) / 2048 - a / 2048 + 1

/-- WRITE packets of a remote stream (11 R305). -/
def StreamDesc.packets (d : StreamDesc) : Nat := ((List.range d.rows).map d.pieces).foldl (· + ·) 0

/-! ## Streams of a skip -/

/-- Is a stream a kibble (R280): the 96 bytes of a merge are. -/
def Stream.kibble (x : Stream) : Bool :=
  match x.use with
  | .merge _ _ _ => true
  | _ => x.desc.any fun d => d.kibble

/-- A stream of a skip. -/
def State.stream? (s : State) (k id : Nat) : Option Stream := (s.skip k).streams.find? fun (x : Stream) => x.id = id

/-- Change a stream of a skip. -/
def State.modStream (s : State) (k id : Nat) (f : Stream → Stream) : State :=
  s.setSkip k { s.skip k with streams := (s.skip k).streams.map fun (x : Stream) => if x.id = id then f x else x }

/-- Change the instance of a run, on its crew or switched out. -/
def State.modRun (s : State) (k order : Nat) (f : Instance → Instance) : State :=
  let hit := fun (i : Instance) => if i.order = order then f i else i
  { s with crews := s.crews.map fun e => (e.1, if e.1 / 16 = k then { e.2 with inst := e.2.inst.map hit } else e.2)
           saved := s.saved.map fun (x : SavedCtx) => if x.stope = k then { x with inst := hit x.inst } else x }

/-- The residue of `n` bytes at a stream's byte offset (16 R446): modulo 2^61 - 1, each 8-byte word times its byte
offset plus 1. -/
def residueOf (off v : Nat) : Nat → Nat
  | 0 => 0
  | n + 1 => (v % 256 * 256 ^ (off % 8) * (off / 8 * 8 + 1) + residueOf (off + 1) (v / 256) n) % (2 ^ 61 - 1)

/-- Compare a keyed word of a pair with the other run's word of the same key, or queue it (15 R405).
(DESIGN CHOICE: notes/assumptions/26) -/
def Pair.pushKeyed (p : Pair) (shadow : Bool) (idx : Nat) (t : Traffic) : Pair :=
  let key := fun (u : Traffic) => u.kind = t.kind && u.words.head? = some idx
  if shadow then
    match p.primary.find? key with
    | some u => { p with primary := p.primary.erase u, mismatch := p.mismatch || decide (u ≠ t) }
    | none => { p with shadow := p.shadow ++ [t] }
  else
    match p.shadow.find? key with
    | some u => { p with shadow := p.shadow.erase u, mismatch := p.mismatch || decide (u ≠ t) }
    | none => { p with primary := p.primary ++ [t] }

/-- The traffic of a completed stream of a level-2 run, compared by posting index: its signals and, where it leaves the
stope, the residue of its bytes. -/
def State.pairStream (s : State) (x : Stream) (idx : Nat) : State :=
  if x.pair = 0 then s
  else
    match x.desc with
    | none => s
    | some d =>
      let t : Traffic := ⟨3, [idx, if d.dface then 0 else x.residue, d.ctally, d.cadd, d.rsig.toNat, d.rtally]⟩
      { s with pairs := s.pairs.map fun (p : Pair) => if p.id = x.pair then p.pushKeyed x.shadow idx t else p }

/-- The run that posted under an order number, on its crew or switched out. -/
def State.run? (s : State) (k order : Nat) : Option Instance :=
  ((s.crews.filterMap fun e => if e.1 / 16 = k then e.2.inst else none) ++
    (s.saved.filterMap fun (x : SavedCtx) => if x.stope = k then some x.inst else none)).find? fun i => i.order = order

/-- A completed stream differs from the restart record (16 R447): its run's outcome is bad with cause 3, also after its commit; the run
counts once. (DEDUCED: notes/assumptions/28) -/
def State.streamDiffers (s : State) (k order : Nat) : State :=
  let counted := match s.run? k order with
    | some i => i.done.differs
    | none => s.tickets.any fun t => t.waitTile = some order && t.outcome = some (some 3)
  let s := (s.modRun k order fun i =>
    { i with bad := i.bad.orElse fun _ => some 3, done := { i.done with differs := true } }).bumpIf (!counted) Reg.sftRestartBadCnt
  { s with tickets := s.tickets.map fun (t : Ticket) =>
      if t.waitTile = some order && t.outcome.isSome then { t with outcome := some (some 3) } else t }

/-- A posted stream has completed (16 R446, R447): recorded for its instance, or compared with the restart record. -/
def State.recordStream (s : State) (k order idx : Nat) (x : Stream) : State :=
  match x.expect with
  | some r =>
    if r = x.residue then s else s.streamDiffers k order
  | none =>
    if x.shadow then s
    else s.modRun k order fun i =>
      if 64 ≤ i.restart.streams.length + i.done.streams.length then { i with done := { i.done with past := true } }
      else { i with done := { i.done with streams := i.done.streams ++ [⟨idx, x.residue⟩] } }

/-- The kernel-image copy of a DISPATCH to a stope has ended (08 R220, R271). -/
def State.imageEnded (s : State) (k id : Nat) (failed : Bool) : State :=
  let s := s.modDispatch id fun d =>
    { d with copying := d.copying.filter fun e => e.1 ≠ k
             copied := if failed then d.copied else d.copied ++ [k]
             copyFailed := if failed then d.copyFailed ++ [k] else d.copyFailed }
  if id = 0 && failed then
    { s with crews := s.crews.map fun e =>
        (e.1, if e.1 / 16 = k then
          { e.2 with inst := e.2.inst.map fun i => if i.ballast then { i with noImage := true } else i } else e.2) }
  else s

/-- A merge stream has ended (05 R129, 06 R160, R271): refused or stopped, its refusal is recorded. -/
def State.mergeEnded (s : State) (k crew : Nat) (site : Site) (v : LodeAcc) (target : Nat) (refused : Bool) : State :=
  let c : CrewRef := ⟨k, crew⟩
  let s := s.bumpIf refused (Reg.slcMergeBadCnt k)
  s.modInst c fun i =>
    { i with mergesOut := i.mergesOut - 1
             refusals := if refused then i.refusals ++ [⟨target, v, site⟩] else i.refusals }

/-- A stream ends (R274, R288): it leaves its skip, is counted, adds CADD to CTALLY, and what waits for it goes on. -/
def State.endStream (s : State) (k : Nat) (x : Stream) (failed : Bool) : State :=
  let s := s.setSkip k { s.skip k with streams := (s.skip k).streams.filter fun (y : Stream) => y.id ≠ x.id }
  let s := s.bump (Reg.skpStreamCnt k)
  let s := s.bumpIf (x.kibble && !failed) (Reg.skpKibbleCnt k)
  let s := match x.desc with
    | some d => if d.cadd ≠ 0 && !x.shadow then s.signal d.ctally false d.cadd else s
    | none => s
  let s := s.setOutcome x.tickets x.bad
  match x.use with
  | .posted _ _ idx order =>
    let s := s.pairStream x idx
    if failed then s else s.recordStream k order idx x
  | .copy shaft cmd _ =>
    let more := (s.skip k).streams.any fun (y : Stream) => match y.use with
      | .copy n c _ => n = shaft && c = cmd
      | _ => false
    if more then s else s.cmdDone shaft cmd
  | .image id => s.imageEnded k id failed
  | .merge crew site v => s.mergeEnded k crew site v x.at_ failed

/-! ## Stops (R285-R288) -/

/-- Physical runs of one side of a tag, or its stop cause and failing address. -/
def State.sideRuns (s : State) (k : Nat) (face : Bool) (a n : Nat) (write : Bool) :
    State × Res (List (Nat × Nat)) × Nat :=
  if face then (s, .ok [(faceBase k + a, n)], a)
  else
    let r := s.xlateSpan (some k) a n write (spanPages n)
    let edge := (a / 2 ^ 16 + 1) * 2 ^ 16
    match r.2 with
    | .ok l => (r.1, .ok l, a)
    | .stop c => (r.1, .stop c, match (s.xlate (some k) a write).2 with
      | .ok _ => edge
      | .stop _ => a)

/-- Count marked words that are forwarded as poison (R289). -/
def State.forwardPoison (s : State) (k : Nat) (l : List (Nat × Nat)) : State :=
  l.foldl (fun s r => s.bumpN (Reg.skpPoisonCnt k)
    (s.marks.filter fun e => e.1 * 4 < r.1 + r.2 && r.1 < e.1 * 4 + 4).length) s

/-- A remote stream sends `len` bytes from byte `p0` of a row as a WRITE packet (11 R305), under its current ticket (15 R408, R409):
its tags of those bytes are free, once the packet is with the router. (DESIGN CHOICE: notes/assumptions/43) -/
def State.sendBytes (s : State) (k : Nat) (x : Stream) (d : StreamDesc) (row p0 len : Nat) : State :=
  let off := row * d.rowlen + p0
  let last := off + len = d.total
  match s.sideRuns k d.sface (d.src + row * d.sstride + p0) len false with
  | (s, .stop _, _) => s.modStream k x.id fun y => { y with tags := [] }
  | (s, .ok runs, _) =>
    let r := s.readRuns runs
    let s := if r.2.2 then r.1.forwardPoison k runs else r.1
    let s := s.modStream k x.id fun y =>
      { y with residue := (y.residue + residueOf off r.2.1 len) % (2 ^ 61 - 1), tags := [] }
    if x.shadow then s
    else
      let c := s.currentTicket x.step 4 x.ticket x.born
      let s := c.2.2.modStream k x.id fun y =>
        { y with ticket := c.1, born := c.2.1, tickets := if y.tickets.contains c.1 then y.tickets else y.tickets ++ [c.1] }
      let pkt : Packet := { s.newPacket d.dnode (if d.kibble then 0 else d.gal) 1 with
        plen := len, last, poison := r.2.2, rsig := d.rsig, xfer := x.xfer, addr := (d.dst + row * d.dstride + p0) % 2 ^ 57,
        count := if last then d.packets else 0, rtally := d.rtally, payload := r.2.1 }
      s.sendProv pkt c.1

/-- The first byte in its row of the piece that holds byte `p` of a row (11 R305). -/
def StreamDesc.pieceFrom (d : StreamDesc) (row p : Nat) : Nat :=
  let base := d.dst + row * d.dstride
  if d.kibble then 0 else max base ((base + p) / 2048 * 2048) - base

/-- Send the WRITE packet that a remote stream's tag ends, when it ends one (11 R305). -/
def State.sendPiece (s : State) (k : Nat) (x : Stream) (d : StreamDesc) (off n : Nat) : State :=
  let row := off / d.rowlen
  let p := off % d.rowlen
  if !(p + n = d.rowlen || (!d.kibble && (d.dst + row * d.dstride + p + n) % 2048 = 0)) then s
  else s.sendBytes k x d row (d.pieceFrom row p) (p + n - d.pieceFrom row p)

/-- A remote stream stops at its next byte (R285, R286): the tags issued before it complete, which at an error sends what they hold of
an unfinished piece; a halt keeps them for the piece, which is read when it ends, and frees them. -/
def State.flushPiece (s : State) (k : Nat) (x : Stream) (halt : Bool) : State :=
  match x.desc with
  | some d =>
    if !d.remote || x.tags.isEmpty then s
    else if halt then s.modStream k x.id fun y => { y with tags := [] }
    else
      let row := (x.next - 1) / d.rowlen
      let p := (x.next - 1) % d.rowlen
      s.sendBytes k x d row (d.pieceFrom row p) (p + 1 - d.pieceFrom row p)
  | none => s


/-- The fault record (Table 10.7). -/
def faultRecord (x : Stream) (k fva boff cause fid : Nat) (resumable side : Bool) : Nat :=
  let didx := match x.use with
    | .copy _ _ i => i
    | _ => 0
  packFields [(8, (x.desc.map fun d => d.tag).getD 0), (8, fva), (8, boff), (2, k), (1, cause),
    (1, resumable.toNat + 2 * side.toNat + (if k < 144 then 0 else 4)), (2, fid), (2, didx)]

/-- The source of a stream's reports: its shaft, or its stope. -/
def Stream.source (x : Stream) (k : Nat) : Nat :=
  match x.use with
  | .copy n _ _ => n
  | _ => k

/-- Does a stop of this stream block its step's seal whatever ERR_SEAL holds (R271). -/
def Stream.alwaysSeals (x : Stream) : Bool :=
  match x.use with
  | .image _ => true
  | .merge _ _ _ => true
  | _ => false

/-- A non-resumable stop (R288): counted and reported; the stream ends once the tags issued before it have completed. -/
def State.errorStop (s : State) (k : Nat) (x : Stream) (rec_ : Nat) : State :=
  let s := s.bump (Reg.skpErrCnt k)
  let s := s.report x.step
    ⟨6, s.flag Reg.skpCtrl Fld.skpCtrlErrSeal || x.alwaysSeals, false, x.source k, rec_⟩
  if x.tags.isEmpty then s.endStream k x true
  else s.modStream k x.id fun y => { y with phase := .ended }

/-- A stream stops at its first failing byte (R285, R286): a fault record is written, and the stream halts at a
resumable cause or ends. -/
def State.stopStream (s : State) (k : Nat) (x : Stream) (cause fva : Nat) (side : Bool) : State :=
  let fid := s.fid
  let rec_ := faultRecord x k fva x.next cause fid (cause = 1) side
  let s := { s with fid := (fid + 1) % 2 ^ 16 }.flushPiece k x (cause = 1)
  let x := if x.desc.any fun d => d.remote then { x with tags := [] } else x
  let s := (s.ringPush ringFault true 32 rec_).raiseIf (s.flag Reg.skpCtrl Fld.skpCtrlFaultEvent) 5
  if cause = 1 then
    (s.bump (Reg.skpFaultCnt k)).modStream k x.id fun y => { y with phase := .halted fid rec_ side }
  else s.errorStop k x rec_

/-! ## Acceptance (R266, R268-R270) -/

/-- Read the descriptor of a stream: the state, and the descriptor or a stop cause. -/
def State.readStreamDesc (s : State) (k : Nat) (x : Stream) : State × Res StreamDesc :=
  match x.desc with
  | some d => (s, .ok d)
  | none =>
    if x.byVa then
      match s.devRead (some k) x.at_ 64 with
      | (s, .stop c) => (s, .stop c)
      | (s, .ok (w, bad)) => (s, if bad then .stop 5 else .ok (StreamDesc.ofNat w))
    else if x.at_ % 64 ≠ 0 ∨ 2 ^ 22 ≤ x.at_ ∨ postRow ≤ x.at_ then (s, .stop 5)
    else
      let r := s.readMem (faceBase k + x.at_) 64
      (r.1, if r.2.2 then .stop 5 else .ok (StreamDesc.ofNat r.2.1))

/-- Token units of a byte: tokens are kept in units of 1/4000 byte, so that RATE x 0.25 GB/s adds RATE a picosecond.
(DESIGN CHOICE: notes/assumptions/44) -/
def tokenUnit : Nat := 4000

/-- The depth of a regulator in token units (R281). -/
def StreamDesc.depth (d : StreamDesc) : Nat := max 1 d.burst * 4096 * tokenUnit

/-- A stream enters service with its descriptor (R266, R281), a remote one with its ticket and transfer identifier (15
R408). -/
def State.acceptStream (s : State) (k : Nat) (x : Stream) (d : StreamDesc) : State :=
  let x := { x with desc := some d, phase := .running, tokens := d.depth, refill := s.ps }
  if d.remote && !x.shadow then
    let r := s.issueTicket x.step 4 [] none
    let f := r.2.2.newXfer
    f.2.modStream k x.id fun _ => { x with ticket := r.1, born := r.2.1, tickets := [r.1], xfer := f.1 }
  else s.modStream k x.id fun _ => x

/-- Has a skip a place for a stream it accepts: 8 run at once, and 64 kibbles queue apart from them (R266, R280). -/
def Skip.place (x : Skip) (kib : Bool) : Bool :=
  (x.streams.filter fun (y : Stream) => decide (y.phase ≠ .queued) && y.kibble = kib).length < (if kib then 64 else 8)

/-- STREAM_ACCEPT (R266, R268, R270, R280): the first waiting stream of a skip is accepted once there is a place for it; its
descriptor is read once. A merge stream (R271) has none. -/
def execStreamAccept (skip : Nat) (s : State) : Host.Outcome State Fault Refusal :=
  let sk := s.skip skip
  match sk.streams.find? fun (x : Stream) => decide (x.phase = .queued) with
  | none => .next s
  | some x =>
    let x := { x with taken := s.cycle }
    match x.use with
    | .merge _ _ _ =>
      .next (if sk.place true then s.modStream skip x.id fun _ => { x with phase := .running } else s)
    | _ =>
      match s.readStreamDesc skip x with
      | (t, .stop c) => .next (if sk.place false then t.stopStream skip x c x.at_ false else s)
      | (t, .ok d) =>
        if !sk.place d.kibble then .next s
        else if d.malformed skip then .next (t.stopStream skip { x with desc := some d } 5 x.at_ false)
        else if d.remote && !x.shadow && !t.ticketRoom then .next (s.waitOn (.stream skip x.id) .ticket)
        else .next ((t.waitDone (.stream skip x.id)).acceptStream skip x d)

/-! ## Issue (R273, R277-R281) -/

/-- The class of a stream in its skip (R278): 0 read, 1 write, 2 remote. -/
def Stream.cls (x : Stream) (k : Nat) (toPort : Bool) : Nat :=
  match x.desc with
  | some d => if d.remote then 2 else if k < 144 then (if d.sface then 1 else 0) else if toPort then 1 else 0
  | none => 1

/-- The issue slots of a group (R278): the order of the reset shares; for other shares each class's slots together. -/
def slotOrder (read write remote : Nat) : List Nat :=
  if read = 5 ∧ write = 3 ∧ remote = 2 then [0, 1, 0, 2, 0, 1, 0, 2, 0, 1]
  else List.replicate read 0 ++ List.replicate write 1 ++ List.replicate remote 2

/-- The skip record that holds a group's slot: the stope skip itself, or one shared by the bulk skips (R278). -/
def groupKey (k : Nat) : Nat := if k < 144 then k else 160

/-- Tokens of a stream now (R281). (DESIGN CHOICE: notes/assumptions/44) -/
def Stream.tokensNow (x : Stream) (d : StreamDesc) (now : Nat) : Nat :=
  min d.depth (x.tokens + d.rate * (now - x.refill))

/-- Is a stream regulated (R280, R281). -/
def StreamDesc.regulated (d : StreamDesc) : Bool := d.rate ≠ 0 && !d.kibble

/-- Has a stream bytes left to issue. -/
def Stream.hasTag (x : Stream) : Bool :=
  decide (x.phase = .running) && (match x.desc with
    | some d => decide (x.next < d.total)
    | none => x.next = 0)

/-- Does a stream's next tag wait for tokens (R281). -/
def Stream.starved (x : Stream) (k now : Nat) : Bool :=
  match x.desc with
  | some d => d.regulated && decide (x.tokensNow d now < (d.tagAt x.next (tagSize k)).2.2 * tokenUnit)
  | none => false

/-- Tags that a skip's kibbles, or its other streams, hold. -/
def Skip.tagsHeld (x : Skip) (kib : Bool) : Nat :=
  ((x.streams.filter fun (y : Stream) => y.kibble = kib).map fun (y : Stream) => y.tags.length).foldl (· + ·) 0

/-- Is a tag free for a stream of its kind (Table 10.3, R280). -/
def Skip.tagFree (x : Skip) (k : Nat) (kib : Bool) : Bool :=
  x.tagsHeld kib < (if kib then 16 else if k < 144 then 512 else 2048)

/-- Does a stream write into the host or CXL range (R278), judged by its next destination. -/
def State.writesPort (s : State) (k : Nat) (x : Stream) : Bool :=
  match x.desc with
  | some d =>
    if d.remote || d.dface then false
    else match (s.xlate (some k) (d.tagAt x.next (tagSize k)).2.1 true).2 with
      | .ok pa => 0x100000000000 ≤ pa
      | .stop _ => false
  | none => false

/-- Lines of 64 bytes that runs touch. -/
def runLines (l : List (Nat × Nat)) : List Nat :=
  l.flatMap fun r => (List.range ((r.1 + r.2 + 63) / 64 - r.1 / 64)).map fun i => r.1 / 64 + i

/-- Do runs touch a line to which an earlier write of the skip is outstanding (R273). -/
def Skip.hazard (x : Skip) (l : List (Nat × Nat)) : Bool :=
  let busy := x.streams.flatMap fun (y : Stream) => y.tags.flatMap fun t => runLines t.dst
  (runLines l).any fun n => busy.contains n

/-- Has a stream written bytes of `[va, va + n)` at its destination, in lines of 64 bytes, among those issued so far. -/
def Stream.wrote (x : Stream) (d : StreamDesc) (va n : Nat) : Bool :=
  (List.range d.rows).any fun r =>
    let len := min d.rowlen (x.next - r * d.rowlen)
    let a := d.dst + r * d.dstride
    0 < len && decide (a / 64 ≤ (va + n - 1) / 64) && decide (va / 64 ≤ (a + len - 1) / 64)

/-- Is an earlier remote write of the skip to a line outstanding (R273): another stream's, that its destination has not acknowledged;
`node` and `va` name the access. -/
def Skip.remoteHazard (x : Skip) (id node va n : Nat) : Bool :=
  x.streams.any fun (y : Stream) => y.id ≠ id && !y.acked && (match y.desc with
    | some d => d.remote && d.dnode = node && y.wrote d va n
    | none => false)

/-- Does a run read host memory. -/
def State.hostRun (s : State) (l : List (Nat × Nat)) : Bool :=
  l.any fun r => s.paKind r.1 = .host

/-- The host address pages of 4 KiB that runs touch. -/
def State.hostPages (s : State) (l : List (Nat × Nat)) : List Nat :=
  ((l.filter fun r => s.paKind r.1 = .host).flatMap fun r =>
    (List.range ((r.1 + r.2 + 4095) / 4096 - r.1 / 4096)).map fun i => r.1 / 4096 + i).eraseDups

/-- With ATS on, the pages of a request that the translation cache lacks are asked for and kept (19 R504).
(DESIGN CHOICE: notes/assumptions/45) -/
def State.askAts (s : State) (l : List (Nat × Nat)) : State :=
  if !s.port.atsOn then s
  else
    let new := (s.hostPages l).filter fun p => !s.port.ats.contains p
    let all := s.port.ats ++ new
    ({ s with port := { s.port with ats := all.drop (all.length - 1024) } }).bumpN Reg.pciAtsReqCnt new.length

/-- Host reads of 512 bytes that runs of a source make: the blocks they touch (Table 10.3). -/
def State.hostBlocks (s : State) (l : List (Nat × Nat)) : List Nat :=
  (l.filter fun r => s.paKind r.1 = .host).flatMap fun r =>
    (List.range ((r.1 + r.2 + 511) / 512 - r.1 / 512)).map fun i => r.1 / 512 + i

/-- Outstanding host reads (R277, Table 10.3): of a bulk skip's stream, the tags of one 512-byte block make one read. -/
def State.hostReads (s : State) : Nat :=
  (s.skips.map fun e => (e.2.streams.map fun (y : Stream) =>
    let l := y.tags.flatMap fun t => s.hostBlocks t.src
    if e.1 < 144 then l.length else l.eraseDups.length).foldl (· + ·) 0).foldl (· + ·) 0

/-- Outstanding requests to a CXL port (Table 10.3). -/
def State.cxlLoad (s : State) (p : Nat) : Nat :=
  (s.skips.map fun e => (e.2.streams.map fun (y : Stream) =>
    (y.tags.map fun t => s.cxlRequests p (t.src ++ t.dst)).foldl (· + ·) 0).foldl (· + ·) 0).foldl (· + ·) 0

/-- Has each port of a tag free slots for its requests, at a block that is ON (R277, Table 10.3; 18 R488).
(DESIGN CHOICE: notes/assumptions/46) -/
def State.portFree (s : State) (src dst : List (Nat × Nat)) : Bool :=
  (!s.hostRun src || decide (s.hostReads + (s.hostBlocks src).length ≤ 1024)) &&
  (!s.hostRun (src ++ dst) || s.blockOn 0x16) &&
  [0, 1].all fun p =>
    let n := s.cxlRequests p (src ++ dst)
    n = 0 || (decide (s.cxlLoad p + n ≤ 2048) && s.blockOn (0x14 + p))

/-! ### Which tag issues (R273, R278-R281) -/

/-- What the next tag of a stream touches: runs of its source and destination; none where one cannot be translated, and the stream
stops. -/
def State.nextRuns (s : State) (k : Nat) (x : Stream) : Option (List (Nat × Nat) × List (Nat × Nat)) :=
  match x.desc with
  | none =>
    (match (s.sideRuns k false x.at_ 96 true).2.1 with
     | .ok l => some ([], l)
     | .stop _ => none)
  | some d =>
    let t := d.tagAt x.next (tagSize k)
    match (s.sideRuns k d.sface t.1 t.2.2 false).2.1 with
    | .stop _ => none
    | .ok src =>
      if d.remote then some (src, [])
      else match (s.sideRuns k d.dface t.2.1 t.2.2 true).2.1 with
        | .stop _ => none
        | .ok dst => some (src, dst)

/-- Must a stream's next tag wait for a remote write of its skip (R273). -/
def State.behindRemote (s : State) (k : Nat) (x : Stream) : Bool :=
  match x.desc with
  | none => (s.skip k).remoteHazard x.id s.node x.at_ 96
  | some d =>
    let t := d.tagAt x.next (tagSize k)
    (!d.sface && (s.skip k).remoteHazard x.id s.node t.1 t.2.2) ||
      (!d.dface && (s.skip k).remoteHazard x.id (if d.remote then d.dnode else s.node) t.2.1 t.2.2)

/-- May a stream's next tag issue, its regulator apart: a tag and the slots of its ports are free, and nothing it touches is held or
waits for an earlier write (R273, R277; 09 R247). -/
def State.clearTag (s : State) (k : Nat) (x : Stream) : Bool :=
  (s.skip k).tagFree k x.kibble && (match s.nextRuns k x with
    | none => true
    | some (src, dst) =>
      (s.cxlDown (src ++ dst)).isSome || (!(s.skip k).hazard (src ++ dst) && s.portFree src dst && !s.heldRuns src)) &&
    !s.behindRemote k x

/-- Has a stream a tag ready. -/
def State.tagReady (s : State) (k : Nat) (x : Stream) : Bool := x.hasTag && !x.starved k s.ps && s.clearTag k x

/-- Does a stream's next tag wait for tokens only (R281). -/
def State.throttled (s : State) (k : Nat) (x : Stream) : Bool := x.hasTag && x.starved k s.ps && s.clearTag k x

/-- Each cycle in which a stream's next tag waits for tokens only counts for its skip (R281). (DESIGN CHOICE: notes/assumptions/44) -/
def State.countThrottle (s : State) : State :=
  s.skips.foldl (fun t e => t.bumpIf (e.2.streams.any fun x => s.throttled e.1 x) (Reg.skpThrottleCnt e.1)) s

/-- The skips of a group (R278): a stope skip, or the 16 bulk skips. -/
def groupSkips (k : Nat) : List Nat := if k < 144 then [k] else (List.range 16).map (144 + ·)

/-- The streams of a group with a tag ready, kibbles apart, with their skips and classes. -/
def State.groupReady (s : State) (k : Nat) : List (Nat × Nat × Stream) :=
  (groupSkips k).flatMap fun j =>
    ((s.skip j).streams.filter fun (x : Stream) => !x.kibble && s.tagReady j x).map fun x => (j, x.cls j (s.writesPort j x), x)

/-- The class that takes the group's slot (R278, R279): the one whose slot it is; where it has no tag ready, the class whose oldest
ready stream was accepted first, read before write before remote. -/
def State.slotClass (s : State) (k : Nat) (l : List (Nat × Nat × Stream)) : Nat :=
  let order := slotOrder (s.fld Reg.skpShare Fld.skpShareRead) (s.fld Reg.skpShare Fld.skpShareWrite)
    (s.fld Reg.skpShare Fld.skpShareRemote)
  let want := order.getD ((s.skip (groupKey k)).slot % 10) 0
  if l.any fun e => e.2.1 = want then want
  else match l with
    | [] => want
    | e :: r => (r.foldl (fun b e => if e.2.2.taken < b.1 ∨ (e.2.2.taken = b.1 ∧ e.2.1 < b.2) then (e.2.2.taken, e.2.1) else b)
        (e.2.2.taken, e.2.1)).2

/-- The stream of a skip whose tag issues next (R266, R273, R278-R280): at most two tags a cycle; a kibble ahead of the shares, but in
one slot of 8 while a class of the group is ready; else the oldest stream of the class that takes the group's slot. And whether
it takes a kibble slot, or a class slot that advances the group's order. -/
def State.pickStream (s : State) (k : Nat) : Option (Stream × Bool × Bool) :=
  let sk := s.skip k
  if sk.turn = s.cycle + 1 ∧ 2 ≤ sk.issued then none
  else
    let rest := s.groupReady k
    match sk.streams.find? (fun (x : Stream) => x.kibble && s.tagReady k x), rest.isEmpty || decide (7 ≤ sk.sinceKibble) with
    | some x, true => some (x, true, false)
    | _, _ =>
      let c := s.slotClass k rest
      (rest.find? fun e => e.1 = k ∧ e.2.1 = c).map fun e => (e.2.2, false, rest.any fun f => f.2.1 ≠ c)

/-- Account for an issued tag: the slot taken, tokens spent, the stream's next byte. -/
def State.tagIssued (s : State) (k : Nat) (x : Stream) (kib slot : Bool) (n : Nat) (t : Option Tag) : State :=
  let s := s.modStream k x.id fun y =>
    let y := match y.desc with
      | some d => if d.regulated then { y with tokens := y.tokensNow d s.ps - n * tokenUnit, refill := s.ps } else y
      | none => y
    { y with next := y.next + n, tags := y.tags ++ t.toList }
  let sk := s.skip k
  let s := s.setSkip k
    { sk with sinceKibble := if kib then 0 else sk.sinceKibble + 1, nextTag := sk.nextTag + 1, turn := s.cycle + 1,
              issued := if sk.turn = s.cycle + 1 then sk.issued + 1 else 1 }
  if slot then s.setSkip (groupKey k) { s.skip (groupKey k) with slot := ((s.skip (groupKey k)).slot + 1) % 10 } else s

/-- Issue a tag of a merge (R271, 09 R249): its target translated for writing; a misaligned target (07 R184), or one in the host range,
a CXL range or the control space, refuses the lode-add. -/
def State.issueMerge (s : State) (k : Nat) (x : Stream) : State :=
  if x.at_ % 16 ≠ 0 then s.endStream k x true
  else match s.sideRuns k false x.at_ 96 true with
  | (s, .stop c, a) => s.stopStream k x c a true
  | (s, .ok runs, _) =>
    if runs.any (fun r => !s.takesAtomic r.1) then s.refuse.endStream k x true
    else s.tagIssued k x true false 96 (some ⟨(s.skip k).nextTag, 0, 96, [], runs, x.at_, x.at_, s.ps⟩)

/-- Issue the next tag of a stream (R273, R277, R285): its source is translated before its destination.
(DESIGN CHOICE: notes/assumptions/43) -/
def State.issueTag (s : State) (k : Nat) (x : Stream) (d : StreamDesc) (kib slot : Bool) : State :=
  let t := d.tagAt x.next (tagSize k)
  match s.sideRuns k d.sface t.1 t.2.2 false with
  | (s, .stop c, a) => s.stopStream k x c a false
  | (s, .ok src, _) =>
    let dr := if d.remote then (s, Res.ok [], t.2.1) else s.sideRuns k d.dface t.2.1 t.2.2 true
    match dr with
    | (s, .stop c, a) => s.stopStream k x c a true
    | (s, .ok dst, _) =>
      match s.cxlDown src, s.cxlDown dst with
      | some p, _ => (s.cxlEnded p src).stopStream k x 6 t.1 false
      | _, some p => (s.cxlEnded p dst).stopStream k x 6 t.2.1 true
      | none, none =>
        let off := x.next
        let s := s.tagIssued k x kib slot t.2.2
          (some ⟨(s.skip k).nextTag, off, t.2.2, src, dst, t.1, t.2.1, s.ps⟩)
        let s := s.askAts (src ++ dst)
        if d.remote then s.sendPiece k x d off t.2.2 else s

/-- TAG_ISSUE (R266, R273, R277-R281, R285): one issue slot of a skip. -/
def execTagIssue (skip : Nat) (s : State) : Host.Outcome State Fault Refusal :=
  match s.pickStream skip with
  | none => .next s
  | some (x, kib, slot) =>
    match x.desc with
    | some d => .next (s.issueTag skip x d kib slot)
    | none => .next (s.issueMerge skip x)

/-! ## Copy-on-write (15 R434) -/

/-- Does a write to a device virtual address wait for the copy of its granule: in a writable region of an armed
snapshot, and not copied yet (15 R434). -/
def State.cowWaits (s : State) (va n : Nat) : Bool :=
  match s.snapshot with
  | none => false
  | some x =>
    x.armed && x.regions.any fun r =>
      r.writable && decide (va < r.va + r.len * 0x10000) && decide (r.va < va + n) &&
        [va / 0x10000, (va + n - 1) / 0x10000].any fun g =>
          decide (r.va / 0x10000 ≤ g) && decide (g < r.va / 0x10000 + r.len) && !x.copied.contains g

/-! ## Completion of tags and streams (R274, R277, R289) -/

/-- Bytes of a source that lie in marked words, as byte enables of the tag. -/
def State.markedBytes (s : State) : List (Nat × Nat) → Nat
  | [] => 0
  | (pa, n) :: l =>
    packElems 1 ((List.range n).map fun i => (s.marked (pa + i) 1).toNat) + 2 ^ n * State.markedBytes s l

/-- Write the destination of a tag; register writes of the control space go to `wr`. -/
def State.tagWrite (wr : State → Nat → Nat → Nat → State) (s : State) : List (Nat × Nat) → Nat → Nat → State
  | [], _, _ => s
  | (pa, n) :: l, v, bad =>
    let live := ((s.postReach pa n).map (·.2)).getD n
    let s := if s.paKind pa = .control then wr s (pa - 0x8200000000) n (v % 2 ^ (8 * n))
      else s.storeAt pa n (v % 2 ^ (8 * n)) (allBytes n)
    let s := (List.range live).foldl (fun s i => if bad.testBit i then s.mark (pa + i) poisonSyndrome else s) s
    State.tagWrite wr (s.touch pa) l (v / 2 ^ (8 * n)) (bad / 2 ^ n)

/-- Free a tag of a stream; a stopped stream ends with its last tag. -/
def State.freeTag (s : State) (k : Nat) (x : Stream) (tag : Nat) : State :=
  let s := s.modStream k x.id fun y => { y with tags := y.tags.filter fun t => t.id ≠ tag }
  match s.stream? k x.id with
  | some y => if y.phase = .ended && y.tags.isEmpty then s.endStream k y true else s
  | none => s

/-- Count bytes moved, in units of 4 KiB (Table 10.9). -/
def State.countBytes (s : State) (k n : Nat) : State :=
  let b := (s.skip k).bytes + n
  (s.setSkip k { s.skip k with bytes := b % 4096 }).bumpN (Reg.skpBytesCnt k) (b / 4096)

/-- A merge's tag completes: the lode-add of its value at the target (05 R128, 09 R248, R249, R541), which holds its banks or its lines
for the cycles of a lode-add. One that reaches the post row is discarded and counts (R269). -/
def State.mergeTag (s : State) (k : Nat) (x : Stream) (crew : Nat) (v : LodeAcc) (t : Tag) : State :=
  match t.dst.findSome? fun r => s.postReach r.1 r.2 with
  | some (st, _) => (s.postBad st).endStream k x false
  | none =>
    let r := s.readRuns t.dst
    let held := t.dst.foldl (fun s r => s.holdAtomic r.1 r.2 10 (lodeCycles t.vdst) (some ⟨k, crew⟩)) r.1
    if r.2.2 then (held.markBad ⟨k, crew⟩ 4).endStream k x false
    else if fullImageKind r.2.1 ≠ 2 then held.endStream k x true
    else
      let img := ((LodeAcc.ofImage 2 r.2.1).1.addFull v).image 2 0 0
      (held.writeRuns t.dst img (allBytes 96)).endStream k x false

/-- A tag completes (R277, R289): its data are written at the destination, poisoned words as the check pattern. -/
def State.moveTag (wr : State → Nat → Nat → Nat → State) (s : State) (k : Nat) (x : Stream) (d : StreamDesc) (t : Tag) :
    State :=
  let bad := s.markedBytes t.src
  let s := if bad = 0 then s else s.forwardPoison k t.src
  let r := s.readRuns t.src
  let s := r.1.modStream k x.id fun y =>
    { y with residue := (y.residue + residueOf t.off r.2.1 t.len) % (2 ^ 61 - 1) }
  let s := if x.shadow && !d.dface then s else s.tagWrite wr t.dst r.2.1 bad
  (s.countBytes k t.len).freeTag k x t.id

/-- A tag ends at a failure of the port of its source (`side` false) or destination (R285, R292): its stream, halted or not, stops
with cause 6 at the tag's first byte. -/
def State.failTag (s : State) (k : Nat) (x : Stream) (t : Tag) (side : Bool) : State :=
  let y := { x with next := t.off, tags := x.tags.filter fun u => u.id ≠ t.id }
  match x.phase with
  | .ended =>
    let s := s.modStream k x.id fun z => { z with tags := y.tags }
    if y.tags.isEmpty then s.endStream k { x with tags := [] } true else s
  | _ => (s.modStream k x.id fun _ => y).stopStream k y 6 (if side then t.vdst else t.vsrc) side

/-- The CXL port that runs reach, if any. -/
def State.cxlOf (s : State) (l : List (Nat × Nat)) : Option Nat := [0, 1].find? fun p => s.cxlRequests p l ≠ 0

/-- A request of a tag ends in error at a port (R292): it counts at a CXL port. -/
def State.tagError (s : State) (k : Nat) (x : Stream) (t : Tag) (side : Bool) : State :=
  let s := match s.cxlOf (if side then t.dst else t.src) with
    | some p => s.bump (Reg.cxlErrCnt p)
    | none => s
  s.failTag k x t side

/-- Does a tag wait to complete (09 R247, R249): something holds what it touches, or the atomic unit of its target is full. -/
def State.tagHeld (s : State) (x : Stream) (t : Tag) : Bool :=
  s.heldRuns (t.src ++ t.dst) || (match x.use with
    | .merge _ _ _ => t.dst.any fun r => !s.atomicRoom r.1 r.2
    | _ => false)

/-- A tag completes, with register writes done by `wr`. -/
def State.completeTag (wr : State → Nat → Nat → Nat → State) (s : State) (k stream tag : Nat) (r : TagResult) : State :=
  match s.stream? k stream with
  | none => s
  | some x =>
    match x.tags.find? fun (t : Tag) => t.id = tag with
    | none => s
    | some t =>
      match r, x.use, x.desc with
      | .ok found, .merge crew _ v, _ =>
        if s.tagHeld x t then s
        else if s.cowWaits t.vdst t.len then s.waitOn (.stream k stream) (.copies [(t.vdst, t.len)])
        else ((s.waitDone (.stream k stream)).codeFindsIn t.dst found).mergeTag k x crew v t
      | .ok found, _, some d =>
        if d.remote || s.tagHeld x t then s
        else if !d.dface && s.cowWaits t.vdst t.len then s.waitOn (.stream k stream) (.copies [(t.vdst, t.len)])
        else ((s.waitDone (.stream k stream)).codeFindsIn t.src found).moveTag wr k x d t
      | .ok _, _, none => s
      | .portError side, _, _ | .aborted side, _, _ | .denied side, _, _ => s.tagError k x t side

/-- STREAM_COMPLETE (R274): every byte is issued and visible, a remote stream's acknowledged. -/
def execStreamComplete (skip stream : Nat) (s : State) : Host.Outcome State Fault Refusal :=
  match s.stream? skip stream with
  | none => .next s
  | some x =>
    match x.desc with
    | none => .next s
    | some d =>
      if decide (x.phase = .running) && decide (x.next = d.total) &&
          (if d.remote then x.acked || x.shadow else x.tags.isEmpty) then
        .next (s.endStream skip x false)
      else .next s

/-! ## Resume (R287) -/

/-- The stream halted under a fault identifier: its skip, itself, its fault record. -/
def State.haltedBy (s : State) (fid : Nat) : Option (Nat × Stream × Nat) :=
  s.skips.findSome? fun e => e.2.streams.findSome? fun (x : Stream) =>
    match x.phase with
    | .halted f rec_ _ => if f = fid then some (e.1, x, rec_) else none
    | _ => none

/-- STREAM_RESUME (R287): the halted stream translates again at BOFF and continues; one whose descriptor could not be
read reads it afresh. -/
def execStreamResume (fid : Nat) (s : State) : Host.Outcome State Fault Refusal :=
  if !s.up 5 then .next s else
  let s := s.setReg Reg.skpResume (fid % 2 ^ 16)
  match s.haltedBy (fid % 2 ^ 16) with
  | none => .next (s.bump Reg.skpResumeBadCnt)
  | some (k, x, _) =>
    let queued := x.desc.isNone && (match x.use with
      | .merge _ _ _ => false
      | _ => true)
    .next (s.modStream k x.id fun y => { y with phase := if queued then .queued else .running })

/-- STREAM_RESUME_ABORT (R287, R288): the halted stream ends; its item carries the halt's record with RESUMABLE = 0. -/
def execStreamResumeAbort (fid : Nat) (s : State) : Host.Outcome State Fault Refusal :=
  if !s.up 5 then .next s else
  let s := s.setReg Reg.skpResume (fid % 2 ^ 16 + 2 ^ 16)
  match s.haltedBy (fid % 2 ^ 16) with
  | none => .next (s.bump Reg.skpResumeBadCnt)
  | some (k, x, rec_) => .next (s.errorStop k x (putBits rec_ 216 216 0))

/-! ## Invalidation (R284) -/

/-- Drop cached translations and remember the tags that were translated through them. -/
def State.invalidate (s : State) (hit : Nat → Bool) (keep : TlbEntry → Bool) : State :=
  let span := fun (a n : Nat) => hit a || hit (a + n - 1)
  let waits := s.skips.flatMap fun e => e.2.streams.flatMap fun (x : Stream) =>
    (x.tags.filter fun t => match x.desc with
      | some d => (!d.sface && span t.vsrc t.len) || (!d.dface && !d.remote && span t.vdst t.len)
      | none => span t.vdst t.len).map fun t => (e.1, t.id)
  { s with hfTlb := s.hfTlb.filter keep
           skips := s.skips.map fun e => (e.1, { e.2 with tlb := e.2.tlb.filter keep })
           inval := some ⟨waits⟩ }

/-- TLB_INVALIDATE_PAGE (R284): a write to SKP_INV_CTRL with ALL = 0, for a 64 KiB page or a 2 MiB one. -/
def execTlbInvalidatePage (big : Bool) (s : State) : Host.Outcome State Fault Refusal :=
  if !s.up 5 then .next s else
  if s.flag Reg.skpInvCtrl Fld.skpInvCtrlBusy then .next s
  else
    let va := s.fld Reg.skpInvAddr0 Fld.skpInvAddrVaLo * 2 ^ 16 + s.fld Reg.skpInvAddr1 Fld.skpInvAddrVaHi * 2 ^ 32
    let sh := if big then 21 else 16
    let s := s.setReg Reg.skpInvCtrl (2 ^ 31 + big.toNat)
    .next (s.invalidate (fun a => a / 2 ^ sh = va / 2 ^ sh)
      fun e => !(decide (e.va * 2 ^ e.shift / 2 ^ max sh e.shift = va / 2 ^ max sh e.shift)))

/-- A write to SKP_INV_CTRL with ALL = 1 (R284): SIZE takes the value written. -/
def State.invalidateAll (s : State) (big : Bool) : State :=
  if !s.up 5 || s.flag Reg.skpInvCtrl Fld.skpInvCtrlBusy then s
  else (s.setReg Reg.skpInvCtrl (2 ^ 31 + 2 + big.toNat)).invalidate (fun _ => true) fun _ => false

/-- TLB_INVALIDATE_ALL (R284): a write to SKP_INV_CTRL with ALL = 1, and SIZE as it stands. -/
def execTlbInvalidateAll (s : State) : Host.Outcome State Fault Refusal :=
  .next (s.invalidateAll (s.flag Reg.skpInvCtrl Fld.skpInvCtrlSize))

/-- TLB_INVALIDATE_DONE (R284): BUSY clears once every tag translated through a dropped entry has completed. -/
def execTlbInvalidateDone (s : State) : Host.Outcome State Fault Refusal :=
  match s.inval with
  | none => .next s
  | some v =>
    let live := v.waits.any fun w => (s.skip w.1).streams.any fun (x : Stream) => x.tags.any fun t => t.id = w.2
    if live then .next s
    else .next ({ s with inval := none }.setFld Reg.skpInvCtrl Fld.skpInvCtrlBusy 0)

/-- SKP_SHARE_WRITE (R293): discarded unless the three fields sum to 10. -/
def execSkpShareWrite (val : Nat) (s : State) : Host.Outcome State Fault Refusal :=
  if !s.up 5 then .next s else
  let s := s.noteReserved Reg.skpShare val
  if bits val 23 16 + bits val 15 8 + bits val 7 0 = 10 then .next (s.setReg Reg.skpShare (val % 2 ^ 24))
  else .next s

/-! ## CXL ports (R292) -/

/-- Do runs reach a CXL port. -/
def State.atPort (s : State) (port : Nat) (l : List (Nat × Nat)) : Bool := s.cxlRequests port l ≠ 0

/-- The request timeout of the CXL ports in ps: units of 100 µs, 0 taken as 1 (Table 10.10).
(DEDUCED: notes/assumptions/47) -/
def State.cxlLimit (s : State) : Nat := max 1 (s.fld Reg.cxlCtrl Fld.cxlCtrlTimeout) * 10 ^ 8

/-- CXL_REQUEST_TIMEOUT (R292): the oldest request of a stream to the port that has not completed within CXL_CTRL.TIMEOUT
ends it. (DEDUCED: notes/assumptions/47) -/
def execCxlRequestTimeout (port skip stream : Nat) (s : State) : Host.Outcome State Fault Refusal :=
  match s.stream? skip stream with
  | none => .next s
  | some x =>
    match x.tags.find? (fun t => s.atPort port (t.src ++ t.dst) && t.since + s.cxlLimit ≤ s.ps) with
    | none => .next s
    | some t => .next (((s.bump (Reg.cxlTimeoutCnt port)).bump (Reg.cxlErrCnt port)).failTag skip x t (!s.atPort port t.src))

/-- Every outstanding request to a port ends with cause 6 (R292); `hit` tells what reaches the port. -/
def State.failPort (s : State) (hit : List (Nat × Nat) → Bool) : State :=
  let l := s.skips.flatMap fun e => e.2.streams.flatMap fun (x : Stream) =>
    (x.tags.filter fun t => hit (t.src ++ t.dst)).map fun t => (e.1, x.id, t)
  l.foldl (fun s e => match s.stream? e.1 e.2.1 with
    | some x => if x.tags.any (fun t => t.id = e.2.2.id) then s.failTag e.1 x e.2.2 (!hit e.2.2.src) else s
    | none => s) s

/-- The requests of all outstanding tags to a CXL port end with cause 6, each counted (R292). -/
def State.failCxl (s : State) (port : Nat) : State :=
  (s.bumpN (Reg.cxlErrCnt port) (s.cxlLoad port)).failPort (s.atPort port)

/-- CXL_LINK_DOWN (R292): the link of a port that is up goes down; every outstanding request to it ends with cause 6, and the foreman
reports it and may try three times to retrain it. -/
def execCxlLinkDown (port : Nat) (s : State) : Host.Outcome State Fault Refusal :=
  if !s.up 6 || s.fld (Reg.cxlPortStat port) Fld.cxlPortStatState ≠ 2 then .next s else
  let s := { s with port := { s.port with cxlTries := Store.set 0 s.port.cxlTries port 0 } }
  .next (((s.setFld (Reg.cxlPortStat port) Fld.cxlPortStatState 3).failCxl port).lampCause Fld.lmpLampCauseCxldown)

/-! ## COPY (R272) -/

/-- COPY (R272): its list of streams runs on one bulk skip, accepted in list order. -/
def execCopy (shaft : Nat) (s : State) : Host.Outcome State Fault Refusal :=
  .next (s.startCommand shaft 0x10 fun s c =>
    let list := c.get 16 8
    let count := c.get 24 4
    match firstCause [(decide (list % 64 ≠ 0), 5),
        (decide (c.get 28 1 / 16 ≠ 0 ∨ c.get 29 35 ≠ 0 ∨ 65535 < count), 7)] with
    | some k => (s, .refuse k)
    | none =>
      if count = 0 then (s, .start (s.startedAs shaft c .done))
      else
        let k := 144 + c.get 28 1 % 16
        let step := (s.shaft shaft).step.getD noStep
        ((List.range count).foldl (fun s i =>
          let r := s.newId
          r.2.setSkip k { r.2.skip k with
            streams := (r.2.skip k).streams ++ [Stream.waiting r.1 (.copy shaft c.id i) step (list + 64 * i) true] }) s,
          .start (s.startedAs shaft c .working)))

end Sys2Proof.Machine
end

