-- ==== Sys2Proof/Machine/Fabric.lean ====
section
/-!
DEFINITION. The Benine fabric (11): the torus, packets as bytes, link blocks and retry, lane sparing, routing, route
epochs, multicast, flow control and the completion table.
-/
namespace Sys2Proof.Machine

/-! ## The torus (R295-R297, R311) -/

/-- A coordinate of a node address: dimension 0 W, 1 X, 2 Y, 3 Z (R295); any other stands for a ring of one. -/
def coord (node d : Nat) : Nat :=
  match d with
  | 0 => bits node 17 15
  | 1 => bits node 14 10
  | 2 => bits node 9 5
  | 3 => bits node 4 0
  | _ => 0

/-- A node address with a coordinate replaced. -/
def withCoord (node d c : Nat) : Nat :=
  match d with
  | 0 => putBits node 17 15 c
  | 1 => putBits node 14 10 c
  | 2 => putBits node 9 5 c
  | 3 => putBits node 4 0 c
  | _ => node

/-- The size of a ring (R296). -/
def State.ring (s : State) (d : Nat) : Nat := coord (s.fld Reg.bnlRing Fld.bnlRingSizeM1) d + 1

/-- The neighbour of coordinate `c` in a ring of `n`: direction 0 plus, 1 minus (R296). -/
def neighbour (n c dir : Nat) : Nat := if dir = 0 then (c + 1) % n else (c + n - 1) % n

/-- The adit of a dimension, direction and number (R297). -/
def aditOf (d dir j : Nat) : Nat := 6 * d + 3 * dir + j

/-- Dimension of an adit. -/
def aditDim (a : Nat) : Nat := a / 6
/-- Direction of an adit: 0 plus, 1 minus. -/
def aditDir (a : Nat) : Nat := a / 3 % 2

/-- The state of an adit. -/
def State.adit (s : State) (a : Nat) : Adit := Store.get Adit.idle s.adits a

/-- Change the state of an adit. -/
def State.modAdit (s : State) (a : Nat) (f : Adit → Adit) : State :=
  { s with adits := Store.modify Adit.idle s.adits a f }

/-- Is an adit up, on four lanes or three (Table 11.7). -/
def State.aditUp (s : State) (a : Nat) : Bool :=
  s.fld (Reg.bnlPortStat a) Fld.bnlPortStatState = 2 || s.fld (Reg.bnlPortStat a) Fld.bnlPortStatState = 3

/-- Set STATE and CAUSE of an adit. -/
def State.setPort (s : State) (a st cause : Nat) : State :=
  (s.setFld (Reg.bnlPortStat a) Fld.bnlPortStatState st).setFld (Reg.bnlPortStat a) Fld.bnlPortStatCause cause

/-! ## Packets as bytes (R303) -/

/-- The header of a packet (Table 11.3). -/
def pktHeader (p : Packet) : Nat :=
  packFields [
    (4, p.dst % 2 ^ 18 + p.cls % 8 * 2 ^ 18 + p.half.toNat * 2 ^ 21 + p.esc.toNat * 2 ^ 22 + p.mcast.toNat * 2 ^ 23
      + p.repoch % 256 * 2 ^ 24),
    (4, p.src % 2 ^ 18 + p.kind % 16 * 2 ^ 18 + p.hops % 256 * 2 ^ 22),
    (4, p.plen % 2 ^ 12 + p.last.toNat * 2 ^ 12 + p.prov.toNat * 2 ^ 13 + p.poison.toNat * 2 ^ 14
      + p.rsig.toNat * 2 ^ 15 + p.tepoch % 256 * 2 ^ 16),
    (4, p.xfer), (8, p.addr), (4, p.count), (2, p.rtally), (2, 0), (8, p.ticket), (8, 0)]

/-- The bytes of a packet as one little-endian number. -/
def pktBytes (p : Packet) : Nat := pktHeader p + 2 ^ 384 * (p.payload % 2 ^ (8 * p.plen))

/-- Flits of a packet (R303). -/
def pktFlits (p : Packet) : Nat := (48 + p.plen + 63) / 64

/-- Read a packet from its bytes. -/
def pktOfBytes (w : Nat) : Packet :=
  let r := getBytes w 0 4
  let c := getBytes w 4 4
  let t := getBytes w 8 4
  { dst := bits r 17 0, cls := bits r 20 18, half := r.testBit 21, esc := r.testBit 22, mcast := r.testBit 23,
    repoch := bits r 31 24, src := bits c 17 0, kind := bits c 21 18, hops := bits c 29 22, plen := bits t 11 0,
    last := t.testBit 12, prov := t.testBit 13, poison := t.testBit 14, rsig := t.testBit 15, tepoch := bits t 23 16,
    xfer := getBytes w 12 4, addr := getBytes w 16 8, count := getBytes w 24 4, rtally := getBytes w 28 2,
    ticket := getBytes w 32 8, payload := getBytes w 48 (bits t 11 0) }

/-- The gallery of a packet (R306). -/
def pktGal (p : Packet) : Nat := 2 * p.cls + p.half.toNat

/-- The classes that a kind allows (Table 11.4). -/
def kindAllows (kind cls : Nat) : Bool :=
  match kind with
  | 1 => cls ≤ 6
  | 2 | 3 | 4 => cls = 0
  | 5 => cls = 1 || cls = 4 || cls = 6
  | 6 => cls = 2 || cls = 5
  | 7 | 8 => cls = 7
  | _ => false

/-! ## Flow control (R308, R309) -/

/-- Every packet in the module: injected, in a receive buffer, on an output or partly sent, or waiting to be taken here. -/
def State.packets (s : State) : List QPkt :=
  s.inject ++ (s.adits.flatMap fun x => x.2.rx ++ x.2.queue ++ x.2.sending.toList) ++ s.arrived

/-- One packet of each buffer (R320): its copies share it. -/
def perBuffer (l : List QPkt) : List QPkt :=
  l.foldl (fun (r : List QPkt) q => if r.any fun y => y.buf = q.buf then r else r ++ [q]) []

/-- The packets that adit `a`'s receive buffer holds (R308, R320, R321): until the last copy of each has left or been taken.
(DEDUCED: notes/assumptions/51) -/
def State.inBuffer (s : State) (a : Nat) : List QPkt := perBuffer (s.packets.filter fun q => q.port = some a)

/-- Flits of a gallery, adaptive or escape, among buffered packets and the flits of a packet still arriving (R308). -/
def occupancy (l : List QPkt) (part : List Nat) (g : Nat) (esc : Bool) : Nat :=
  let mine := fun (p : Packet) => pktGal p = g && p.esc = esc
  ((l.filter fun q => mine q.pkt).map fun q => pktFlits q.pkt).foldl (· + ·)
    (if part.head?.any fun f => mine (pktOfBytes f) then part.length else 0)

/-- The OFF bits after a change of occupancy (R309): off at the high mark, on again at the low one. -/
def offBits (old : Nat) (high low : Nat → Bool) : Nat :=
  packElems 1 ((List.range 16).map fun g => (if high g then true else if low g then false else old.testBit g).toNat)

/-- Follow the occupancies of an adit's receive buffer (R309). (DESIGN CHOICE: notes/assumptions/49) -/
def State.flow (s : State) (a : Nat) : State :=
  let l := s.inBuffer a
  s.modAdit a fun x =>
    { x with
      adaptOff := offBits x.adaptOff
        (fun g => s.fld (Reg.bnlGalMark g) Fld.bnlGalMarkHigh * 16 ≤ occupancy l x.part g false)
        (fun g => occupancy l x.part g false ≤ s.fld (Reg.bnlGalMark g) Fld.bnlGalMarkLow * 16)
      escOff := offBits x.escOff (fun g => 32 ≤ occupancy l x.part g true) (fun g => occupancy l x.part g true < 32) }

/-- Follow the occupancies of the buffer that a packet came in by. -/
def State.flowOf (s : State) (port : Option Nat) : State :=
  match port with
  | some a => s.flow a
  | none => s

/-- Follow the occupancies of every receive buffer. -/
def State.flowAll (s : State) : State := s.adits.foldl (fun s x => s.flow x.1) s

/-- Does the peer's last trailer show a gallery as ON (R309). (DESIGN CHOICE: notes/assumptions/49) -/
def Adit.peerOnFor (x : Adit) (g : Nat) (esc : Bool) : Bool := x.peerOn.testBit (if esc then 16 + g else g)

/-! ## Link blocks (R299, R300, R306) -/

/-- CRC-32C of a byte string, one bit at a time (R299, Table 11.2). -/
def crcBit (c : Nat) : Nat := if c % 2 = 1 then (c / 2) ^^^ 0x82F63B78 else c / 2

/-- CRC-32C over the low `n` bytes of a number. -/
def crcBytes (c w : Nat) : Nat → Nat
  | 0 => c
  | n + 1 =>
    let x := c ^^^ (w % 256)
    crcBytes (crcBit (crcBit (crcBit (crcBit (crcBit (crcBit (crcBit (crcBit x)))))))) (w / 256) n

/-- The CRC-32C of `n` bytes. -/
def crc32c (w n : Nat) : Nat := crcBytes 0xFFFFFFFF w n ^^^ 0xFFFFFFFF

/-- A link block as bytes (Table 11.2), with the acknowledgement and flow states of the moment. -/
def LinkBlock.bytes (b : LinkBlock) (ack fc : Nat) : Nat :=
  let w := b.flits + 2 ^ 4096 * packFields
    [(2, b.seq), (2, ack % 4096 + b.nak.toNat * 2 ^ 15), (4, fc), (1, b.lctl), (1, b.larg), (1, b.sop), (1, b.idle)]
  w + 2 ^ (8 * 524) * crc32c w 524

/-- The bytes of a block on each of `n` logical lanes (R299): byte `b` travels on lane `b` mod `n`. -/
def onLanes (n w : Nat) : List Nat :=
  (List.range n).map fun l => packElems 8 ((List.range (528 / n)).map fun i => getBytes w (n * i + l) 1)

/-- The flits of a packet, lowest first. -/
def pktFlitList (p : Packet) : List Nat := (List.range (pktFlits p)).map fun i => getBytes (pktBytes p) (64 * i) 64

/-- The rank of a class at an adit's output (R306): G7, then G0, then G1-G6 in turn after the last one served. -/
def classRank (turn cls : Nat) : Nat :=
  if cls = 7 then 0 else if cls = 0 then 1 else 2 + (cls + 6 - turn % 6 - 1) % 6

/-- The next packet of an adit's queue (R306): by class, the high half before the low, the oldest first; its gallery ON. `hop`
gives a packet as it leaves. -/
def Adit.nextOut (x : Adit) (hop : QPkt → Packet) : Option QPkt :=
  (x.queue.filter fun q => x.peerOnFor (pktGal (hop q)) (hop q).esc).foldl (fun (b : Option QPkt) q =>
    let key := fun (q : QPkt) => 2 * classRank x.turn (hop q).cls + (!(hop q).half).toNat
    match b with
    | none => some q
    | some y => if key q < key y then some q else some y) none

/-- Fill the flits of a block from an adit's output: the adit, and for each flit whether it starts a packet, its
contents, and the packets that end. -/
def fillFlits (hop : QPkt → Packet) (x : Adit) : Nat → Adit × List (Bool × Option Nat) × Nat
  | 0 => (x, [], 0)
  | n + 1 =>
    match x.cur with
    | f :: l =>
      let r := fillFlits hop { x with cur := l, sending := if l = [] then none else x.sending } n
      (r.1, (false, some f) :: r.2.1, r.2.2 + (if l = [] then 1 else 0))
    | [] =>
      match x.nextOut hop with
      | none =>
        let r := fillFlits hop x n
        (r.1, (false, none) :: r.2.1, r.2.2)
      | some q =>
        match pktFlitList (hop q) with
        | [] => (x, [], 0)
        | f :: l =>
          let t := if q.pkt.cls = 0 ∨ q.pkt.cls = 7 then x.turn else q.pkt.cls
          let r := fillFlits hop
            { x with queue := x.queue.erase q, cur := l, turn := t, sending := if l = [] then none else some q } n
          (r.1, (true, some f) :: r.2.1, r.2.2 + (if l = [] then 1 else 0))

/-- Bits of a block's flit list. -/
def flitBits (l : List (Bool × Option Nat)) (f : Bool × Option Nat → Bool) : Nat :=
  packElems 1 (l.map fun x => (f x).toNat)

/-- The flow states that an adit sends (Table 11.2). -/
def Adit.fc (x : Adit) : Nat := (2 ^ 16 - 1 - x.adaptOff) + 2 ^ 16 * (2 ^ 16 - 1 - x.escOff)

/-- A block with what the adit has to say in its trailer (R299, R300): a NAK still waiting for its retransmission, and LCTL. -/
def LinkBlock.trailed (b : LinkBlock) (x : Adit) : LinkBlock :=
  { b with
    nak := x.nak || (b.nak && x.dropping), lctl := if x.lctl = 0 then b.lctl else x.lctl
    larg := if x.lctl = 0 then b.larg else x.larg }

/-- An adit stops while the spare lane of its group trains (R302). -/
def State.toSpare (s : State) (a : Nat) : State :=
  if s.flag (Reg.bnlPortStat a) Fld.bnlPortStatSpare then s
  else (s.setPort a 1 0).setFld (Reg.bnlPortStat a) Fld.bnlPortStatSpare 1

/-- A block leaves on the adit's lanes (R299, R302): what its trailer says has been said, and one that acknowledges a spare
request is the last before the spare lane trains. -/
def State.putBlock (s : State) (a : Nat) (b : LinkBlock) : State :=
  let x := s.adit a
  let n := if s.fld (Reg.bnlPortStat a) Fld.bnlPortStatState = 3 then 3 else 4
  let s := (s.emit (.block a (onLanes n (b.bytes x.rxSeq x.fc)))).modAdit a fun y =>
    { y with nak := false, lctl := 0, larg := 0 }
  if b.lctl = 2 then s.toSpare a else s

/-- A packet after a hop through an adit (R307, R312): HALF back to 0 in a new dimension, 1 across the datum, and HOPS. -/
def State.afterHop (s : State) (q : QPkt) (a : Nat) : Packet :=
  let d := aditDim a
  let c := coord s.node d
  let same := q.port.any fun p => aditDim p = d
  let cross := if aditDir a = 0 then c + 1 = s.ring d else c = 0
  { q.pkt with half := (same && q.pkt.half) || decide cross, hops := q.pkt.hops + 1 }

/-- A new block of eight flits (R299, R306): the packets it takes the last flit of have left their buffers. -/
def State.sendNew (s : State) (a : Nat) : State :=
  let x := s.adit a
  let r := fillFlits (fun q => s.afterHop q a) x 8
  let new : LinkBlock :=
    { seq := x.txSeq, nak := false, lctl := 0, larg := 0, sop := flitBits r.2.1 fun f => f.1, resent := false
      idle := flitBits r.2.1 fun f => f.2.isNone, flits := packElems 512 (r.2.1.map fun f => f.2.getD 0), ends := r.2.2 }
  let b := new.trailed x
  let y := { r.1 with txSeq := (x.txSeq + 1) % 4096, replay := x.replay ++ [b] }
  let s := (s.modAdit a fun _ => y).flowAll
  (s.bumpN (Reg.bnlTxFlitCnt a) (r.2.1.filter fun f => f.2.isSome).length).putBlock a b

/-- Block `i` of the replay buffer goes again, with the trailer of the moment (R300). -/
def State.sendAgain (s : State) (a i : Nat) : State :=
  let x := s.adit a
  match x.replay[i]? with
  | none => s
  | some old =>
    let b := { old.trailed x with resent := true }
    ((s.bump (Reg.bnlRetryCnt a)).modAdit a fun y => { y with replay := y.replay.set i b }).putBlock a b

/-- LINK_BLOCK_SEND (R299, R300, R306): an adit in service sends its next block: one to be sent again, a new one of eight flits,
or, with the replay buffer full, its last one with a new trailer. (DEDUCED: notes/assumptions/50) -/
def execLinkBlockSend (adit : Nat) (s : State) : Host.Outcome State Fault Refusal :=
  if !s.up 6 then .next s else
  let x := s.adit adit
  if !s.aditUp adit then .next s
  else
    match x.resend with
    | some i =>
      let s := s.modAdit adit fun y => { y with resend := if i + 1 < y.replay.length then some (i + 1) else none }
      .next (s.sendAgain adit i)
    | none => .next (if 512 ≤ x.replay.length then s.sendAgain adit (x.replay.length - 1) else s.sendNew adit)

/-- Drop acknowledged blocks from a replay buffer (R300). -/
def dropAcked (ack : Nat) (l : List LinkBlock) : List LinkBlock :=
  if l.any fun b => b.seq = ack then (l.dropWhile fun b => b.seq ≠ ack).drop 1 else l

/-- The oldest block that has not been acknowledged, or the next to be sent. -/
def Adit.oldest (x : Adit) : Nat := (x.replay.head?.map fun b => b.seq).getD x.txSeq

/-- Failed resends of the oldest block once a NAK names it (R300): one more, when it has been resent since the last one. -/
def Adit.failed (x : Adit) : Nat :=
  let again := if x.nakSeq = x.oldest then x.fails else 0
  if x.replay.head?.any fun b => b.resent then again + 1 else again

/-- An adit takes the trailer of a good block (R300, R302, R309): acknowledgement, NAK, flow states, LCTL. -/
def Adit.takeTrailer (x : Adit) (w : Nat) : Adit :=
  let a := getBytes w 514 2
  let replay := dropAcked (a % 4096) x.replay
  let done := x.replay.length - replay.length
  let x := { x with
    replay, peerOn := getBytes w 516 4, peerRetrain := x.peerRetrain || decide (getBytes w 520 1 = 3)
    resend := x.resend.bind fun i => if i - done < replay.length then some (i - done) else none }
  if a.testBit 15 then
    let fails := x.failed
    { x with
      fails, nakSeq := x.oldest, lctl := if 8 ≤ fails then 3 else x.lctl, resend := if replay = [] then none else some 0
      replay := replay.map fun b => { b with resent := false } }
  else { x with fails := if replay.any fun b => b.seq = x.nakSeq then x.fails else 0 }

/-- An adit that has lost a lane for good runs on its three others (R302). -/
def State.threeLanes (s : State) (a lane : Nat) : State :=
  if s.fld (Reg.bnlPortStat a) Fld.bnlPortStatLaneOk ≠ 15 then s
  else (s.setPort a 3 0).setFld (Reg.bnlPortStat a) Fld.bnlPortStatLaneOk (15 - 2 ^ lane)

/-- Is the spare of an adit's group there for it (R302): free, its own, or asked for by a higher-numbered adit that does not use
it yet. -/
def State.spareFor (s : State) (a : Nat) : Bool :=
  let h := Store.get 0 s.spareLanes (a / 3)
  h = 0 || h = a + 1 || (decide (a + 1 < h) && !s.flag (Reg.bnlPortStat (h - 1)) Fld.bnlPortStatSpare)

/-- What a peer's LCTL asks for (R302): its spare request is acknowledged where the group's spare is to be had, and otherwise
leaves three lanes; its acknowledgement starts the training of the spare lane. (DEDUCED: notes/assumptions/50) -/
def State.takeLctl (s : State) (a lctl larg : Nat) : State :=
  if lctl = 1 ∧ larg < 4 then
    if s.spareFor a then
      let h := Store.get 0 s.spareLanes (a / 3)
      let s := if h = 0 ∨ h = a + 1 then s
        else (s.modAdit (h - 1) fun x => { x with lctl := 0, larg := 0 }).setPort (h - 1) 3 0
      { s with spareLanes := Store.set 0 s.spareLanes (a / 3) (a + 1) }.modAdit a fun x => { x with lctl := 2, larg }
    else s.threeLanes a larg
  else if lctl = 2 ∧ Store.get 0 s.spareLanes (a / 3) = a + 1 then s.toSpare a
  else s

/-- Reassemble packets from flits (R303): the flits of the packet still arriving, and the packets completed. -/
def takeFlits (part : List Nat) : List (Bool × Nat) → List Nat × List Packet
  | [] => (part, [])
  | (sop, f) :: l =>
    let part := if sop then [f] else part ++ [f]
    let p := pktOfBytes (packElems 512 part)
    if pktFlits p ≤ part.length then
      let r := takeFlits [] l
      (r.1, p :: r.2)
    else takeFlits part l

/-- The packets that a good block in sequence brings enter the receive buffer (R300, R303, R308). -/
def State.takeBlockFlits (s : State) (a : Nat) (fl : List (Bool × Nat)) : State :=
  let r := takeFlits (s.adit a).part fl
  let old := (s.fld Reg.bnlRouteStat Fld.bnlRouteStatCurrent + 255) % 256
  let s := s.modAdit a fun y =>
    { y with
      part := r.1
      rx := y.rx ++ r.2.mapIdx fun i p =>
        ({ pkt := p, buf := s.fresh + 1 + i, port := some a, since := none, held := false, way := none, seen := false } : QPkt) }
  let s := ({ s with fresh := s.fresh + r.2.length }.bumpN (Reg.bnlRxFlitCnt a) fl.length).flow a
  if s.flagWas Reg.bnlRouteStat Fld.bnlRouteStatDrain && r.2.any fun p => p.repoch = old then
    s.setFld Reg.bnlRouteStat Fld.bnlRouteStatDrain 1
  else s

/-- LINK_BLOCK_RECEIVE (R299, R300, R309, R317): a bad block, and every one after it up to its retransmission, is discarded, with
a NAK for each bad one and for a block that shows one missing; a good block in sequence is acknowledged and its packets enter the
receive buffer; of one received before only the trailer is taken. (DEDUCED: notes/assumptions/50) -/
def execLinkBlockReceive (adit block corrected : Nat) (fecOk : Bool) (s : State) : Host.Outcome State Fault Refusal :=
  if !s.up 6 then .next s else
  if !s.aditUp adit then .next s
  else
    let s := (s.bumpN (Reg.bnlFecCorrCnt adit) corrected).bumpIf (!fecOk) (Reg.bnlFecUncCnt adit)
    let x := s.adit adit
    let ahead := (getBytes block 512 2 % 4096 + 4096 - x.rxSeq) % 4096
    let bad := !fecOk || decide (getBytes block 524 4 ≠ crc32c (block % 2 ^ (8 * 524)) 524)
    if bad || (!x.dropping && decide (1 < ahead ∧ ahead < 2048)) then
      .next (s.modAdit adit fun y => { y with nak := true, dropping := true })
    else if ahead = 1 then
      let fl := ((List.range 8).filter fun i => !(getBytes block 523 1).testBit i).map fun i =>
        ((getBytes block 522 1).testBit i, getBytes block (64 * i) 64)
      let s := s.modAdit adit fun y =>
        { y.takeTrailer block with rxSeq := (x.rxSeq + 1) % 4096, dropping := false, nak := false }
      .next ((s.takeBlockFlits adit fl).takeLctl adit (getBytes block 520 1) (getBytes block 521 1))
    else if ahead = 0 && !x.dropping then
      .next ((s.modAdit adit fun y => y.takeTrailer block).takeLctl adit (getBytes block 520 1) (getBytes block 521 1))
    else .next s

/-! ## Training, retraining and lanes (R297, R300-R302, R310) -/

/-- Packets that end in, or are still entering, an adit's unacknowledged blocks (R301). -/
def Adit.inFlight (x : Adit) : Nat :=
  (x.replay.map fun b => b.ends).foldl (· + ·) 0 + (if x.cur = [] then 0 else 1)

/-- The queue a packet waits in: an adit's receive buffer, or the injection queue. -/
def State.queueAt (s : State) (port : Option Nat) : List QPkt :=
  match port with
  | some a => (s.adit a).rx
  | none => s.inject

/-- Replace a queue whose packets stay in the module. -/
def State.putQueue (s : State) (port : Option Nat) (l : List QPkt) : State :=
  match port with
  | some a => s.modAdit a fun x => { x with rx := l }
  | none => { s with inject := l }

/-- Replace a queue, with the flow states that follow from it. -/
def State.setQueue (s : State) (port : Option Nat) (l : List QPkt) : State := (s.putQueue port l).flowOf port

/-- A packet that an output has not started goes back to the head of the queue it came from. -/
def State.giveBack (s : State) (q : QPkt) : State := s.putQueue q.port ({ q with since := none } :: s.queueAt q.port)

/-- An adit goes down (R301, R302): the packets of its unacknowledged blocks are lost; those it has not started go back
to the router. (DEDUCED: notes/assumptions/50) -/
def State.aditDown (s : State) (a cause : Nat) : State :=
  let x := s.adit a
  let lost := x.inFlight
  let s := s.setPort a 4 cause
  let s := (s.bumpN Reg.bnlLostCnt lost).raiseIf (decide (lost ≠ 0) && s.flag Reg.bnlCtrl Fld.bnlCtrlLostEvent) 6
  let s := s.modAdit a fun y =>
    { y with queue := [], sending := none, cur := [], replay := [], resend := none, fails := 0, peerOn := 0, part := [] }
  (x.queue.foldr (fun q s => s.giveBack q) s).flowAll

/-- The node that an adit's cable must lead to (R296, R297). -/
def State.expectedPeer (s : State) (a : Nat) : Nat :=
  let d := aditDim a
  withCoord s.node d (neighbour (s.ring d) (coord s.node d) (aditDir a))

/-- ADIT_TRAIN (R297, R302, R310): an adit of a used dimension ends its training with what it learned of its peer, its
round trip and its working lanes; the spare lane that it was given stays its own. -/
def execAditTrain (adit peerNode peerAdit rtt lanes : Nat) (s : State) : Host.Outcome State Fault Refusal :=
  if !s.up 6 then .next s else
  if s.fld (Reg.bnlPortStat adit) Fld.bnlPortStatState ≠ 1 ∨ s.ring (aditDim adit) = 1 then .next s
  else
    let spare := decide (Store.get 0 s.spareLanes (adit / 3) = adit + 1)
    let s := ((s.setFld (Reg.bnlPortStat adit) Fld.bnlPortStatRtt rtt).setFld (Reg.bnlPortStat adit)
      Fld.bnlPortStatLaneOk lanes).setFld (Reg.bnlPortStat adit) Fld.bnlPortStatSpare spare.toNat
    let good := ((List.range 4).filter fun i => lanes.testBit i).length
    if peerNode ≠ s.expectedPeer adit ∨ peerAdit ≠ aditOf (aditDim adit) (1 - aditDir adit) (adit % 3) then
      .next (s.setPort adit 4 5)
    else if s.fld Reg.bnlHeadroom Fld.bnlHeadroomKib * 1024 < rtt * 100 then .next (s.setPort adit 4 3)
    else if good = 0 then .next (s.setPort adit 4 1)
    else if good < 3 then .next (s.setPort adit 4 4)
    else if good = 3 then .next ((s.setPort adit 3 0).modAdit adit fun x => { x with lanePending := !spare })
    else .next (s.setPort adit 2 0)

/-- ADIT_RETRAIN (R300): a block has failed in 8 consecutive resends, or the peer asks; the first attempt begins. -/
def execAditRetrain (adit : Nat) (s : State) : Host.Outcome State Fault Refusal :=
  let x := s.adit adit
  if s.aditUp adit && (decide (8 ≤ x.fails) || x.peerRetrain) then
    .next ((s.setPort adit 1 0).bump (Reg.bnlRetrainCnt adit) |>.modAdit adit fun y =>
      { y with attempts := 1, peerRetrain := false })
  else .next s

/-- RETRAIN_ATTEMPT_END (R300, R301): a good attempt resumes the replay from the acknowledged point; after three failed
ones the adit goes down with cause RETRY. -/
def execRetrainAttemptEnd (adit : Nat) (ok : Bool) (s : State) : Host.Outcome State Fault Refusal :=
  let x := s.adit adit
  if s.fld (Reg.bnlPortStat adit) Fld.bnlPortStatState ≠ 1 ∨ x.attempts = 0 then .next s
  else if ok then
    let lanes := s.fld (Reg.bnlPortStat adit) Fld.bnlPortStatLaneOk
    .next ((s.setPort adit (if lanes = 15 then 2 else 3) 0).modAdit adit fun y =>
      { y with attempts := 0, fails := 0, nakSeq := y.oldest, resend := if y.replay = [] then none else some 0 })
  else if x.attempts < 3 then
    .next ((s.bump (Reg.bnlRetrainCnt adit)).modAdit adit fun y => { y with attempts := y.attempts + 1 })
  else .next ((s.modAdit adit fun y => { y with attempts := 0 }).aditDown adit 2)

/-- LANE_FAIL (R302): a lane has failed; a second one takes the adit down. -/
def execLaneFail (adit lane : Nat) (s : State) : Host.Outcome State Fault Refusal :=
  if !s.up 6 then .next s else
  let ok := s.fld (Reg.bnlPortStat adit) Fld.bnlPortStatLaneOk
  if !s.aditUp adit || !ok.testBit lane || 3 < lane then .next s
  else
    let s := s.setFld (Reg.bnlPortStat adit) Fld.bnlPortStatLaneOk (ok - 2 ^ lane)
    if ok = 15 then
      .next (s.modAdit adit fun x => { x with lanePending := true })
    else .next (s.aditDown adit 4)

/-- At a frame boundary the lowest-numbered adit of a group with a failed lane asks its peer for the group's spare, naming the
lane; another runs on three lanes (R302). -/
def State.spareSwitch (s : State) : State :=
  (List.range 24).foldl (fun s a =>
    if !(s.adit a).lanePending || !s.aditUp a then s
    else
      let s := s.modAdit a fun y => { y with lanePending := false }
      if Store.get 0 s.spareLanes (a / 3) ≠ 0 then s.setPort a 3 0
      else
        let lane := ((List.range 4).find? fun i => !(s.fld (Reg.bnlPortStat a) Fld.bnlPortStatLaneOk).testBit i).getD 0
        { s with spareLanes := Store.set 0 s.spareLanes (a / 3) (a + 1) }.modAdit a fun y => { y with lctl := 1, larg := lane }) s

/-- LANE_SPARE_TRAINED (R302): the spare lane has trained; the adit runs on four lanes again, or on three. -/
def execLaneSpareTrained (adit : Nat) (ok : Bool) (s : State) : Host.Outcome State Fault Refusal :=
  let x := s.adit adit
  if s.fld (Reg.bnlPortStat adit) Fld.bnlPortStatState ≠ 1 ∨ x.attempts ≠ 0 ∨
      !s.flag (Reg.bnlPortStat adit) Fld.bnlPortStatSpare then .next s
  else if ok then
    .next ((s.setFld (Reg.bnlPortStat adit) Fld.bnlPortStatLaneOk 15).setPort adit 2 0)
  else .next (s.setPort adit 3 0)

/-! ## Routing tables (R310, R314, R316) -/

/-- Is a bank free, so that its entries may be written (R316). -/
def State.bankFree (s : State) (bank : Nat) : Bool :=
  s.fld Reg.bnlRouteStat Fld.bnlRouteStatBank ≠ bank && !s.flag Reg.bnlRouteStat Fld.bnlRouteStatArmed &&
    !s.flag Reg.bnlRouteStat Fld.bnlRouteStatDrain

/-- The bank of a routing entry's offset (Table 11.8), if it is one. -/
def entryBank (off : Nat) : Option Nat :=
  if Reg.bnlDimEnt 0 ≤ off ∧ off < Reg.bnlDimEnt 256 then some ((off - Reg.bnlDimEnt 0) / 4 / 128)
  else if Reg.bnlDetourLo 0 ≤ off ∧ off < Reg.bnlDetourLo 512 then some ((off - Reg.bnlDetourLo 0) / 8 / 256)
  else none

/-- ROUTE_ENTRY_WRITE (R316): writes to the entries of a bank that is not free are discarded. -/
def execRouteEntryWrite (off val : Nat) (s : State) : Host.Outcome State Fault Refusal :=
  if !s.up 6 then .next s else
  let s := s.noteReserved off val
  match entryBank off with
  | some b => .next (if s.bankFree b then s.storeFields off val else s)
  | none => .next s

/-- ROUTE_ARM (R316): arms the free bank; discarded while the other bank is armed or draining. -/
def execRouteArm (s : State) : Host.Outcome State Fault Refusal :=
  if !s.up 6 then .next s else
  if s.flag Reg.bnlRouteStat Fld.bnlRouteStatArmed || s.flag Reg.bnlRouteStat Fld.bnlRouteStatDrain then .next s
  else .next (s.setFld Reg.bnlRouteStat Fld.bnlRouteStatArmed 1)

/-- Sum of the high marks in KiB, with one replaced (R309). -/
def State.marksWith (s : State) (g high : Nat) : Nat :=
  ((List.range 16).map fun i => if i = g then high else s.fld (Reg.bnlGalMark i) Fld.bnlGalMarkHigh).foldl (· + ·) 0

/-- GAL_MARK_WRITE (R310). -/
def execGalMarkWrite (gal val : Nat) (s : State) : Host.Outcome State Fault Refusal :=
  if !s.up 6 then .next s else
  let s := s.noteReserved (Reg.bnlGalMark gal) val
  let high := bits val 15 8
  let low := bits val 7 0
  if 384 < s.marksWith gal high + 96 + s.fld Reg.bnlHeadroom Fld.bnlHeadroomKib ∨ high ≤ low then .next s
  else .next (s.setReg (Reg.bnlGalMark gal) (high * 256 + low))

/-- HEADROOM_WRITE (R310). -/
def execHeadroomWrite (val : Nat) (s : State) : Host.Outcome State Fault Refusal :=
  if !s.up 6 then .next s else
  let s := s.noteReserved Reg.bnlHeadroom val
  if 384 < s.marksWith 16 0 + 96 + bits val 8 0 then .next s
  else .next (s.setReg Reg.bnlHeadroom (bits val 8 0))

/-- Packets in the module's receive buffers and injection queues that carry an epoch, one still arriving among them (R317).
(DEDUCED: notes/assumptions/51) -/
def State.epochPackets (s : State) (e : Nat) : Nat :=
  ((perBuffer s.packets).filter fun q => q.pkt.repoch = e).length +
    (s.adits.filter fun x => x.2.part.head?.any fun f => (pktOfBytes f).repoch = e).length

/-- ROUTE_BANK_DRAIN_END (R317): the old bank is free once no packet in the module carries the old epoch. -/
def execRouteBankDrainEnd (s : State) : Host.Outcome State Fault Refusal :=
  let old := (s.fld Reg.bnlRouteStat Fld.bnlRouteStatCurrent + 255) % 256
  if s.flag Reg.bnlRouteStat Fld.bnlRouteStatDrain && s.epochPackets old = 0 then
    .next ((s.keepWas Reg.bnlRouteStat).setFld Reg.bnlRouteStat Fld.bnlRouteStatDrain 0)
  else .next s

/-- Give the packets held under R315 the new epoch (R317). -/
def restampHeld (e : Nat) (l : List QPkt) : List QPkt :=
  l.map fun q => if q.held then { q with pkt := { q.pkt with repoch := e }, held := false } else q

/-- The armed bank comes into force at a frame boundary (R317). -/
def State.routeSwap (s : State) : State :=
  if !s.flag Reg.bnlRouteStat Fld.bnlRouteStatArmed then s
  else
    let e := (s.fld Reg.bnlRouteStat Fld.bnlRouteStatCurrent + 1) % 256
    let b := 1 - s.fld Reg.bnlRouteStat Fld.bnlRouteStatBank
    let s := s.setReg Reg.bnlRouteStat (e * 256 + 4 + b)
    { s with inject := restampHeld e s.inject
             adits := s.adits.map fun x => (x.1, { x.2 with rx := restampHeld e x.2.rx }) }

/-! ## Routing (R307, R311-R315, R318) -/

/-- The bank that routes a packet, or none when its epoch is unknown (R318). -/
def State.bankFor (s : State) (repoch : Nat) : Option Nat :=
  let cur := s.fld Reg.bnlRouteStat Fld.bnlRouteStatCurrent
  let b := s.fld Reg.bnlRouteStat Fld.bnlRouteStatBank
  if repoch = cur then some b
  else if repoch = (cur + 1) % 256 && s.flag Reg.bnlRouteStat Fld.bnlRouteStatArmed then some (1 - b)
  else if repoch = (cur + 255) % 256 && s.flag Reg.bnlRouteStat Fld.bnlRouteStatDrain then some (1 - b)
  else none

/-- The valid detour entry of a bank for a destination: its low and high words (R314). -/
def State.detour (s : State) (bank dst : Nat) : Option (Nat × Nat) :=
  ((List.range 256).find? fun i =>
    let w := s.reg (Reg.bnlDetourLo (256 * bank + i))
    w.testBit 18 && bits w 17 0 = dst).map fun i =>
      (s.reg (Reg.bnlDetourLo (256 * bank + i)), s.reg (Reg.bnlDetourHi (256 * bank + i)))

/-- The offset of a destination in a dimension (R311). -/
def State.offsetTo (s : State) (dst d : Nat) : Nat :=
  (coord dst d + s.ring d - coord s.node d % s.ring d) % s.ring d

/-- The minimal directions of an offset in a ring of `n` (R311). -/
def minimalDirs (n o : Nat) : List Nat :=
  if o = 0 then [] else if 2 * o < n then [0] else if n < 2 * o then [1] else [0, 1]

/-- The entry of a dimension table (Table 11.6). -/
def State.dimEntry (s : State) (bank d c : Nat) : Nat := s.reg (Reg.bnlDimEnt (128 * bank + 32 * d + c))

/-- Adits that a packet may take adaptively, whatever the state of their receivers (R312, R314). -/
def State.allowedAdits (s : State) (bank dst : Nat) : List Nat :=
  match s.detour bank dst with
  | some (lo, hi) =>
    let mask := bits lo 31 24 + bits hi 15 0 * 256
    (List.range 24).filter fun a => mask.testBit a && s.aditUp a
  | none =>
    (List.range 24).filter fun a =>
      let d := aditDim a
      let e := s.dimEntry bank d (coord dst d)
      (minimalDirs (s.ring d) (s.offsetTo dst d)).contains (aditDir a) &&
        e.testBit (3 * aditDir a + a % 3) && s.aditUp a

/-- Flits queued at an adit's output (R312). -/
def Adit.load (x : Adit) : Nat :=
  (x.queue.map fun q => pktFlits q.pkt).foldl (· + ·) x.cur.length

/-- The adaptive candidate with the fewest queued flits, the lower-numbered on a tie (R312). -/
def State.adaptive (s : State) (q : QPkt) (l : List Nat) : Option Nat :=
  (l.filter fun a => (s.adit a).peerOnFor (pktGal (s.afterHop q a)) false).foldl (fun (b : Option Nat) a =>
    match b with
    | none => some a
    | some c => if (s.adit a).load < (s.adit c).load then some a else some c) none

/-- The first up adit of a direction: the preferred one, else the lowest-numbered one that a mask allows (R313, R314). -/
def State.escapeAdit (s : State) (d dir j mask : Nat) : Option Nat :=
  let j := if j = 3 then 0 else j
  if s.aditUp (aditOf d dir j) then some (aditOf d dir j)
  else ((List.range 3).find? fun i => mask.testBit i && s.aditUp (aditOf d dir i)).map fun i => aditOf d dir i

/-- The escape output of a packet (R313, R314): its detour's, or in dimension order the direction and adit of its entry;
a multicast copy's direction is its own. -/
def State.escape (s : State) (bank : Nat) (q : QPkt) : Option Nat :=
  match q.way with
  | some (d, dir) =>
    let e := s.dimEntry bank d (neighbour (s.ring d) (coord s.node d) dir)
    s.escapeAdit d dir (bits e 10 9) (if dir = 0 then bits e 2 0 else bits e 5 3)
  | none =>
    match s.detour bank q.pkt.dst with
    | some (lo, _) =>
      let a := bits lo 23 19
      s.escapeAdit (aditDim a) (aditDir a) (a % 3) 7
    | none =>
      match (List.range 4).find? fun d => s.offsetTo q.pkt.dst d ≠ 0 with
      | none => none
      | some d =>
        let e := s.dimEntry bank d (coord q.pkt.dst d)
        let dir := bits e 8 8
        s.escapeAdit d dir (bits e 10 9) (if dir = 0 then bits e 2 0 else bits e 5 3)

/-- Replace the first occurrence of a packet in a queue by others. -/
def replaceFirst (q : QPkt) (r : List QPkt) : List QPkt → List QPkt
  | [] => []
  | x :: l => if x = q then r ++ l else x :: replaceFirst q r l

/-- Put a packet on an output, where it keeps its buffer until it has left, or discard it at 64 hops (R308, R312). -/
def State.sendOut (s : State) (port : Option Nat) (q : QPkt) (a : Nat) : State :=
  let l := replaceFirst q [] (s.queueAt port)
  if 64 ≤ (s.afterHop q a).hops then (s.setQueue port l).bump Reg.bnlHoplimCnt
  else (s.putQueue port l).modAdit a fun x => { x with queue := x.queue ++ [q] }

/-- Hold a packet that has no output at all, until the routing changes (R315). -/
def State.holdPacket (s : State) (port : Option Nat) (q : QPkt) : State :=
  let s := s.putQueue port (replaceFirst q [{ q with held := true }] (s.queueAt port))
  let s := s.bump Reg.bnlNorouteCnt
  if s.flag Reg.bnlCtrl Fld.bnlCtrlRouteEvent && s.heldFrame ≠ s.frame + 1 then
    { s with heldFrame := s.frame + 1 }.raise 6
  else s

/-- Route a packet by a bank (R312-R315): adaptively, or by the escape path; a packet without an output waits or is
held. -/
def State.routeBy (s : State) (port : Option Nat) (q : QPkt) (bank : Nat) : State :=
  if q.held then s
  else if q.pkt.esc then
    match s.escape bank q with
    | none => s.holdPacket port q
    | some a => if (s.adit a).peerOnFor (pktGal (s.afterHop q a)) true then s.sendOut port q a else s
  else
    let l := s.allowedAdits bank q.pkt.dst
    match s.adaptive q l with
    | some a => s.sendOut port q a
    | none =>
      if l = [] && (s.escape bank q).isNone then s.holdPacket port q
      else if q.since.isSome then s
      else s.putQueue port (replaceFirst q [{ q with since := some s.cycle }] (s.queueAt port))

/-! ## Multicast (R319, R320) -/

/-- A box range in a dimension, from LO going plus to HI (R319): is a coordinate within it. -/
def State.inBox (s : State) (m d c : Nat) : Bool :=
  let lo := coord (s.reg (Reg.bnlBoxLo m)) d
  let hi := coord (s.reg (Reg.bnlBoxHi m)) d
  let n := s.ring d
  (c + n - lo % n) % n ≤ (hi + n - lo % n) % n

/-- The mask of a box in a dimension. -/
def State.boxMask (s : State) (m d : Nat) : Nat :=
  match d with
  | 0 => s.reg (Reg.bnlBoxWmask m)
  | 1 => s.reg (Reg.bnlBoxXmask m)
  | 2 => s.reg (Reg.bnlBoxYmask m)
  | _ => s.reg (Reg.bnlBoxZmask m)

/-- The copies that a traversal of dimension `d` starts here, and whether this module takes delivery (R320); `fuel`
counts the dimensions left. -/
def State.traverse (s : State) (m d : Nat) : Nat → List (Nat × Nat) × Bool
  | 0 => ([], true)
  | fuel + 1 =>
    let c := coord s.node d
    let plus := if c = coord (s.reg (Reg.bnlBoxHi m)) d then [] else [(d, 0)]
    let minus := if c = coord (s.reg (Reg.bnlBoxLo m)) d then [] else [(d, 1)]
    let r := if (s.boxMask m d).testBit c then State.traverse s m (d + 1) fuel else ([], false)
    (plus ++ minus ++ r.1, r.2)

/-- The copies that a multicast packet arriving through adit `a` leads to here (R320): onward along its traversal up to
the end of its range, and into the next dimension where the mask holds this coordinate. -/
def State.onward (s : State) (m a : Nat) : List (Nat × Nat) × Bool :=
  let d := aditDim a
  let dir := 1 - aditDir a
  let c := coord s.node d
  let stop := coord (s.reg (if dir = 0 then Reg.bnlBoxHi m else Reg.bnlBoxLo m)) d
  let go := if c = stop then [] else [(d, dir)]
  let r := if (s.boxMask m d).testBit c then s.traverse m (d + 1) (3 - d) else ([], false)
  (go ++ r.1, r.2)

/-- A packet has reached this module: it keeps its place in its gallery until it is taken (R321).
(DESIGN CHOICE: notes/assumptions/52) -/
def State.deliver (s : State) (q : QPkt) : State := { s with arrived := s.arrived ++ [q] }

/-- Replicate a multicast packet (R319, R320): its copies take its place in the queue, each with its own direction; the
source takes delivery only when the box says SELF. -/
def State.replicate (s : State) (port : Option Nat) (q : QPkt) : State :=
  let m := bits q.pkt.dst 5 0
  let r := match q.port with
    | some a => s.onward m a
    | none => s.traverse m 0 4
  let outside := q.port.isNone && (List.range 4).any fun d => !s.inBox m d (coord s.node d)
  if outside then (s.setQueue port (replaceFirst q [] (s.queueAt port))).bump Reg.bnlNorouteCnt
  else
    let copies := r.1.map fun w => ({ q with way := some w } : QPkt)
    let own := q.port.isSome || s.flag (Reg.bnlBoxLo m) Fld.bnlBoxLoSelf
    let s := if r.2 && own then s.deliver q else s
    s.setQueue port (replaceFirst q copies (s.queueAt port))

/-! ## The router (R304, R312) -/

/-- The head of a gallery queue. -/
def State.headPacket (s : State) (port : Option Nat) (gal : Nat) (esc : Bool) : Option QPkt :=
  (s.queueAt port).find? fun q => pktGal q.pkt = gal && q.pkt.esc = esc

/-- Has a packet reached its node (R311). (DEDUCED: notes/assumptions/53) -/
def State.atNode (s : State) (dst : Nat) : Bool := (List.range 4).all fun d => s.offsetTo dst d = 0

/-- A packet of an unknown route epoch, with its copies, takes the present one and the escape path (R318). -/
def State.restamp (s : State) (port : Option Nat) (q : QPkt) : State :=
  let cur := s.fld Reg.bnlRouteStat Fld.bnlRouteStatCurrent
  let l := (s.queueAt port).map fun y =>
    if y.buf = q.buf then { y with pkt := { y.pkt with repoch := cur, esc := true } } else y
  (s.setQueue port l).bump Reg.bnlRestampCnt

/-- Route a packet, each of its copies on its own, by the bank of its epoch (R312-R315, R318, R320). -/
def State.routeCopies (s : State) (port : Option Nat) (q : QPkt) : State :=
  let b := s.bankFor q.pkt.repoch
  let s := if b.isSome then s else s.restamp port q
  ((s.queueAt port).filter fun y => y.buf = q.buf).foldl (fun s y =>
    s.routeBy port y (b.getD (s.fld Reg.bnlRouteStat Fld.bnlRouteStatBank))) s

/-- Does a packet that has reached this module wait in its gallery, ahead of another (R321; 12 R336; 13 R364; 15 R410). -/
def State.blocked (s : State) (port : Option Nat) (q : QPkt) : Bool :=
  s.arrived.any fun y =>
    y.port = port && decide (pktGal y.pkt = pktGal q.pkt) && y.pkt.esc = q.pkt.esc && y.buf ≠ q.buf &&
      s.waits.any fun x => x.1 = .packet y.pkt && x.2.inGallery

/-- PACKET_ROUTE (R304, R307, R311-R315, R318-R321): the packet at the head of a gallery queue is discarded, delivered,
replicated, put on an output, or waits. -/
def execPacketRoute (port : Option Nat) (gal : Nat) (esc : Bool) (s : State) : Host.Outcome State Fault Refusal :=
  match s.headPacket port gal esc with
  | none => .next s
  | some q =>
    let rest := replaceFirst q [] (s.queueAt port)
    if s.blocked port q then .next s
    else if !kindAllows q.pkt.kind q.pkt.cls then .next ((s.setQueue port rest).bump Reg.bnlNorouteCnt)
    else if q.pkt.mcast && q.way.isNone then .next (s.replicate port q)
    else if !q.pkt.mcast && s.atNode q.pkt.dst then .next ((s.putQueue port rest).deliver q)
    else .next (s.routeCopies port q)

/-- ESC_WAIT_EXPIRY (R313): a packet at the head of its gallery queue has found no adaptive candidate for BNL_ESC_WAIT
cycles. -/
def execEscWaitExpiry (port : Option Nat) (gal : Nat) (s : State) : Host.Outcome State Fault Refusal :=
  match s.headPacket port gal false with
  | none => .next s
  | some q =>
    match q.since with
    | none => .next s
    | some t =>
      if s.cycle - t < max 1 (s.fld Reg.bnlEscWait Fld.bnlEscWaitCycles) then .next s
      else .next (s.setQueue port (replaceFirst q [{ q with pkt := { q.pkt with esc := true } }] (s.queueAt port)))

end Sys2Proof.Machine
end

