-- ==== Sys2Proof/Machine/Hoist.lean ====
section
/-!
DEFINITION. The hoist (12): ore, bucket entries, the stages of a bucket, ring steps as counted transfers, breach and
reshift, the muster, delivery and the gathering of shards.
-/
namespace Sys2Proof.Machine

/-! ## Bucket entries (R333, R334) -/

/-- `n` bytes of a bucket's entry from byte `lo` (Table 12.3). -/
def Bucket.get (b : Bucket) (lo n : Nat) : Nat := getBytes b.entry lo n

/-- Does an entry select a dimension. -/
def entryDims (e : Nat) : List Nat := (List.range 4).filter fun d => (getBytes e 28 1).testBit d

/-- The selected dimensions in the order W, X, Y, Z. -/
def Bucket.dims (b : Bucket) : List Nat := entryDims b.entry
/-- The reduction kind (05 Table 5.5). -/
def Bucket.kind (b : Bucket) : Nat := b.get 29 1 % 16
/-- Does the bucket gather shards (R355). -/
def Bucket.gather (b : Bucket) : Bool := (b.get 29 1).testBit 4
/-- Does the bucket reduce in ore. -/
def Bucket.ore (b : Bucket) : Bool := !b.gather && b.kind = 0
/-- The width of an ore integer. -/
def Bucket.oreW (b : Bucket) : Nat := if (b.get 28 1).testBit 4 then 64 else 32
/-- SIZE. -/
def Bucket.size (b : Bucket) : Nat := b.get 24 4
/-- SCRATCH. -/
def Bucket.scratch (b : Bucket) : Nat := b.get 0 8
/-- k of a top-k bucket. -/
def Bucket.k (b : Bucket) : Nat := b.get 36 1
/-- NANP of a selecting bucket. -/
def Bucket.nanp (b : Bucket) : Bool := (b.get 37 1).testBit 0

/-- The planned member count of an entry (R334). -/
def State.membersOf (s : State) (e : Nat) : Nat := ((entryDims e).map s.ring).foldl (· * ·) 1

/-- Is an entry as Table 12.3 and R334 require. (DEDUCED: notes/assumptions/55) -/
def State.entryOk (s : State) (e : Nat) : Bool :=
  let g := fun (lo n : Nat) => getBytes e lo n
  let kind := g 29 1 % 16
  let gather := (g 29 1).testBit 4
  let ncb := Ncb.ofNat (g 31 1)
  g 38 1 = 1 && g 39 25 = 0 && g 0 8 % 64 = 0 && g 16 8 % 16 = 0 && g 28 1 / 64 = 0 &&
  (entryDims e).all (fun d => 2 ≤ s.ring d) &&
  g 29 1 / 32 = 0 && (kind = 0 || decide (3 ≤ kind ∧ kind ≤ 7)) && g 30 1 ≤ 2 && ncb.ok &&
  (gather || kind ≠ 0 || (ncb.fmt < 3 && !ncb.mx)) &&
  (gather || decide (g 24 4 ≤ 65536)) && 1 ≤ g 24 4 &&
  ((g 28 1).testBit 5 || g 16 8 = 0) && (g 34 1 = 1 || g 34 1 = 4 || g 34 1 = 6) && g 35 1 / 64 = 0 &&
  (if kind = 7 then decide (1 ≤ g 36 1 ∧ g 36 1 ≤ 16) else g 36 1 = 0) && g 37 1 / 2 = 0

/-- Bytes of a block on the wire and in scratch (Tables 12.1 and 12.6). -/
def Bucket.blockBytes (b : Bucket) : Nat :=
  if b.kind = 0 then (if b.oreW = 64 then 516 else 260) else if b.kind = 7 then 8 * b.k + 4 else 512

/-- Blocks of a packet (R337). -/
def Bucket.perPacket (b : Bucket) : Nat := if b.kind ≠ 0 ∧ b.kind ≠ 7 then 3 else 2016 / b.blockBytes

/-- The digit of a block, or of a shard number, in a dimension (R341, R355). -/
def State.digit (s : State) (b : Bucket) (d x : Nat) : Nat :=
  x / ((b.dims.filter (· < d)).map s.ring).foldl (· * ·) 1 % s.ring d

/-- Blocks of the reduction, or shards of the gather. -/
def State.units (s : State) (b : Bucket) : Nat := if b.gather then s.membersOf b.entry else b.size

/-- The dimension of a stage; a bucket of one member, which selects none, has a ring of one (R334). -/
def Bucket.dimAt (b : Bucket) (st : HstStage) : Nat := b.dims.getD st.i 4

/-- The blocks of a stage's set: even blocks plus, odd blocks minus; digits of earlier dimensions this member's own, and
the stage's digit `q` (R341); a re-run takes the flagged blocks alone (R345). -/
def State.setBlocks (s : State) (b : Bucket) (st : HstStage) (dir q : Nat) : List Nat :=
  let d := b.dimAt st
  let l := if st.pass = 3 then b.flagged else List.range (s.units b)
  l.filter fun x => x % 2 = dir && s.digit b d x = q &&
    (b.dims.filter (· < d)).all fun e => s.digit b e x = coord s.node e

/-- The digit of the set that a member sends first in a stage (R342). -/
def State.originDigit (s : State) (d : Nat) (ag : Bool) (dir : Nat) : Nat :=
  let c := coord s.node d
  if ag then c else neighbour (s.ring d) c (1 - dir)

/-- The digit of the set that ends at a member in a stage (R342). -/
def State.lastDigit (s : State) (d : Nat) (ag : Bool) (dir : Nat) : Nat :=
  let c := coord s.node d
  if ag then neighbour (s.ring d) c dir else c

/-! ## Open buckets (R336) -/

/-- The open bucket of a number. -/
def State.bucket? (s : State) (n : Nat) : Option Bucket := s.buckets.find? (·.num = n)

/-- Change an open bucket. -/
def State.modBucket (s : State) (n : Nat) (f : Bucket → Bucket) : State :=
  { s with buckets := s.buckets.map fun b => if b.num = n then f b else b }

/-- The anchors of a bucket from its anchor table, when every one is set and in range (R339). -/
def State.readAnchors (s : State) (b : Bucket) : State × Res (Option (Store Int)) :=
  if !(b.get 28 1).testBit 5 then (s, .ok none)
  else
    match s.devRead none (b.get 16 8) (2 * b.size) with
    | (s, .stop c) => (s, .stop c)
    | (s, .ok (w, bad)) =>
      let l := (List.range b.size).map fun i => (i, sext 16 (getBytes w (2 * i) 2))
      let ok := l.all fun x => -1023 ≤ x.2 && x.2 ≤ 1023
      (s, .ok (if ok && !bad then some l else none))

/-- The first stage of a bucket: an assay round, the sum pass, or the gather over its last dimension but W. -/
def Bucket.firstStage (b : Bucket) : Option HstStage :=
  if b.gather then
    if b.dims.getLast?.any (· ≠ 0) then some ⟨4, true, b.dims.length - 1, 0⟩ else none
  else some ⟨b.first, false, 0, 0⟩

/-- Open a bucket with its entry (R336): DEADLINE and HST_CTRL as they stand. -/
def State.openBucket (s : State) (n e : Nat) (step : StepId) : State × Res Unit :=
  let dl := getBytes e 32 2
  let b : Bucket :=
    { num := n, entry := e, step, cmd := none, src := none, dest := none, mode := 0, included := none, muster := 0,
      f0 := none, deadline := if dl = 0 then max 1 (s.fld Reg.hstDeadline Fld.hstDeadlineFrames) else dl,
      finalSeal := s.flag Reg.hstCtrl Fld.hstCtrlFinalSeal, tailEvent := s.flag Reg.hstCtrl Fld.hstCtrlTailEvent,
      first := 1, stage := none, sets := [], own := [], prev := [], firstMask := 0, total := 0, anchors := [],
      data := [], flagged := [], reshifts := 0, failed := false, delivered := false, wsent := false, wgot := [],
      doneFrom := [] }
  let r := if b.ore then s.readAnchors b else (s, Res.ok none)
  match r with
  | (s, .stop c) => (s, .stop c)
  | (s, .ok a) =>
    let b := { b with first := if b.ore && a.isNone then 0 else 1, anchors := a.getD [] }
    (s.setBuckets (s.buckets ++ [{ b with stage := b.firstStage }]), .ok ())

/-- The entry of a bucket number, read from the bucket table (R333). -/
def State.readBucketEntry (s : State) (n : Nat) : State × Res (Nat × Bool) :=
  s.devRead none (s.reg Reg.hstBtabBase0 + s.fld Reg.hstBtabBase1 Fld.hstBtabBaseBaseHi * 2 ^ 32 + 64 * n) 64

/-- A bucket ends as failed (R329): its command completes, the failure is reported and blocks the seal. -/
def State.failBucket (s : State) (n cause : Nat) : State :=
  match s.bucket? n with
  | none => s
  | some b =>
    if b.failed then s
    else
      let s := s.modBucket n fun b => { b with failed := true }
      let s := s.bump Reg.hstFailCnt
      let s := s.report b.step ⟨9, true, false, (b.cmd.map (·.1)).getD 0, packFields [(1, 1), (1, engineCause 1 cause), (2, n), (8, 0)]⟩
      match b.cmd with
      | some (shaft, cmd) => s.cmdDone shaft cmd
      | none => s

/-! ## Ore (R330-R332, R344) -/

/-- Flag bits of an ore header (Table 12.2): BREACH 11, POISON 12, NAN 15, PINF 16, NINF 17. -/
def oreFlag (breach poison nan pinf ninf : Bool) : Nat :=
  breach.toNat * 2 ^ 11 + poison.toNat * 2 ^ 12 + nan.toNat * 2 ^ 15 + pinf.toNat * 2 ^ 16 + ninf.toNat * 2 ^ 17

/-- An ore block: header and integers of `w` bits. -/
def orePack (w hdr : Nat) (l : List Int) : Nat := hdr % 2 ^ 32 + 2 ^ 32 * packElems w (l.map (ofInt w))

/-- Integer `i` of an ore block. -/
def oreInt (w blk i : Nat) : Int := sext w (blk >>> (32 + w * i))

/-- The anchor of an ore block. -/
def oreAnchor (blk : Nat) : Int := sext 11 blk

/-- Hold an integer to `w` bits, and whether it left them (R344). -/
def oreClip (w : Nat) (v : Int) : Int × Bool :=
  let m : Int := (2 ^ (w - 1) : Nat)
  if m ≤ v then (m - 1, true) else if v < -m then (-m, true) else (v, false)

/-- One element as an ore integer (R332): the integer, whether it lies out of the window, and whether a bit was dropped. -/
def oreElem (w : Nat) (anchor : Int) : Val → Int × Bool × Bool
  | .num neg n d =>
    let e := (w : Int) - 1 - anchor
    let num := n * pow2Num e
    let den := d * pow2Den e
    let t : Int := num / den
    let out := decide (d * pow2Num anchor ≤ n * pow2Den anchor)
    ((oreClip w (if neg then -t else t)).1, out, decide (num % den ≠ 0))
  | _ => (0, false, false)

/-- A contribution's block (R332): the block, whether it was truncated inexactly, whether it held non-finite elements. -/
def oreBlock (w : Nat) (anchor : Int) (reshift : Nat) (vals : List Val) (poison : Bool) : Nat × Bool × Bool :=
  let es := vals.map (oreElem w anchor)
  let nan := vals.any Val.isNan
  let inf := fun (neg : Bool) => vals.any fun v => v.isInf && v.sign = neg
  let hdr := ofInt 11 anchor + reshift % 4 * 2 ^ 13 + oreFlag (es.any (·.2.1)) poison nan (inf false) (inf true)
  (orePack w hdr (es.map (·.1)), es.any (·.2.2), nan || vals.any Val.isInf)

/-- Add two ore blocks (R331, R342, R344): a breached block takes no addition and stands as it is; flags combine by OR. -/
def oreAdd (w a b : Nat) : Nat :=
  if a.testBit 11 then a
  else if b.testBit 11 then b
  else
    let es := (List.range 64).map fun i => oreClip w (oreInt w a i + oreInt w b i)
    let fl := ((a % 2 ^ 32) ||| (b % 2 ^ 32 / 2 ^ 11 * 2 ^ 11)) ||| oreFlag (es.any (·.2)) false false false false
    orePack w fl (es.map (·.1))

/-- The exact source of an element of a delivered block (R353). -/
def oreSource (w blk i mean count : Nat) : Val :=
  if blk.testBit 15 || (blk.testBit 16 && blk.testBit 17) then .nan
  else if blk.testBit 16 then .inf false
  else if blk.testBit 17 then .inf true
  else if blk.testBit 11 then .nan
  else if mean = 1 ∧ count = 0 then .nan
  else
    let v := oreInt w blk i
    let e := oreAnchor blk - (w - 1 : Nat)
    .num (v < 0) (v.natAbs * pow2Num e) (pow2Den e * (if mean = 1 then count else 1))

/-! ## Selecting kinds (R354, Table 12.6) -/

/-- The value that an entry without a contribution holds. -/
def selEmpty (kind : Nat) (m : Fmt) (k : Nat) : Nat :=
  if kind = 7 then packElems 32 (List.replicate k m.canonNan ++ List.replicate k noIndex ++ [0])
  else packElems 64 (List.replicate 64 (m.canonNan + (if kind = 5 ∨ kind = 6 then noIndex * 2 ^ 32 else 0)))

/-- Merge two entries of MAX, MIN, ARGMAX or ARGMIN; `neg` says which zero two zeros of opposite signs give. -/
def selEntry (kind : Nat) (m : Fmt) (nanp neg : Bool) (a b : Nat) : Nat :=
  let arg := decide (5 ≤ kind)
  let cand := fun (e : Nat) => (⟨m.asRead (e % 2 ^ m.width), if arg then e / 2 ^ 32 else 0⟩ : Cand)
  let ok := fun (c : Cand) => !(arg && c.idx = noIndex) && !(nanp && m.isNan c.w)
  let x := cand a
  let y := cand b
  if ok x && ok y && x.idx = y.idx && x.w ≠ y.w && x.w % 2 ^ (m.width - 1) = 0 && y.w % 2 ^ (m.width - 1) = 0 then
    neg.toNat * 2 ^ (m.width - 1) + x.idx * 2 ^ 32
  else
    match candBest m (kind = 3 || kind = 5) ([x, y].filter ok) with
    | some c => c.w + (if arg then c.idx * 2 ^ 32 else 0)
    | none => m.canonNan + (if arg then noIndex * 2 ^ 32 else 0)

/-- Candidates of a top-k row on the wire. -/
def rowCands (m : Fmt) (nanp : Bool) (k w : Nat) : List Cand :=
  ((List.range (min (getBytes w (8 * k) 4) k)).map fun i =>
    (⟨m.asRead (getBytes w (4 * i) 4 % 2 ^ m.width), getBytes w (4 * k + 4 * i) 4⟩ : Cand)).filter
      fun c => !(nanp && m.isNan c.w)

/-- A top-k row on the wire. -/
def topRow (m : Fmt) (k : Nat) (l : List Cand) : Nat :=
  packElems 32 ((List.range k).map (fun i => ((l[i]?).map (·.w)).getD m.canonNan) ++
    (List.range k).map (fun i => ((l[i]?).map (·.idx)).getD noIndex) ++ [l.length])

/-- Merge two blocks of a selecting kind (R354); `neg` as for each of its entries. (DESIGN CHOICE: notes/assumptions/17) -/
def selMerge (kind : Nat) (m : Fmt) (nanp : Bool) (k a b : Nat) (neg : Nat → Bool) : Nat :=
  if kind = 7 then topRow m k (candTop m k (rowCands m nanp k a ++ rowCands m nanp k b))
  else packElems 64 ((List.range 64).map fun i => selEntry kind m nanp (neg i) (getBytes a (8 * i) 8) (getBytes b (8 * i) 8))

/-! ## A member's own contribution (R332, R338, R354) -/

/-- Read `n` bytes of each of the given addresses: the values, and whether a marked word was met. -/
def State.readEach (s : State) (n : Nat) : List Nat → State × Res (List Nat × Bool)
  | [] => (s, .ok ([], false))
  | a :: l =>
    match s.devRead none a n with
    | (s, .stop c) => (s, .stop c)
    | (s, .ok (w, bad)) =>
      match State.readEach s n l with
      | (s, .stop c) => (s, .stop c)
      | (s, .ok (ws, bads)) => (s, .ok (w :: ws, bad || bads))

/-- The address of an element of a format of whole bytes. -/
def TensorDesc.addr (t : TensorDesc) (lin : Nat) : Nat := t.base + (t.pos (t.index lin)).1

/-- The address of an 8-byte state of ARGMAX or ARGMIN. -/
def TensorDesc.stateAddr (t : TensorDesc) (lin : Nat) : Nat :=
  let i := t.index lin
  t.base + 64 * (i.2.1 * t.s 1 + i.2.2.1 * t.s 2 + i.2.2.2 * t.s 3) + 8 * i.1

/-- Rows of a tensor. -/
def TensorDesc.rows (t : TensorDesc) : Nat := t.d 1 * t.d 2 * t.d 3

/-- The address of a row. -/
def TensorDesc.rowAddr (t : TensorDesc) (r : Nat) : Nat := t.base + (t.pos (t.index (r * t.d 0))).1

/-- Bytes of a top-k state that a row of a tensor holds, at most a vector register (05 R133). -/
def TensorDesc.stateBytes (t : TensorDesc) : Nat := 4 * min (t.d 0) 512

/-- The elements of a block of the source: their values as read, and whether a marked word was met. -/
def State.srcBlock (s : State) (t : TensorDesc) (blk : Nat) : State × Res (List Nat × Bool) :=
  s.readEach ((Fmt.ofCode t.fmt).width / 8)
    (((List.range 64).map fun i => 64 * blk + i).filter (· < t.count) |>.map t.addr)

/-- The assay byte of a block (R338). -/
def assayByte (f : Fmt) (l : List Nat) : Nat :=
  l.foldl (fun m w =>
    match f.assayExp w with
    | some e => max m (e + 128).toNat
    | none => m) 0

/-- A block of a selecting kind from its source (Table 12.6). -/
def State.selOwn (s : State) (b : Bucket) (t : TensorDesc) (blk : Nat) : State × Res (Nat × Bool) :=
  let m := Fmt.ofCode t.fmt
  if b.kind = 7 then
    if t.rows ≤ blk then (s, .ok (selEmpty 7 m b.k, false))
    else
      match s.devRead none (t.rowAddr blk) t.stateBytes with
      | (s, .stop c) => (s, .stop c)
      | (s, .ok (w, bad)) =>
        let l := (stateCands m w).filter fun c => !(b.nanp && m.isNan c.w)
        (s, .ok (topRow m b.k (candTop m b.k l), bad))
  else
    let lins := ((List.range 64).map fun i => 64 * blk + i).filter (· < t.count)
    let e := selEmpty b.kind m 0
    if 5 ≤ b.kind then
      match s.readEach 8 (lins.map t.stateAddr) with
      | (s, .stop c) => (s, .stop c)
      | (s, .ok (l, bad)) => (s, .ok (packElems 64 (l ++ (List.range (64 - l.length)).map fun _ => getBytes e 0 8), bad))
    else
      match s.readEach (m.width / 8) (lins.map t.addr) with
      | (s, .stop c) => (s, .stop c)
      | (s, .ok (l, bad)) =>
        (s, .ok (packElems 64 (l.map m.asRead ++ (List.range (64 - l.length)).map fun _ => getBytes e 0 8), bad))

/-- This member's part of a block in the first stage of a pass that moves blocks: its contribution, counted in
HST_INEXACT_CNT and HST_NONFIN_CNT, and whether the block carries poison outside a header.
(DESIGN CHOICE: notes/assumptions/54) -/
def State.ownBlock (s : State) (b : Bucket) (t : TensorDesc) (blk : Nat) (round : Nat) : State × Res (Nat × Bool) :=
  if b.kind ≠ 0 then s.selOwn b t blk
  else
    match s.srcBlock t blk with
    | (s, .stop c) => (s, .stop c)
    | (s, .ok (l, bad)) =>
      let f := Fmt.ofCode t.fmt
      let vals := l.map f.decode ++ List.replicate (64 - l.length) (Val.zero false)
      let r := oreBlock b.oreW (Store.get 0 b.anchors blk) round vals bad
      ((s.bumpIf r.2.1 Reg.hstInexactCnt).bumpIf r.2.2 Reg.hstNonfinCnt, .ok (r.1, false))

/-- The block that stands for no contribution. -/
def Bucket.blank (b : Bucket) (blk round : Nat) : Nat :=
  if b.kind = 0 then ofInt 11 (Store.get 0 b.anchors blk) + round % 4 * 2 ^ 13
  else selEmpty b.kind (Fmt.ofCode ((b.src.map (·.fmt)).getD 0)) b.k

/-! ## Scratch -/

/-- Read a block of the scratch. -/
def State.scratchRead (s : State) (b : Bucket) (blk : Nat) : State × Res (Nat × Bool) :=
  match s.devRead none (b.scratch + b.blockBytes * blk) b.blockBytes with
  | (s, .stop c) => (s, .stop c)
  | (s, .ok (w, bad)) => (s, .ok (if bad && b.kind = 0 then (w ||| 2 ^ 12, false) else (w, bad)))

/-- Write physical runs with the poison check pattern. -/
def State.poisonRuns (s : State) (l : List (Nat × Nat)) : State := l.foldl (fun s r => (s.poisonMem r.1 r.2).touch r.1) s

/-- Write bytes at a device virtual address, or the poison check pattern over them. -/
def State.writeOrPoison (s : State) (va n v : Nat) (poison : Bool) : State × Res Unit :=
  match s.devRuns none va n true with
  | (s, .stop c) => (s, .stop c)
  | (s, .ok l) => (if poison then s.poisonRuns l else s.writeRuns l v (allBytes n), .ok ())

/-- Write a block of the scratch. -/
def State.scratchWrite (s : State) (b : Bucket) (blk v : Nat) (poison : Bool) : State × Res Unit :=
  s.writeOrPoison (b.scratch + b.blockBytes * blk) b.blockBytes v poison

/-- Is this member the owner of a block (R341). -/
def State.owns (s : State) (b : Bucket) (blk : Nat) : Bool := b.dims.all fun d => s.digit b d blk = coord s.node d

/-- This member's byte of a block in the first stage of an assay round or a census (R338, R345). -/
def State.ownByte (s : State) (b : Bucket) (pass blk : Nat) : State × Res Nat :=
  if pass = 0 then
    match b.src, b.included with
    | some t, some true =>
      (match s.srcBlock t blk with
       | (s, .stop c) => (s, .stop c)
       | (s, .ok (l, _)) => (s, .ok (assayByte (Fmt.ofCode t.fmt) l)))
    | _, _ => (s, .ok 0)
  else if s.owns b blk then
    match s.scratchRead b blk with
    | (s, .stop c) => (s, .stop c)
    | (s, .ok (w, _)) => (s, .ok (w.testBit 11).toNat)
  else (s, .ok 0)

/-- Put this member's own part of a block in place at the start of a reduce-scatter stage (R342): in the first dimension
its contribution, afterwards the partial sum already held. -/
def State.placeOwn (s : State) (b : Bucket) (st : HstStage) (blk : Nat) : State × Res Unit :=
  if st.i ≠ 0 ∨ st.ag then (s, .ok ())
  else if st.pass = 0 ∨ st.pass = 2 then
    match s.ownByte b st.pass blk with
    | (s, .stop c) => (s, .stop c)
    | (s, .ok v) => (s.modBucket b.num fun b => { b with data := Store.set 0 b.data blk v }, .ok ())
  else
    match b.src, b.included with
    | some t, some true =>
      (match s.ownBlock b t blk st.round with
       | (s, .stop c) => (s, .stop c)
       | (s, .ok (v, p)) => s.scratchWrite b blk v p)
    | _, _ => s.scratchWrite b blk (b.blank blk st.round) false

/-- Do something for every item of a list, up to the first stop. -/
def State.each (s : State) (f : State → Nat → State × Res Unit) : List Nat → State × Res Unit
  | [] => (s, .ok ())
  | x :: l =>
    match f s x with
    | (s, .stop c) => (s, .stop c)
    | (s, .ok _) => State.each s f l

/-! ## Sending a ring step (R327, R328, R337) -/

/-- The bucket header (Table 12.5). -/
def State.hstHeader (s : State) (b : Bucket) (pass d : Nat) (ag : Bool) (round mask count first nitem : Nat) : Nat :=
  packFields [(2, b.num), (1, pass + d * 8 + ag.toNat * 32), (1, round), (4, b.step.num),
    (4, b.f0.getD (s.frame % 2 ^ 32)), (4, mask), (4, count), (4, first), (2, nitem), (6, 0)]

/-- Cut a list into pieces of `n`. -/
def chunks (n : Nat) : Nat → List Nat → List (List Nat)
  | 0, _ => []
  | fuel + 1, l => if l.isEmpty then [] else l.take n :: chunks n fuel (l.drop n)

/-- What a packet of a ring step carries: the place of its first item, how many items, their bytes, and poison. -/
structure HstItems where
  first : Nat
  nitem : Nat
  bytes : Nat
  val : Nat
  poison : Bool

/-- The blocks of one packet from scratch. An aborted step sets POISON on every block it sends (15 R417), and an ore block
sent with POISON poisons its step (15 R416). -/
def State.packBlocks (s : State) (b : Bucket) (l : List Nat) : State × Res HstItems :=
  let aborted := (s.poisonOf b.step).isSome
  let r := l.foldl (fun (r : State × Option Nat × Nat × Nat × Bool) x =>
    match r.2.1, r.1.scratchRead b x with
    | some c, _ => (r.1, some c, r.2.2)
    | none, (s, .stop c) => (s, some c, r.2.2)
    | none, (s, .ok (w, bad)) =>
      let w := if aborted && b.kind = 0 then w ||| 2 ^ 12 else w
      (s, none, r.2.2.1 + 1, r.2.2.2.1 + w * 2 ^ (8 * b.blockBytes * r.2.2.1),
        r.2.2.2.2 || bad || (b.kind = 0 && w.testBit 12))) (s, none, 0, 0, false)
  match r.2.1 with
  | some c => (r.1, .stop c)
  | none =>
    let hit := r.2.2.2.2
    let s := if hit && b.kind = 0 && b.step.seq = r.1.seqNo then r.1.poisonStep b.step.num 6 0 r.1.node else r.1
    (s, .ok ⟨l.headD 0, l.length, b.blockBytes * l.length, r.2.2.2.1, b.kind ≠ 0 && (hit || aborted)⟩)

/-- The bytes of a shard in pieces of at most 1,984 bytes: place in 64-byte units and length. -/
def shardPieces (size sh : Nat) : List (Nat × Nat) :=
  (List.range ((size + 30) / 31)).map fun i => (sh * size + 31 * i, 64 * min 31 (size - 31 * i))

/-- Gather data of one packet from scratch. -/
def State.packGather (s : State) (b : Bucket) (u n : Nat) : State × Res HstItems :=
  match s.devRead none (b.scratch + 64 * u) n with
  | (s, .stop c) => (s, .stop c)
  | (s, .ok (w, bad)) => (s, .ok ⟨u, n, n, w, bad || (s.poisonOf b.step).isSome⟩)

/-- The items of every packet of a set, up to the first stop. -/
def State.packAll (s : State) (fs : List (State → State × Res HstItems)) : State × Res (List HstItems) :=
  match fs with
  | [] => (s, .ok [])
  | f :: l =>
    match f s with
    | (s, .stop c) => (s, .stop c)
    | (s, .ok x) =>
      match State.packAll s l with
      | (s, .stop c) => (s, .stop c)
      | (s, .ok xs) => (s, .ok (x :: xs))

/-- The packets of a set. -/
def State.packSet (s : State) (b : Bucket) (st : HstStage) (blocks : List Nat) : State × Res (List HstItems) :=
  if b.gather then
    s.packAll (blocks.flatMap fun sh => (shardPieces b.size sh).map fun x => fun s => s.packGather b x.1 x.2)
  else if st.pass = 0 ∨ st.pass = 2 then
    (s, .ok ((chunks 2016 blocks.length blocks).map fun l =>
      ⟨l.headD 0, l.length, l.length, packElems 8 (l.map fun x => Store.get 0 b.data x), false⟩))
  else s.packAll ((chunks b.perPacket blocks.length blocks).map fun l => fun s => s.packBlocks b l)

/-- Send packets as one counted transfer of an engine under a ticket of its own (R327, 13 R368, 15 R408): transfer
identifiers, LAST and COUNT are set here. A multicast transfer gets no XACK (11 R323) and ends as it is sent. -/
def State.sendCounted (s : State) (step : StepId) (tkind engine key : Nat) (mcast : Bool) (l : List Packet) : State :=
  let x := s.newXfer
  let t := x.2.issueTicket step tkind [] none
  let n := l.length
  let r := l.foldl (fun (r : State × Nat) (p : Packet) =>
    let last := r.2 + 1 = n
    (r.1.sendProv { p with xfer := x.1, last, count := if last then n else 0 } t.1, r.2 + 1)) (t.2.2, 0)
  let s := r.1
  if mcast then s.setOutcome [t.1] none
  else { s with xfers := s.xfers ++ [⟨x.1, t.1, engine, key⟩] }

/-- Send items as one hoist transfer. (DESIGN CHOICE: notes/assumptions/56) -/
def State.sendTransfer (s : State) (b : Bucket) (dst cls : Nat) (mcast : Bool) (hdr : Nat → Nat → Nat)
    (l : List HstItems) : State :=
  s.sendCounted b.step 2 1 b.num mcast (l.map fun it =>
    { s.newPacket dst cls 5 with
      mcast, esc := mcast, plen := 32 + it.bytes, poison := it.poison, payload := hdr it.first it.nitem + 2 ^ 256 * it.val })

/-- The ticket of a transfer has no room (15 R410). (DESIGN CHOICE: notes/assumptions/56) -/
def State.ticketWait (s : State) (w : WaitKey) : State := s.waitOn w .ticket

/-- Send a set to the next member of its ring. -/
def State.sendSet (s : State) (b : Bucket) (st : HstStage) (dir q mask count : Nat) : State :=
  let d := b.dimAt st
  match s.packSet b st (s.setBlocks b st dir q) with
  | (s, .stop c) => s.failBucket b.num c
  | (s, .ok l) =>
    let dst := withCoord s.node d (neighbour (s.ring d) (coord s.node d) dir)
    let h := s.hstHeader b st.pass d st.ag st.round mask count
    s.sendTransfer b dst (b.get 34 1) false h l

/-! ## The course of a bucket (R338, R341-R347, R355) -/

/-- The stage after a stage is complete. -/
def Bucket.nextStage (b : Bucket) (st : HstStage) : Option HstStage :=
  let last := b.dims.length - 1
  if !st.ag then
    if st.i < last then some { st with i := st.i + 1 }
    else match st.pass with
      | 0 => some { st with ag := true }
      | 2 => some { st with ag := true }
      | _ => if b.kind = 0 then some ⟨2, false, 0, st.round⟩ else some { st with ag := true, pass := 1 }
  else if b.gather then
    if st.i = 0 ∨ b.dims.getD (st.i - 1) 0 = 0 then none else some { st with i := st.i - 1 }
  else if 0 < st.i then some { st with i := st.i - 1 }
  else match st.pass with
    | 0 => some ⟨1, false, 0, 0⟩
    | 2 => if b.flagged = [] ∨ st.round = 3 then some ⟨1, true, last, st.round⟩ else some ⟨3, false, 0, st.round + 1⟩
    | _ => none

/-- The anchors that an assay round agrees on (R338). -/
def State.assayAnchors (s : State) (b : Bucket) : Store Int :=
  let n := s.membersOf b.entry
  (List.range b.size).map fun i =>
    let v := Store.get 0 b.data i
    (i, if v = 0 then 0 else (v : Int) - 128 + ceilLog2 n + 1)

/-- What the end of a stage brings about before the next begins. -/
def State.endStage (s : State) (b : Bucket) (st : HstStage) : State :=
  let cnt := fun (dir : Nat) => (Store.find b.sets (32 * dir + coord s.node (b.dimAt st))).map fun x => x.count
  let first := !st.ag && st.i = 0 && st.pass = b.first
  let masks := (b.sets.map fun x => x.2.mask).foldl (· ||| ·) 0
  let b := { b with
    prev := if st.ag then b.prev else [(0, (cnt 0).getD 0), (1, (cnt 1).getD 0)]
    firstMask := if first then masks else b.firstMask }
  let b := { b with total := if !st.ag && st.i = b.dims.length - 1 then max (Store.get 0 b.prev 0) (Store.get 0 b.prev 1)
    else b.total }
  let past := st.ag && st.i = 0
  if past && !b.gather && st.pass = 0 then
    let b := { b with anchors := s.assayAnchors b, data := [] }
    (s.bump Reg.hstAssayCnt).modBucket b.num fun _ => b
  else if past && !b.gather && st.pass = 2 then
    let fl : List Nat := (b.data.filter fun x => x.2 = 1).map (·.1)
    let b := { b with flagged := fl, data := [] }
    if fl.isEmpty || decide (st.round = 3) then s.modBucket b.num fun _ => b
    else
      let b := { b with
        anchors := b.anchors.map fun x => if fl.contains x.1 then (x.1, x.2 + 4) else x
        reshifts := b.reshifts + fl.length }
      (s.bumpN Reg.hstReshiftCnt fl.length).modBucket b.num fun _ => b
  else s.modBucket b.num fun _ => b

/-- Go on to the next stage. -/
def State.nextStage (s : State) (b : Bucket) (st : HstStage) : State :=
  (s.endStage b st).modBucket b.num fun b => { b with stage := b.nextStage st, sets := [], own := [] }

/-- May the own part be used in a stage: a first stage waits for the muster (R348), a gather for the own shard. -/
def Bucket.ownReady (b : Bucket) (st : HstStage) : Bool :=
  if b.gather then b.src.isSome else !(st.i = 0 && !st.ag && st.pass = b.first) || b.included.isSome

/-- The count that the own part of a stage brings (R351). -/
def Bucket.ownCount (b : Bucket) (st : HstStage) (dir : Nat) : Nat :=
  if b.gather then 1
  else if st.ag then b.total
  else if st.i = 0 then (decide (b.included = some true)).toNat
  else Store.get 0 b.prev dir

/-- Record what is known of a set. -/
def State.putSet (s : State) (n key : Nat) (x : HstSet) : State :=
  s.modBucket n fun b => { b with sets := Store.put false x b.sets key }

/-- Start a direction of a stage: the own parts of the first set are put in place and the set is sent. -/
def State.sendOrigin (s : State) (b : Bucket) (st : HstStage) (dir : Nat) : State :=
  let d := b.dimAt st
  let q := s.originDigit d st.ag dir
  let blocks := s.setBlocks b st dir q
  match s.each (fun s x => s.placeOwn b st x) blocks with
  | (s, .stop c) => s.failBucket b.num c
  | (s, .ok _) =>
    let c := b.ownCount st dir
    let mask := if c = 0 then 0 else 2 ^ coord s.node d
    let s := s.putSet b.num (32 * dir + q) ⟨mask, c, true⟩
    let s := s.modBucket b.num fun b => { b with own := dir :: b.own }
    match s.bucket? b.num with
    | some b => if s.ring d = 1 then s else s.sendSet b st dir q mask c
    | none => s

/-- The next thing that a bucket can do by itself: start a direction, or send a set on. -/
def State.bucketAct (s : State) (b : Bucket) (st : HstStage) : Option State :=
  let d := b.dimAt st
  let starts := [0, 1].filter fun dir =>
    !b.own.contains dir && b.ownReady st && s.setBlocks b st dir (s.originDigit d st.ag dir) ≠ []
  let fwds := b.sets.filter fun x => !x.2.sent && x.1 % 32 ≠ s.lastDigit d st.ag (x.1 / 32)
  match starts, fwds with
  | dir :: _, _ => some (if s.ticketRoom then s.sendOrigin b st dir else s.ticketWait (.bucket b.num 0))
  | [], (key, x) :: _ =>
    some (if s.ticketRoom then
      (s.putSet b.num key { x with sent := true }).sendSet b st (key / 32) (key % 32) x.mask x.count
    else s.ticketWait (.bucket b.num 0))
  | [], [] => none

/-- Has every set of a stage arrived and been sent on. -/
def State.stageOver (s : State) (b : Bucket) (st : HstStage) : Bool :=
  let d := b.dimAt st
  b.ownReady st && [0, 1].all fun dir =>
    (List.range (s.ring d)).all fun q =>
      s.setBlocks b st dir q = [] || (match Store.find b.sets (32 * dir + q) with
        | some x => x.sent || q = s.lastDigit d st.ag dir
        | none => false)

/-- The W peers of this module. -/
def State.wPeers (s : State) : List Nat := (List.range (s.ring 0)).filter (· ≠ coord s.node 0)

/-- The W multicast of a gather (R355): what this module holds, to the other W members through box BOX on G4. -/
def State.sendW (s : State) (b : Bucket) : State :=
  let held := (List.range (s.units b)).filter fun x => s.digit b 0 x = coord s.node 0
  match s.packSet b ⟨4, true, 0, 0⟩ held with
  | (s, .stop c) => s.failBucket b.num c
  | (s, .ok l) =>
    let s := s.modBucket b.num fun b => { b with wsent := true }
    s.sendTransfer b (bits (b.get 35 1) 5 0) 4 true (s.hstHeader b 4 0 true 0 0 1) l

/-- Is a gather's copy whole (R356). -/
def State.whole (s : State) (b : Bucket) : Bool :=
  b.stage.isNone && b.src.isSome && (!b.dims.contains 0 || s.wPeers.all fun c => b.wgot.contains c)

/-- The W peer that has not been sent DONE yet (R356): `own` lists those that have. -/
def State.doneDue (s : State) (b : Bucket) : Option Nat :=
  if s.whole b && b.dims.contains 0 then s.wPeers.find? fun c => !b.own.contains (64 + c) else none

/-- Send DONE to a W peer. -/
def State.sendDone (s : State) (b : Bucket) (c : Nat) : State :=
  let s := s.modBucket b.num fun b => { b with own := (64 + c) :: b.own }
  s.sendTransfer b (withCoord s.node 0 c) (b.get 34 1) false (s.hstHeader b 5 0 true 0 0 1) [⟨0, 0, 0, 0, false⟩]

/-- A bucket does what it can. -/
def State.pumpBucket (s : State) (n : Nat) : Nat → State
  | 0 => s
  | fuel + 1 =>
    match s.bucket? n with
    | none => s
    | some b =>
      if b.failed || b.delivered then s
      else
        match b.stage with
        | some st =>
          (match s.bucketAct b st with
           | some t => if s.ticketRoom then State.pumpBucket t n fuel else t
           | none => if s.stageOver b st then State.pumpBucket (s.nextStage b st) n fuel else s)
        | none =>
          if !b.gather then s
          else if b.dims.contains 0 && b.src.isSome && !b.wsent then
            (if s.ticketRoom then State.pumpBucket (s.sendW b) n fuel else s.ticketWait (.bucket n 0))
          else
            match s.doneDue b with
            | some c => if s.ticketRoom then State.pumpBucket (s.sendDone b c) n fuel else s.ticketWait (.bucket n 0)
            | none => s

/-- Steps that a bucket can take at one event: starts, sets and stage ends of every pass. -/
def pumpFuel : Nat := 4096

/-- A bucket does what it can at an event. -/
def State.pumpHoist (s : State) (n : Nat) : State := (s.waitDone (.bucket n 0)).pumpBucket n pumpFuel

/-! ## Arrivals (R327, R329, R336, R342) -/

/-- What becomes of an arriving engine packet: it waits, it is held by its engine uncounted, its transfer is refused with a
cause, or it is taken. -/
inductive Take where
  | wait (s : State)
  | held (s : State)
  | refuse (s : State) (cause : Nat)
  | took (s : State)

/-- A refusal cause of a transfer beyond those of Table 10.6: COUNT, and a header or entry that its engine refuses. -/
def causeCount : Nat := 8
/-- The engine refuses the transfer's header or entry (12 R329, 13 R368). -/
def causeHeader : Nat := 9

/-- The earlier of two frames modulo 2^32. -/
def earlier (a b : Nat) : Nat := if (b + 2 ^ 32 - a) % 2 ^ 32 < 2 ^ 31 then a else b

/-- Merge an arriving block into scratch (R342): added to the own part in a reduce-scatter step, written in an all-gather
step. -/
def State.takeBlock (s : State) (b : Bucket) (st : HstStage) (w : Nat) (poison : Bool) (count blk : Nat) :
    State × Res Unit :=
  if st.ag then s.scratchWrite b blk w poison
  else
    let own := if st.i = 0 then
        (match b.src, b.included with
         | some t, some true => if b.kind = 0 && w.testBit 11 then (s, Res.ok none)
           else (match s.ownBlock b t blk st.round with
             | (s, .stop c) => (s, .stop c)
             | (s, .ok x) => (s, .ok (some x)))
         | _, _ => (s, .ok none))
      else (match s.scratchRead b blk with
        | (s, .stop c) => (s, .stop c)
        | (s, .ok x) => (s, .ok (some x)))
    match own with
    | (s, .stop c) => (s, .stop c)
    | (s, .ok none) => s.scratchWrite b blk w poison
    | (s, .ok (some (o, p))) =>
      if b.kind = 0 then s.scratchWrite b blk (oreAdd b.oreW w o) poison
      else if count = 0 then s.scratchWrite b blk o (poison || p)
      else
        s.scratchWrite b blk (selMerge b.kind (Fmt.ofCode ((b.src.map (·.fmt)).getD 0)) b.nanp b.k w o fun i =>
          Config.zeroTie b.step.num b.num (64 * blk + i)) (poison || p)

/-- Where the scratch keeps the assay byte or census bit of a block (R327): the byte at the head of the place of its block, the bit in
the 8 KiB behind the blocks (Table 12.3). (DESIGN CHOICE: notes/assumptions/54) -/
def Bucket.byteAt (b : Bucket) (pass blk : Nat) : Nat :=
  if pass = 0 then b.scratch + b.blockBytes * blk else b.scratch + b.blockBytes * b.size + blk / 8

/-- An assay byte or census bit is written in the scratch (R327). -/
def State.scratchByte (s : State) (b : Bucket) (pass blk v : Nat) : State × Res Unit :=
  let s := s.modBucket b.num fun b => { b with data := Store.set 0 b.data blk v }
  let a := b.byteAt pass blk
  if pass = 0 then s.devWrite none a 1 v
  else
    match s.devRead none a 1 with
    | (s, .stop c) => (s, .stop c)
    | (s, .ok (w, _)) => s.devWrite none a 1 (putBits w (blk % 8) (blk % 8) (v % 2))

/-- Merge an arriving assay or census byte (R338, R345). -/
def State.takeByte (s : State) (b : Bucket) (st : HstStage) (v blk : Nat) : State × Res Unit :=
  if st.ag then s.scratchByte b st.pass blk v
  else
    let own := if st.i = 0 then s.ownByte b st.pass blk else (s, Res.ok (Store.get 0 b.data blk))
    match own with
    | (s, .stop c) => (s, .stop c)
    | (s, .ok o) => s.scratchByte b st.pass blk (max v o)

/-- Gather data land in the scratch and at DEST (R327, R355). -/
def State.takeGather (s : State) (b : Bucket) (u n v : Nat) (poison : Bool) : State × Res Unit :=
  match s.writeOrPoison (b.scratch + 64 * u) n v poison with
  | (s, .stop c) => (s, .stop c)
  | (s, .ok _) =>
    match b.dest with
    | some t => s.writeOrPoison (t.base + 64 * u) n v poison
    | none => (s, .ok ())

/-- Fields of a bucket header. -/
def hPass (h : Nat) : Nat := bits (getBytes h 2 1) 2 0
/-- Dimension in a bucket header. -/
def hDim (h : Nat) : Nat := bits (getBytes h 2 1) 4 3
/-- All-gather bit of a bucket header. -/
def hAg (h : Nat) : Bool := (getBytes h 2 1).testBit 5

/-- Does a header keep Table 12.5 for a bucket's entry and its packet's length. -/
def Bucket.headerOk (b : Bucket) (h plen : Nat) : Bool :=
  let n := getBytes h 24 2
  let bytes := if hPass h = 1 || hPass h = 3 then n * b.blockBytes else n
  getBytes h 2 1 / 64 = 0 && hPass h ≤ 5 && getBytes h 3 1 ≤ 3 && getBytes h 26 6 = 0 && b.dims.contains (hDim h) &&
    bytes ≤ 2016 && plen = 32 + bytes && (b.gather = (hPass h = 4 || hPass h = 5))

/-- The set that the first item of a packet belongs to: direction and digit. -/
def State.itemSet (s : State) (b : Bucket) (d first : Nat) : Nat × Nat :=
  let x := if b.gather then first / b.size else first
  (x % 2, s.digit b d x)

/-- The blocks that a packet's items stand for. -/
def State.itemBlocks (s : State) (b : Bucket) (st : HstStage) (first n : Nat) : List Nat :=
  let ds := s.itemSet b (b.dimAt st) first
  ((s.setBlocks b st ds.1 ds.2).dropWhile (· ≠ first)).take n

/-- The scratch or destination addresses that a packet writes. -/
def Bucket.spans (b : Bucket) (pass first n : Nat) (blocks : List Nat) : List (Nat × Nat) :=
  if b.gather then
    (b.scratch + 64 * first, n) :: (match b.dest with
      | some t => [(t.base + 64 * first, n)]
      | none => [])
  else if pass = 0 ∨ pass = 2 then blocks.map fun x => (b.byteAt pass x, 1)
  else blocks.map fun x => (b.scratch + b.blockBytes * x, b.blockBytes)

/-- A packet's items enter the bucket in its current stage. -/
def State.takeItems (s : State) (b : Bucket) (st : HstStage) (p : Packet) : Take :=
  let h := p.payload % 2 ^ 256
  let v := p.payload / 2 ^ 256
  let first := getBytes h 20 4
  let n := getBytes h 24 2
  let d := b.dimAt st
  let q := s.itemSet b d first
  let blocks := s.itemBlocks b st first n
  let whole := if b.gather then decide (64 * first + n ≤ 64 * b.size * s.units b) else blocks.length = n
  if n = 0 || !whole || (!(p.mcast) && q.2 = s.originDigit d st.ag q.1) then .refuse s causeHeader
  else if !st.ag && !b.ownReady st then .wait s
  else if (b.spans st.pass first n blocks).any fun x => s.cowWaits x.1 x.2 then .wait (s.waitOn (.packet p) (.copies (b.spans st.pass first n blocks)))
  else
    let r :=
      if b.gather then s.takeGather b first n v p.poison
      else if st.pass = 0 ∨ st.pass = 2 then
        s.each (fun s i => s.takeByte b st (getBytes v i 1) (blocks.getD i 0)) (List.range n)
      else
        s.each (fun s i => s.takeBlock b st (getBytes v (b.blockBytes * i) b.blockBytes) p.poison (getBytes h 16 4)
          (blocks.getD i 0)) (List.range n)
    match r with
    | (s, .stop c) => .refuse (s.failBucket b.num c) c
    | (s, .ok _) => .took s

/-- An arriving packet is held against its open bucket. -/
def State.hoistInto (s : State) (b : Bucket) (p : Packet) : Take :=
  let h := p.payload % 2 ^ 256
  if !b.headerOk h p.plen then .refuse s causeHeader
  else
    let f := getBytes h 8 4
    let b := { b with f0 := some ((b.f0.map fun g => earlier g f).getD f) }
    let s := s.modBucket b.num fun _ => b
    if b.failed then .wait s
    else if hPass h = 5 then .took s
    else if b.gather && p.mcast then s.takeItems b ⟨4, true, 0, 0⟩ p
    else
      match b.stage with
      | none => .wait s
      | some st =>
        if st.pass = hPass h && st.ag = hAg h && b.dimAt st = hDim h && st.round = getBytes h 3 1 then s.takeItems b st p
        else .wait s

/-- The descriptor of a bucket's destination, read when it is first needed. -/
def State.bucketDest (s : State) (n : Nat) : State :=
  match s.bucket? n with
  | none => s
  | some b =>
    if b.dest.isSome || !b.gather then s
    else
      let r := s.readDesc none (b.get 8 8)
      r.1.modBucket n fun b => { b with dest := r.2.map (·.1) }

/-- A HOIST packet reaches the hoist (R327, R329, R336). (DESIGN CHOICE: notes/assumptions/54) -/
def State.hoistTake (s : State) (p : Packet) : Take :=
  let h := p.payload % 2 ^ 256
  let n := getBytes h 0 2
  if 4096 ≤ n then .refuse s causeHeader
  else
    match s.bucket? n with
    | some b => s.hoistInto b p
    | none =>
      if 64 ≤ s.buckets.length then .wait (s.waitOn (.packet p) .bucketPlace)
      else
        match s.readBucketEntry n with
        | (s, .stop c) => .refuse s c
        | (s, .ok (e, _)) =>
          if !s.entryOk e then .refuse s causeHeader
          else
            let low := getBytes h 4 4
            let step := ((s.steps.find? fun r => r.id.seq = s.seqNo && r.unsealed && r.id.num % 2 ^ 32 = low).map
              (·.id)).getD ⟨s.seqNo, low⟩
            match s.openBucket n e step with
            | (s, .stop c) => .refuse s c
            | (s, .ok _) =>
              let s := s.bucketDest n
              match s.bucket? n with
              | some b => s.hoistInto b p
              | none => .wait s

/-- A hoist transfer has completed (R323, R342, R356): its set has arrived, with the own part in it. -/
def State.hoistArrived (s : State) (p : Packet) : State :=
  let h := p.payload % 2 ^ 256
  match s.bucket? (getBytes h 0 2) with
  | none => s
  | some b =>
    let w := coord p.src 0
    let s :=
      if hPass h = 5 then s.modBucket b.num fun b => { b with doneFrom := w :: b.doneFrom }
      else if b.gather && p.mcast then s.modBucket b.num fun b => { b with wgot := w :: b.wgot }
      else
        match b.stage with
        | none => s
        | some st =>
          let d := b.dimAt st
          let q := s.itemSet b d (getBytes h 20 4)
          let c := if st.ag then 0 else b.ownCount st q.1
          let count := getBytes h 16 4 + c
          let mask := (getBytes h 12 4) ||| (if c = 0 then 0 else 2 ^ coord s.node d)
          let s := if st.ag && st.pass = 1 then
              s.modBucket b.num fun b => { b with total := max b.total count } else s
          s.putSet b.num (32 * q.1 + q.2) ⟨mask, count, false⟩
    s.pumpHoist b.num

/-! ## COLLECTIVE (R335, R336, R348-R350) -/

/-- Has the deadline of a bucket's muster passed (R349): the boundary that starts frame F0 + DEADLINE, and the end of its cycle. -/
def State.musterOver (s : State) (b : Bucket) : Bool :=
  b.f0.any fun f =>
    let past := (s.frame + 2 ^ 32 - (f + b.deadline) % 2 ^ 32) % 2 ^ 32
    decide (past < 2 ^ 31) && (decide (0 < past) || decide (s.bcycle < s.cycle))

/-- A member's own shard is copied to its place at the start of a gather (R355). -/
def State.placeShard (s : State) (b : Bucket) (t : TensorDesc) : State :=
  let n := 64 * b.size
  let sh := ((List.range (s.units b)).find? fun x => s.owns b x).getD 0
  match s.devRead none t.base n with
  | (s, .stop c) => s.failBucket b.num c
  | (s, .ok (w, bad)) =>
    match s.takeGather b (sh * b.size) n w bad with
    | (s, .stop c) => s.failBucket b.num c
    | (s, .ok _) => s

/-- A command joins its bucket: the member musters, unless it comes after the deadline, or its contribution is a tailing (R348-R350). -/
def State.joinBucket (s : State) (shaft : Nat) (c : Command) (b : Bucket) (src dest : TensorDesc) (step : StepId) :
    State :=
  let mode := c.get 18 1
  let inc := if b.gather then true else if mode = 2 then false else b.included.getD (mode = 1 || !s.musterOver b)
  let now := s.frame % 2 ^ 32
  let f0 := if inc then some ((b.f0.map fun g => earlier g now).getD now) else b.f0
  let b := { b with
    cmd := some (shaft, c.id), src := some src, dest := some dest, step, mode, included := some inc, muster := now, f0 }
  let s := s.modBucket b.num fun _ => b
  let s := if inc then s
    else
      let s := (s.bump Reg.hstTailingsCnt).report step ⟨2, false, false, shaft, packFields [(2, b.num), (4, now)]⟩
      s.raiseIf b.tailEvent 7
  let s := if b.gather then s.placeShard b src else s
  s.pumpHoist b.num

/-- Does a range overlap a frozen region (13 R375). -/
def State.frozen (s : State) (va n : Nat) : Bool :=
  (List.range 16).any fun i =>
    let base := s.fld (Reg.rflFrzLo i) Fld.rflFrzLoBaseLo * 2 ^ 21 + s.fld (Reg.rflFrzHi i) Fld.rflFrzHiBaseHi * 2 ^ 32
    s.flag (Reg.rflFrzLo i) Fld.rflFrzLoV && decide (va < base + s.reg (Reg.rflFrzLen i) * 2 ^ 21) && decide (base < va + n)

/-- Does one of several ranges overlap a frozen region. -/
def State.anyFrozen (s : State) (l : List (Nat × Nat)) : Bool := l.any fun x => x.2 ≠ 0 && s.frozen x.1 x.2

/-- The addresses that a tensor's rows take. -/
def TensorDesc.spans (t : TensorDesc) (rowBytes : Nat) : List (Nat × Nat) :=
  (List.range t.rows).map fun r => (t.rowAddr r, rowBytes)

/-- The addresses that a bucket's delivery writes besides its anchor table. -/
def destSpans (e : Nat) (t : TensorDesc) (members : Nat) : List (Nat × Nat) :=
  let kind := getBytes e 29 1 % 16
  let size := getBytes e 24 4
  if (getBytes e 29 1).testBit 4 then [(t.base, 64 * size * members)]
  else if kind = 0 && getBytes e 30 1 = 2 then
    [(t.base, (if (getBytes e 28 1).testBit 4 then 516 else 260) * size + 8)]
  else t.spans (if 5 ≤ kind ∧ kind ≤ 6 then 8 * t.d 0 else if kind = 7 then t.stateBytes else t.bytes (t.d 0))

/-- Every range that a COLLECTIVE writes (13 R375): its destination, its scratch and its anchor table. -/
def collectiveSpans (e : Nat) (t : TensorDesc) (members : Nat) : List (Nat × Nat) :=
  let size := getBytes e 24 4
  let ore := if (getBytes e 28 1).testBit 4 then 516 else 260
  let scratch := if (getBytes e 29 1).testBit 4 then 64 * size * members else ore * size + 8192
  (getBytes e 0 8, scratch) :: (if getBytes e 16 8 = 0 then [] else [(getBytes e 16 8, 2 * size)]) ++ destSpans e t members

/-- Do the descriptors of a COLLECTIVE suit its entry (R332, R353, R354): a source of format 0-2 without MX, and a destination in the
format that is written there; raw ore and a gather write bytes. (DEDUCED: notes/assumptions/55) -/
def collectiveFits (e : Nat) (l : List TensorDesc) : Bool :=
  (getBytes e 29 1).testBit 4 || (match l with
    | [src, dest] =>
      decide (src.fmt < 3) && !src.mx &&
        (if getBytes e 29 1 % 16 ≠ 0 then decide (dest.fmt = src.fmt) && !dest.mx
         else (let n := Ncb.ofNat (getBytes e 31 1); decide (getBytes e 30 1 = 2) || (decide (n.fmt = dest.fmt) && decide (n.mx = dest.mx))))
    | _ => true)

/-- COLLECTIVE (R335): opens its bucket or joins it, and musters. (DEDUCED: notes/assumptions/55) -/
def execCollective (shaft : Nat) (s : State) : Host.Outcome State Fault Refusal :=
  .next (s.startCommand shaft 0x11 fun s c =>
    let n := c.get 16 2
    let same := s.shafts.any fun h => h.2.started.any fun x => x.cmd.op = 0x11 && x.cmd.get 16 2 = n
    if c.get 18 1 / 4 ≠ 0 ∨ c.get 19 1 ≠ 0 ∨ c.get 28 36 ≠ 0 ∨ c.get 18 1 = 3 then (s, .refuse 2)
    else if 4096 ≤ n then (s, .refuse 7)
    else
      match s.readBucketEntry n with
      | (s, .stop _) => (s, .refuse 5)
      | (s, .ok (e, bad)) =>
        let r := if s.entryOk e then s.readDescs [c.get 20 8, getBytes e 8 8] else (s, [], [])
        let s := r.1
        match firstCause [(r.2.2.contains 4 || !collectiveFits e r.2.1, 4), (bad || r.2.2.contains 5, 5),
            (same || !s.entryOk e || (match r.2.1 with
              | [_, dest] => s.anyFrozen (collectiveSpans e dest (s.membersOf e))
              | _ => false), 7)], r.2.1 with
        | some k, _ => (s, .refuse k)
        | none, [src, dest] =>
          let step := (s.shaft shaft).step.getD noStep
          let x := s.startedAs shaft c .working
          (match s.bucket? n with
           | some b =>
             if b.failed then
               (s.modBucket n fun b => { b with cmd := some (shaft, c.id) }, .start { x with state := .done, failed := true })
             else ((s.beginCommand shaft x).joinBucket shaft c b src dest step, .hold)
           | none =>
             if 64 ≤ s.buckets.length then (s, .hold)
             else
               match s.openBucket n e step with
               | (s, .stop _) => (s, .refuse 5)
               | (s, .ok _) =>
                 match s.bucket? n with
                 | some b => ((s.beginCommand shaft x).joinBucket shaft c b src dest step, .hold)
                 | none => (s, .hold))
        | none, _ => (s, .refuse 5))

/-- BUCKET_DEADLINE (R349, R350): a member that has opened a bucket and has not mustered is excluded at the deadline, unless
its command waits to include it without a deadline. -/
def execBucketDeadline (bucket : Nat) (s : State) : Host.Outcome State Fault Refusal :=
  match s.bucket? bucket with
  | none => .next s
  | some b =>
    let free := s.shafts.any fun h => h.2.decoded.any fun c =>
      c.op = 0x11 && c.get 16 2 = bucket && c.get 18 1 = 1
    if s.musterOver b && b.included.isNone && !b.gather && !free then
      .next ((s.modBucket bucket fun b => { b with included := some false }).pumpHoist bucket)
    else .next (s.pumpHoist bucket)

/-! ## Delivery (R340, R343, R346, R352-R354, R356) -/

/-- The job seed of a step (02 R57). -/
def State.seedOf (s : State) (id : StepId) : Nat :=
  ((s.step? id).map (·.seed)).getD (s.reg64 Reg.sftJobSeed0 Reg.sftJobSeed1)

/-- Write the elements of a delivered block: logical index, bits. -/
def State.writeElems (s : State) (t : TensorDesc) (poison : Bool) : List (Nat × Nat) → State × Res Unit
  | [] => (s, .ok ())
  | (lin, w) :: l =>
    match s.writeOrPoison (t.addr lin) ((Fmt.ofCode t.fmt).width / 8) w poison with
    | (s, .stop c) => (s, .stop c)
    | (s, .ok _) => State.writeElems s t poison l

/-- The logical indices of a block's elements in a tensor. -/
def TensorDesc.blockLins (t : TensorDesc) (blk : Nat) : List Nat :=
  ((List.range 64).map fun i => 64 * blk + i).filter (· < t.count)

/-- The converted elements of a delivered ore block (R353). -/
def State.deliverOreElems (s : State) (b : Bucket) (t : TensorDesc) (blk w : Nat) : List (Nat × Nat) :=
  let ncb := Ncb.ofNat (b.get 31 1)
  (t.blockLins blk).map fun lin =>
    let r := if ncb.rnd = 2 then keyedDraw (s.seedOf b.step) b.step.num t.tid lin 0 0 else 0
    (lin, ((Fmt.ofCode ncb.fmt).convert ncb.sat ncb.rnd r (oreSource b.oreW w (lin % 64) (b.get 30 1) b.total)).1)

/-- What delivery has done so far: elements stored, and the anchors delivered. -/
structure Delivery where
  stored : List (Nat × Nat × Nat)
  anchors : List Int

/-- Deliver one ore block (R340, R343, R346, R353). -/
def State.deliverOre (s : State) (b : Bucket) (t : TensorDesc) (blk : Nat) (d : Delivery) : State × Res Delivery :=
  match s.scratchRead b blk with
  | (s, .stop c) => (s, .stop c)
  | (s, .ok (w0, _)) =>
    let w := if (s.poisonOf b.step).isSome then w0 ||| 2 ^ 12 else w0
    let poison := w.testBit 12
    let s := s.bumpIf poison Reg.hstPoisonCnt
    let s := if w.testBit 11 then
        (s.bump Reg.hstFinalBreachCnt).report b.step
          ⟨7, b.finalSeal, false, (b.cmd.map (·.1)).getD 0, packFields [(2, b.num), (4, blk)]⟩
      else s
    let raw := b.get 30 1 = 2
    let elems := if raw then [] else s.deliverOreElems b t blk w
    let r := if raw then s.writeOrPoison (t.base + b.blockBytes * blk) b.blockBytes w poison
      else s.writeElems t poison elems
    match r with
    | (s, .stop c) => (s, .stop c)
    | (s, .ok _) =>
      let a := b.get 16 8
      let r := if a = 0 then (s, Res.ok ()) else s.devWrite none (a + 2 * blk) 2 (ofInt 16 (oreAnchor w))
      match r with
      | (s, .stop c) => (s, .stop c)
      | (s, .ok _) =>
        let s := if poison && b.step.seq = s.seqNo then s.poisonStep b.step.num 6 0 s.node else s
        (s, .ok ⟨if poison then d.stored else d.stored ++ elems.map fun e => (e.1, e.2, 0), d.anchors ++ [oreAnchor w]⟩)

/-- Deliver one block of a selecting kind in the layouts of 05 R132 and R133. -/
def State.deliverSel (s : State) (b : Bucket) (t : TensorDesc) (blk : Nat) (d : Delivery) : State × Res Delivery :=
  match s.scratchRead b blk with
  | (s, .stop c) => (s, .stop c)
  | (s, .ok (w, bad)) =>
    let poison := bad || (s.poisonOf b.step).isSome
    let s := s.bumpIf poison Reg.hstPoisonCnt
    let m := Fmt.ofCode t.fmt
    let blank := selEmpty b.kind m b.k
    let w := if b.total = 0 then blank else w
    if b.kind = 7 then
      if t.rows ≤ blk then (s, .ok d)
      else
        let st := topState m (rowCands m false b.k w)
        match s.writeOrPoison (t.rowAddr blk) t.stateBytes (st % 2 ^ (8 * t.stateBytes)) poison with
        | (s, .stop c) => (s, .stop c)
        | (s, .ok _) => (s, .ok d)
    else if 5 ≤ b.kind then
      match s.each (fun s lin => s.writeOrPoison (t.stateAddr lin) 8 (getBytes w (8 * (lin % 64)) 8) poison)
          (t.blockLins blk) with
      | (s, .stop c) => (s, .stop c)
      | (s, .ok _) => (s, .ok d)
    else
      let elems := (t.blockLins blk).map fun lin => (lin, getBytes w (8 * (lin % 64)) 4)
      match s.writeElems t poison elems with
      | (s, .stop c) => (s, .stop c)
      | (s, .ok _) => (s, .ok ⟨if poison then d.stored else d.stored ++ elems.map fun e => (e.1, e.2, 0), d.anchors⟩)

/-- Deliver blocks in order. -/
def State.deliverBlocks (s : State) (b : Bucket) (t : TensorDesc) : List Nat → Delivery → State × Res Delivery
  | [], d => (s, .ok d)
  | x :: l, d =>
    match (if b.kind = 0 then s.deliverOre b t x d else s.deliverSel b t x d) with
    | (s, .stop c) => (s, .stop c)
    | (s, .ok d) => State.deliverBlocks s b t l d

/-- Does a delivery store elements through DEST's descriptor (03 R73): a converted sum, or a maximum or minimum.
(DESIGN CHOICE: notes/assumptions/101) -/
def Bucket.convertsOut (b : Bucket) : Bool := (b.kind = 0 && b.get 30 1 ≠ 2) || b.kind = 3 || b.kind = 4

/-- The reports and counts of a delivery (R351, R352), and the command's work is done. -/
def State.reportDelivery (s : State) (b : Bucket) (shaft cmd count mask : Nat) (anchors : List Int) : State :=
  let n := s.membersOf b.entry
  let lo := anchors.foldl min (anchors.headD 0)
  let hi := anchors.foldl max (anchors.headD 0)
  let s := s.report b.step ⟨1, false, false, shaft, packFields
    [(2, b.num), (1, (decide (b.included = some false)).toNat), (1, b.reshifts), (4, count), (4, mask), (2, ofInt 16 lo),
     (2, ofInt 16 hi)]⟩
  let s := (s.bump Reg.hstBucketCnt).bumpN Reg.hstExcludedCnt (n - count)
  (s.modBucket b.num fun b => { b with delivered := true }).cmdDone shaft cmd

/-- The addresses that a delivery writes. -/
def Bucket.deliverSpans (b : Bucket) (t : TensorDesc) : List (Nat × Nat) :=
  (if b.get 16 8 = 0 then [] else [(b.get 16 8, 2 * b.size)]) ++ destSpans b.entry t 1

/-- BUCKET_DELIVER (R343, R356): a started COLLECTIVE whose blocks are all final is delivered; a gather whose copy is whole
and that every W peer has reported DONE completes. Raw ore, a state and a gather update no assay record.
(DESIGN CHOICE: notes/assumptions/101) -/
def execBucketDeliver (bucket : Nat) (s : State) : Host.Outcome State Fault Refusal :=
  let s := s.pumpHoist bucket
  match s.bucket? bucket with
  | none => .next s
  | some b =>
    match b.cmd, b.dest with
    | some (shaft, cmd), some t =>
      if b.failed || b.delivered || b.stage.isSome then .next s
      else if b.gather then
        let heard := !b.dims.contains 0 || s.wPeers.all fun c => b.doneFrom.contains c
        if s.whole b && (s.doneDue b).isNone && heard then
          let n := s.membersOf b.entry
          .next (s.reportDelivery b shaft cmd n (2 ^ s.ring ((b.dims.getLast?).getD 0) - 1) [])
        else .next s
      else if (b.deliverSpans t).any fun x => s.cowWaits x.1 x.2 then
        .next (s.waitOn (.bucket bucket 1) (.copies (b.deliverSpans t)))
      else
        match s.deliverBlocks b t (List.range b.size) ⟨[], []⟩ with
        | (s, .stop c) => .next (s.failBucket bucket c)
        | (s, .ok d) =>
          let r := if b.kind = 0 && b.get 30 1 = 2 then s.devWrite none (t.base + b.blockBytes * b.size) 8 b.total
            else (s, Res.ok ())
          match r with
          | (s, .stop c) => .next (s.failBucket bucket c)
          | (s, .ok _) =>
            let s := if b.convertsOut then s.assayStore none t 1 d.stored else s
            .next (s.reportDelivery b shaft cmd b.total b.firstMask d.anchors)
    | _, _ => .next s

/-- BTAB_BASE_WRITE (R357): discarded while any bucket is open; bits [17:0] of the address are 0. -/
def execBtabBaseWrite (hi : Bool) (val : Nat) (s : State) : Host.Outcome State Fault Refusal :=
  if !s.up 5 then .next s else
  let s := s.noteReserved (if hi then Reg.hstBtabBase1 else Reg.hstBtabBase0) val
  if !s.buckets.isEmpty then .next s
  else if hi then .next (s.setReg Reg.hstBtabBase1 (val % 2 ^ 25))
  else .next (s.setReg Reg.hstBtabBase0 (val % 2 ^ 32 / 2 ^ 18 * 2 ^ 18))

end Sys2Proof.Machine
end

