-- ==== Sys2Proof/Machine/TensorIO.lean ====
section
/-!
DEFINITION. Reading and writing tensor elements by the headframe engines (02 R35-R40, 08 R216): the riffle (13) and the
smelter (14).
-/
namespace Sys2Proof.Machine

/-- Read one byte. -/
def State.readByte (s : State) (va : Nat) : State × Res (Nat × Bool) := s.devRead none va 1

/-- The scale byte of an element (02 R36), 127 in an unscaled tensor. -/
def State.readScale (s : State) (t : TensorDesc) (lin : Nat) : State × Res (Nat × Bool) :=
  if t.mx then s.readByte (t.scale + t.scaleIdx (t.index lin)) else (s, .ok (127, false))

/-- Read an element: its value under R42 and R37, its bits, and whether a marked word was met. -/
def State.readElem (s : State) (t : TensorDesc) (lin : Nat) : State × Res (Val × Nat × Bool) :=
  let f := Fmt.ofCode t.fmt
  let p := t.pos (t.index lin)
  match s.devRead none (t.base + p.1) (t.elemBytes p.2) with
  | (s, .stop c) => (s, .stop c)
  | (s, .ok (w, bad)) =>
    match s.readScale t lin with
    | (s, .stop c) => (s, .stop c)
    | (s, .ok (x, xbad)) =>
      let w := bits w (p.2 + f.width - 1) p.2
      (s, .ok (if t.mx then f.decodeScaled x w else f.decode w, w, bad || xbad))

/-- Write the bits of the element at given indices; the other bits of its bytes stay. -/
def State.writeAt (s : State) (t : TensorDesc) (at_ : Nat × Nat × Nat × Nat) (w : Nat) : State × Res Unit :=
  let f := Fmt.ofCode t.fmt
  let p := t.pos at_
  let n := t.elemBytes p.2
  if f.width % 8 = 0 then s.devWrite none (t.base + p.1) n w
  else
    match s.devRead none (t.base + p.1) n with
    | (s, .stop c) => (s, .stop c)
    | (s, .ok (old, _)) => s.devWrite none (t.base + p.1) n (putBits old (p.2 + f.width - 1) p.2 w)

/-- Elements that a row of `n` takes in memory: its padding under R35 and R36, and whole bytes. -/
def TensorDesc.rowElems (t : TensorDesc) (n : Nat) : Nat :=
  if (Fmt.ofCode t.fmt).width = 4 then (t.stored n + 1) / 2 * 2 else t.stored n

/-- The places of the padding elements that follow an element: the rest of a row that it ends, and of the last block along another
block dimension (02 R35, R36). -/
def TensorDesc.padding (t : TensorDesc) (i : Nat × Nat × Nat × Nat) : List (Nat × Nat × Nat × Nat) :=
  let past := fun (k v : Nat) => if t.mx && t.bdim = k && v + 1 = t.d k then (List.range (t.ext k)).drop (t.d k) else []
  let ends := (if i.1 + 1 = t.d 0 then (List.range (t.rowElems (t.d 0))).drop (t.d 0) else []).map fun x => (x, i.2)
  ends ++ ((past 1 i.2.1).map fun x => (i.1, x, i.2.2)) ++ ((past 2 i.2.2.1).map fun x => (i.1, i.2.1, x, i.2.2.2)) ++
    ((past 3 i.2.2.2).map fun x => (i.1, i.2.1, i.2.2.1, x))

/-- Padding elements are written as 0 (02 R35). -/
def State.writePadding (s : State) (t : TensorDesc) : List (Nat × Nat × Nat × Nat) → State × Res Unit
  | [] => (s, .ok ())
  | i :: l =>
    match s.writeAt t i 0 with
    | (s, .stop c) => (s, .stop c)
    | (s, .ok _) => State.writePadding s t l

/-- What is stored of an element: its logical index, bits and scale byte, and its conversion status. -/
structure Stored where
  lin : Nat
  w : Nat
  scale : Nat

/-- The draws of stochastic rounding (02 R52, R53): seed, step, tensor identity and use. -/
structure DrawKey where
  seed : Nat
  step : Nat
  tid : Nat
  use : Nat

/-- The draw of an element, when the rounding needs one. -/
def DrawKey.draw (k : DrawKey) (rnd lin : Nat) : Nat :=
  if rnd = 2 then keyedDraw k.seed k.step k.tid lin k.use 0 else 0

/-- Convert elements under a numeric control byte (02 R39, R47-R51): in a block-scaled tensor the elements of a block
together. -/
def convertElems (t : TensorDesc) (ncb : Ncb) (k : DrawKey) (vals : List (Nat × Val)) : List Stored :=
  let f := Fmt.ofCode ncb.fmt
  vals.map fun e =>
    let r := k.draw ncb.rnd e.1
    if ncb.mx then
      let g := t.scaleIdx (t.index e.1)
      let x := blockScale ncb.fmt ((vals.filter fun y => t.scaleIdx (t.index y.1) = g).map (·.2))
      ⟨e.1, (convertScaled f ncb.sat ncb.rnd r x e.2).1, x⟩
    else ⟨e.1, (f.convert ncb.sat ncb.rnd r e.2).1, 0⟩

/-- Write stored elements with the padding that follows them, and their scale bytes. -/
def State.writeStored (s : State) (t : TensorDesc) : List Stored → State × Res Unit
  | [] => (s, .ok ())
  | e :: l =>
    match s.writeAt t (t.index e.lin) e.w with
    | (s, .stop c) => (s, .stop c)
    | (s, .ok _) =>
      match s.writePadding t (t.padding (t.index e.lin)) with
      | (s, .stop c) => (s, .stop c)
      | (s, .ok _) =>
        let r := if t.mx then s.devWrite none (t.scale + t.scaleIdx (t.index e.lin)) 1 e.scale else (s, Res.ok ())
        match r with
        | (s, .stop c) => (s, .stop c)
        | (s, .ok _) => State.writeStored s t l

/-- Convert and write elements of a tensor. A working copy or a combined output updates its assay record by `stores` stores; a write
of another tensor updates none (03 R73). -/
def State.storeElems (s : State) (t : TensorDesc) (ncb : Ncb) (k : DrawKey) (stores : Option Nat) (vals : List (Nat × Val)) :
    State × Res Unit :=
  let l := convertElems t ncb k vals
  match s.writeStored t l with
  | (s, .stop c) => (s, .stop c)
  | (s, .ok _) =>
    (match stores with
      | some n => s.assayStore none t n (l.map fun e => (e.lin, e.w, e.scale))
      | none => s, .ok ())

/-- The ranges that the elements of a tensor and their scale bytes take. -/
def TensorDesc.elemSpans (t : TensorDesc) (lins : List Nat) : List (Nat × Nat) :=
  lins.flatMap fun n =>
    let p := t.pos (t.index n)
    (t.base + p.1, t.elemBytes p.2) :: (if t.mx then [(t.scale + t.scaleIdx (t.index n), 1)] else [])

/-- The elements to store when the values up to `hi` of a tensor are known and those below `lo` are stored: those of
`[lo, hi)`, or in a block-scaled tensor those of the blocks that `[lo, hi)` completes. -/
def storeRange (t : TensorDesc) (lo hi : Nat) : List Nat :=
  if t.mx then
    (List.range hi).filter fun n =>
      let g := t.scaleIdx (t.index n)
      let top := ((List.range t.count).filter fun m => t.scaleIdx (t.index m) = g).foldl max 0
      decide (lo ≤ top) && decide (top < hi)
  else (List.range (hi - lo)).map (· + lo)

/-- Does a control byte fit a tensor's format. -/
def Ncb.fits (b : Ncb) (t : TensorDesc) : Bool := b.fmt = t.fmt && b.mx = t.mx

/-- The address ranges that stores into a tensor write: its rows and its scale bytes. -/
def TensorDesc.stores (t : TensorDesc) : List (Nat × Nat) :=
  t.spans (t.bytes (t.stored (t.d 0))) ++
    (if t.mx then [(t.scale, t.grid 0 * t.grid 1 * t.grid 2 * t.grid 3)] else [])

end Sys2Proof.Machine
end

