-- ==== Sys2Proof/Machine/Riffle.lean ====
section
/-!
DEFINITION. The riffle (13): expert dispatch in its three phases, the combine, teacher streams and frozen regions.
-/
namespace Sys2Proof.Machine

/-! ## Riffle entries (R358-R362) -/

/-- `n` bytes of an operation's entry from byte `lo` (Table 13.2). -/
def Riffle.get (o : Riffle) (lo n : Nat) : Nat := getBytes o.entry lo n

/-- The selected dimensions of a riffle entry. -/
def rflDims (e : Nat) : List Nat := (List.range 4).filter fun d => (getBytes e 84 1).testBit d

/-- Members of the group of an entry (R358). -/
def State.rflMembers (s : State) (e : Nat) : Nat := ((rflDims e).map s.ring).foldl (· * ·) 1

/-- The factor of a dimension in a member index (R358, 12 R355). -/
def State.rflFactor (s : State) (e d : Nat) : Nat := (((rflDims e).filter (· < d)).map s.ring).foldl (· * ·) 1

/-- This module's member index. -/
def State.rflSelf (s : State) (e : Nat) : Nat :=
  ((rflDims e).map fun d => coord s.node d * s.rflFactor e d).foldl (· + ·) 0

/-- The node of a member. -/
def State.rflNode (s : State) (e m : Nat) : Nat :=
  (rflDims e).foldl (fun n d => withCoord n d (m / s.rflFactor e d % s.ring d)) s.node

/-- T, the local tokens. -/
def Riffle.tokens (o : Riffle) : Nat := o.get 76 2
/-- CAP. -/
def Riffle.cap (o : Riffle) : Nat := o.get 78 2
/-- The length of a row in bytes. -/
def Riffle.row (o : Riffle) : Nat := 64 * o.get 80 2
/-- EPM. -/
def Riffle.epm (o : Riffle) : Nat := o.get 82 1
/-- K. -/
def Riffle.k (o : Riffle) : Nat := o.get 83 1
/-- TBASE. -/
def Riffle.tbase (o : Riffle) : Nat := o.get 72 4
/-- XFMT. -/
def Riffle.fmt (o : Riffle) : Fmt := Fmt.ofCode (o.get 85 1)

/-- Elements of a row of an entry (Table 13.2). -/
def rflH (e : Nat) : Nat := 64 * getBytes e 80 2 * 8 / (Fmt.ofCode (getBytes e 85 1)).width

/-- Is an entry as Table 13.2, R358 and R359 require. -/
def State.rflEntryOk (s : State) (e : Nat) : Bool :=
  let g := fun (lo n : Nat) => getBytes e lo n
  let n := s.rflMembers e
  (g 86 1).testBit 0 && g 86 1 / 4 = 0 && g 88 40 = 0 && g 0 8 % 8 = 0 && g 8 8 % 64 = 0 && g 56 8 % 16 = 0 &&
  1 ≤ g 76 2 && 1 ≤ g 78 2 && decide (1 ≤ g 80 2 ∧ g 80 2 ≤ 1024) && 1 ≤ g 82 1 && decide (1 ≤ g 83 1 ∧ g 83 1 ≤ 16) &&
  g 84 1 / 16 = 0 && (rflDims e).all (fun d => 2 ≤ s.ring d) && g 85 1 ≤ 2 &&
  (Ncb.ofNat (g 87 1)).ok && n ≤ 4096 && n * g 82 1 ≤ 65536

/-- Does OUTD match an entry (R363, Table 13.2). -/
def outdFits (e : Nat) (t : TensorDesc) : Bool :=
  t.rank = 2 && t.d 0 = rflH e && t.d 1 = getBytes e 76 2 && (Ncb.ofNat (getBytes e 87 1)).fits t

/-- The address of slot `s` of local expert `x` in XIN or XOUT. -/
def Riffle.slotAddr (o : Riffle) (base x slot : Nat) : Nat := base + (x * o.cap + slot) * o.row

/-! ## Open operations (R364) -/

/-- The open operation of an identifier. -/
def State.rfl? (s : State) (id : Nat) : Option Riffle := s.riffles.find? (·.id = id)

/-- The open DISPATCH or COMBINE of an entry. -/
def State.rflOf (s : State) (num : Nat) : Option Riffle := s.riffles.find? fun o => o.num = num && o.oper ≠ 3

/-- Change an open operation. -/
def State.modRfl (s : State) (id : Nat) (f : Riffle → Riffle) : State :=
  { s with riffles := s.riffles.map fun o => if o.id = id then f o else o }

/-- Open an operation (R364). -/
def State.openRfl (s : State) (num e oper : Nat) (step : StepId) (cmd : Option (Nat × Nat)) (raw : Nat) : Riffle × State :=
  let r := s.newId
  let o : Riffle :=
    { id := r.1, num, entry := e, oper, step, cmd, raw, badSeal := s.flag Reg.rflCtrl Fld.rflCtrlBadexpSeal,
      dropEvent := s.flag Reg.rflCtrl Fld.rflCtrlDropEvent, todo := [], census := [], censusFrom := [], verdicts := [],
      verdictFrom := [], decided := false, masked := false, rowsFrom := [], held := [], added := 0, converted := false, bad := false,
      outd := none, failed := false, finished := false }
  (o, r.2.setRiffles (r.2.riffles ++ [o]))

/-- The entry of an index, read from the riffle table (R362). -/
def State.readRflEntry (s : State) (n : Nat) : State × Res (Nat × Bool) :=
  s.devRead none (s.reg Reg.rflTabBase0 + s.fld Reg.rflTabBase1 Fld.rflTabBaseBaseHi * 2 ^ 32 + 128 * n) 128

/-- An operation ends as failed (R368). -/
def State.failRfl (s : State) (id cause : Nat) : State :=
  match s.rfl? id with
  | none => s
  | some o =>
    if o.failed || o.finished then s
    else
      let s := (s.modRfl id fun o => { o with failed := true, todo := [] }).bump Reg.rflFailCnt
      let s := s.report o.step
        ⟨9, true, false, (o.cmd.map (·.1)).getD 0, packFields [(1, 2), (1, engineCause 2 cause), (2, o.num), (8, 0)]⟩
      match o.cmd with
      | some (shaft, cmd) => s.cmdDone shaft cmd
      | none => s

/-! ## Transfers (R365, R368, R369, R373) -/

/-- The riffle header (Table 13.5). -/
def rflHeader (num phase member step first nitem : Nat) : Nat :=
  packFields [(2, num), (1, phase), (1, 0), (2, member), (2, 0), (4, step), (4, first), (2, nitem), (14, 0)]

/-- A riffle packet to a member. -/
def State.rflPacket (s : State) (o : Riffle) (m phase first nitem bytes val : Nat) (poison : Bool) : Packet :=
  { s.newPacket (s.rflNode o.entry m) 2 6 with
    plen := 32 + bytes, poison
    payload := rflHeader o.num phase (s.rflSelf o.entry) o.step.num first nitem + 2 ^ 256 * val }

/-- Packets of 8-byte items, 252 to a packet; no items at all still travel as one packet (R365). -/
def State.itemPackets (s : State) (o : Riffle) (m phase : Nat) (items : List Nat) : List Packet :=
  let cs := (List.range ((items.length + 251) / 252)).map fun i => (items.drop (252 * i)).take 252
  (if cs.isEmpty then [[]] else cs).map fun c =>
    s.rflPacket o m phase 0 c.length (8 * c.length) (packElems 64 c) false

/-- The pieces of a row (R368): offset and length. -/
def rowPieces (row : Nat) : List (Nat × Nat) :=
  (List.range ((row + 1983) / 1984)).map fun i => (1984 * i, min 1984 (row - 1984 * i))

/-- The packets of rows: each with its 8-byte prefix and its address. (DESIGN CHOICE: notes/assumptions/57) -/
def State.rowPackets (s : State) (o : Riffle) (m phase : Nat) : List (Nat × Nat) → State × Res (List Packet)
  | [] => (s, .ok [])
  | (pre, va) :: l =>
    match s.devRead none va o.row with
    | (s, .stop c) => (s, .stop c)
    | (s, .ok (w, _)) =>
      let mk := (rowPieces o.row).map fun x =>
        let bad := match s.xlateSpan none (va + x.1) x.2 false (spanPages x.2) with
          | (s, .ok runs) => runs.any fun r => s.marked r.1 r.2
          | _ => false
        s.rflPacket o m phase (x.1 / 64) 1 (8 + x.2) (pre + 2 ^ 64 * getBytes w x.1 x.2) bad
      match State.rowPackets s o m phase l with
      | (s, .stop c) => (s, .stop c)
      | (s, .ok ps) => (s, .ok (mk ++ ps))

/-- A route entry (Table 13.1). -/
structure Route where
  token : Nat
  j : Nat
  none : Bool
  rsv : Bool
  expert : Nat
  weight : Nat

/-- The route list of an operation (R360). -/
def State.routes (s : State) (o : Riffle) : State × Res (List Route) :=
  let n := o.tokens * o.k
  match s.devRead none (o.get 0 8) (8 * n) with
  | (s, .stop c) => (s, .stop c)
  | (s, .ok (w, _)) =>
    (s, .ok ((List.range n).map fun i =>
      let e := getBytes w (8 * i) 8
      ⟨i / o.k, i % o.k, e.testBit 63, bits e 62 48 ≠ 0, bits e 47 32, e % 2 ^ 32⟩))

/-- Is a choice valid (R361). -/
def State.choiceOk (s : State) (o : Riffle) (r : Route) : Bool :=
  !r.none && !r.rsv && r.expert < s.rflMembers o.entry * o.epm

/-- XCNT of a local expert. -/
def State.xcnt (s : State) (o : Riffle) (x : Nat) : State × Res (Nat × Bool) := s.devRead none (o.get 40 8 + 4 * x) 4

/-- The returns that a COMBINE sends: token, choice, member and address of the row (R369). -/
def State.returnsOf (s : State) (o : Riffle) : State × Res (List (Nat × Nat × Nat × Nat)) :=
  let r := (List.range o.epm).foldl (fun (r : State × Option Nat × List (Nat × Nat)) x =>
    match r.2.1, r.1.xcnt o x with
    | some _, _ => r
    | none, (s, .stop c) => (s, some c, r.2.2)
    | none, (s, .ok (n, _)) => (s, none, r.2.2 ++ (List.range (min n o.cap)).map fun i => (x, i))) (s, none, [])
  match r.2.1 with
  | some c => (r.1, .stop c)
  | none =>
    let q := r.2.2.foldl (fun (q : State × Option Nat × List (Nat × Nat × Nat × Nat)) y =>
      match q.2.1, q.1.devRead none (o.get 32 8 + 16 * (y.1 * o.cap + y.2)) 16 with
      | some _, _ => q
      | none, (s, .stop c) => (s, some c, q.2.2)
      | none, (s, .ok (e, _)) =>
        (s, none, q.2.2 ++ [(getBytes e 0 4, getBytes e 6 1 % 16, getBytes e 4 2, o.slotAddr (o.get 24 8) y.1 y.2)]))
      (r.1, none, [])
    match q.2.1 with
    | some c => (q.1, .stop c)
    | none => (q.1, .ok q.2.2)

/-- Bytes of a teacher record (R373). -/
def recBytes (k : Nat) : Nat := 8 * k + 4

/-- The packets of a TEACH (R373): whole records, each packet with the address of its first record on the student. -/
def State.teachPackets (s : State) (o : Riffle) : State × Res (List Packet) :=
  let g := fun (lo n : Nat) => getBytes o.raw lo n
  let k := g 44 1
  let n := g 40 4
  let per := 2016 / recBytes k
  let mcast := (g 36 4).testBit 24
  (List.range ((n + per - 1) / per)).foldl (fun (r : State × Res (List Packet)) i =>
    match r with
    | (s, .stop c) => (s, .stop c)
    | (s, .ok ps) =>
      let cnt := min per (n - per * i)
      let off := per * i * recBytes k
      match s.devRead none (g 20 8 + off) (cnt * recBytes k) with
      | (s, .stop c) => (s, .stop c)
      | (s, .ok (w, bad)) =>
        let p : Packet := { s.newPacket (if mcast then bits (g 36 4) 5 0 else bits (g 36 4) 17 0) 5 6 with
          mcast, esc := mcast, plen := 32 + cnt * recBytes k, poison := bad, rsig := true, rtally := g 46 2,
          addr := (g 28 8 + off) % 2 ^ 57
          payload := rflHeader 0 4 0 o.step.num (per * i) cnt + 2 ^ 256 * w }
        (s, .ok (ps ++ [p]))) (s, .ok [])

/-- The packets of one transfer of an operation: census, verdict, rows or returns for a member, or the teacher records. -/
def State.rflPackets (s : State) (o : Riffle) (phase m : Nat) : State × Res (List Packet) :=
  match phase with
  | 0 =>
    (match s.routes o with
     | (s, .stop c) => (s, .stop c)
     | (s, .ok l) =>
       let own := l.filter fun r => s.choiceOk o r && r.expert / o.epm = m
       (s, .ok (s.itemPackets o m 0 (own.map fun r => o.tbase + r.token + r.expert * 2 ^ 32 + r.j * 2 ^ 48))))
  | 1 =>
    (s, .ok (s.itemPackets o m 1 ((o.census.filter (·.member = m)).map fun r =>
      r.token + r.slot * 2 ^ 32 + r.j * 2 ^ 48 + r.kept.toNat * 2 ^ 52)))
  | 2 =>
    (match s.routes o with
     | (s, .stop c) => (s, .stop c)
     | (s, .ok l) =>
       let kept := o.verdicts.filter fun v => v.member = m && v.kept
       let rows := kept.filterMap fun v =>
         (l.find? fun r => o.tbase + r.token = v.token && r.j = v.j).map fun r =>
           (v.slot + r.expert % o.epm * 2 ^ 16, o.get 8 8 + r.token * o.row)
       s.rowPackets o m 2 rows)
  | 3 =>
    (match s.returnsOf o with
     | (s, .stop c) => (s, .stop c)
     | (s, .ok l) =>
       s.rowPackets o m 3 ((l.filter fun r => r.2.2.1 = m).map fun r => (r.1 + r.2.1 * 2 ^ 32, r.2.2.2)))
  | _ => s.teachPackets o

/-- The transfers of an operation that are not acknowledged yet, of a phase. (DESIGN CHOICE: notes/assumptions/57) -/
def State.rflXfers (s : State) (o : Riffle) (phase : Nat) : List Xfer :=
  s.xfers.filter fun x => x.engine = 2 && x.key = o.id * 8 + phase

/-- Send the transfers that are due, while there is room for their tickets (15 R410). -/
def State.rflSend (s : State) (id : Nat) : Nat → State
  | 0 => s
  | fuel + 1 =>
    match s.rfl? id with
    | none => s
    | some o =>
      match o.todo with
      | [] => s
      | (phase, m) :: l =>
        if !s.ticketRoom then s.ticketWait (.riffle id 0)
        else
          let s := s.modRfl id fun o => { o with todo := l }
          match s.rflPackets o phase m with
          | (s, .stop c) => s.failRfl id c
          | (s, .ok ps) =>
            let mcast := phase = 4 && (getBytes o.raw 36 4).testBit 24
            let s := if ps.isEmpty then s else s.sendCounted o.step 3 2 (id * 8 + phase) mcast ps
            State.rflSend s id fuel

/-- Bits of AMASK of an operation's tokens. -/
def State.expected (s : State) (o : Riffle) : State × Res Nat :=
  match s.devRead none (o.get 48 8) (2 * o.tokens) with
  | (s, .stop c) => (s, .stop c)
  | (s, .ok (w, _)) => (s, .ok ((List.range (16 * o.tokens)).filter w.testBit).length)

/-- Is a packet of a transfer still in the module. -/
def State.inModule (s : State) (o : Riffle) : Bool :=
  let own := fun (p : Packet) => p.src = s.node && p.kind = 6 && p.cls = 5 && p.mcast &&
    p.payload % 2 ^ 256 / 2 ^ 64 % 2 ^ 32 = o.step.num % 2 ^ 32 && p.rtally = getBytes o.raw 46 2
  s.inject.any (fun q => own q.pkt) || s.adits.any fun x => (x.2.queue ++ x.2.sending.toList).any fun q => own q.pkt

/-- Have all conditions of an operation's completion been met (R365, R369, R373). -/
def State.rflComplete (s : State) (o : Riffle) : Bool :=
  o.todo.isEmpty && (match o.oper with
    | 1 => o.masked && o.decided && (s.rflXfers o 2).isEmpty &&
        (o.census.filter (·.kept)).all fun c => o.rowsFrom.contains c.member
    | 2 => o.converted && (s.rflXfers o 3).isEmpty
    | _ => (s.rflXfers o 4).isEmpty && !s.inModule o)

/-- The completion counter of an operation. -/
def rflCounter (oper : Nat) : Nat :=
  match oper with
  | 1 => Reg.rflDispatchCnt
  | 2 => Reg.rflCombineCnt
  | _ => Reg.rflTeachCnt

/-- An operation sends what is due, and its command's work is done when everything is. -/
def State.pumpRfl (s : State) (id : Nat) : State :=
  let s := (s.waitDone (.riffle id 0)).rflSend id 8192
  match s.rfl? id with
  | none => s
  | some o =>
    match o.cmd with
    | some (shaft, cmd) =>
      if !o.failed && !o.finished && s.rflComplete o then
        ((s.modRfl id fun o => { o with finished := true }).bump (rflCounter o.oper)).cmdDone shaft cmd
      else s
    | none => s

/-! ## The RIFFLE commands (R363, R365, R369, R373) -/

/-- Invalid choices are counted and reported (R361). -/
def State.badChoices (s : State) (o : Riffle) (l : List Route) : State :=
  (l.filter fun r => !r.none && !s.choiceOk o r).foldl (fun s r =>
    (s.bump Reg.rflBadexpCnt).report o.step
      ⟨8, o.badSeal, false, (o.cmd.map (·.1)).getD 0, packFields [(2, o.num), (4, o.tbase + r.token), (1, r.j)]⟩) s

/-- The ranges that an operation writes on its own module (R375). -/
def rflSpans (e oper : Nat) (t : TensorDesc) : List (Nat × Nat) :=
  let g := fun (lo n : Nat) => getBytes e lo n
  let slots := g 82 1 * g 78 2
  if oper = 1 then
    [(g 16 8, slots * 64 * g 80 2), (g 40 8, 4 * g 82 1), (g 32 8, 16 * slots), (g 48 8, 2 * g 76 2)]
  else (g 56 8, 96 * g 76 2 * rflH e) :: t.stores

/-- Start a DISPATCH or COMBINE on its open or newly opened operation. -/
def State.startRfl (s : State) (shaft : Nat) (c : Command) (num e oper : Nat) (outd : Option TensorDesc) : State :=
  let step := (s.shaft shaft).step.getD noStep
  let cmd := some (shaft, c.id)
  let r := match s.rflOf num with
    | some o => (o.id, s.modRfl o.id fun o => { o with cmd, step })
    | none =>
      let r := s.openRfl num e oper step cmd c.raw
      (r.1.id, r.2)
  let s := r.2
  let all := (List.range (s.rflMembers e)).map fun m => (if oper = 1 then 0 else 3, m)
  let s := s.modRfl r.1 fun o => { o with todo := all, outd }
  match s.rfl? r.1 with
  | none => s
  | some o =>
    let s := if oper = 1 then
        (match s.routes o with
         | (s, .stop c) => s.failRfl o.id c
         | (s, .ok l) => s.badChoices o l)
      else s
    s.pumpRfl o.id

/-- DISPATCH and COMBINE (R363): judged, and started. -/
def State.riffleCommand (s : State) (shaft oper : Nat) (c : Command) : State × Verdict :=
  let num := c.get 16 2
  if c.get 19 1 ≠ 0 ∨ c.get 20 44 ≠ 0 then (s, .refuse 2)
  else if 1024 ≤ num then (s, .refuse 7)
  else
    match s.readRflEntry num with
    | (s, .stop _) => (s, .refuse 5)
    | (s, .ok (e, bad)) =>
      let r := if s.rflEntryOk e then s.readDescs [getBytes e 64 8] else (s, [], [])
      let s := r.1
      let misfit := r.2.1.any fun t => !outdFits e t
      let busy := match s.rflOf num with
        | some o => o.cmd.isSome || o.oper ≠ oper
        | none => false
      let frozen := r.2.1.any fun t => s.anyFrozen (rflSpans e oper t)
      match firstCause [(r.2.2.contains 4 || misfit, 4), (bad || r.2.2.contains 5, 5),
          (!s.rflEntryOk e || busy || frozen, 7)] with
      | some k => (s, .refuse k)
      | none =>
        if (s.rflOf num).isNone ∧ 16 ≤ s.riffles.length then (s, .hold)
        else if (s.rflOf num).any (·.failed) then
          (match s.rflOf num with
           | some o => (s.modRfl o.id fun o => { o with cmd := some (shaft, c.id) },
               .start { s.startedAs shaft c .done with failed := true })
           | none => (s, .hold))
        else ((s.beginCommand shaft (s.startedAs shaft c .working)).startRfl shaft c num e oper r.2.1.head?, .hold)

/-- RIFFLE with OPER = 1, DISPATCH (R365). A reserved OPER is refused here (R363). -/
def execRiffleDispatch (shaft : Nat) (s : State) : Host.Outcome State Fault Refusal :=
  match s.headCommand shaft with
  | none => .next s
  | some c =>
    if c.op = 0x12 ∧ (c.get 18 1 = 2 ∨ c.get 18 1 = 3) then .next s
    else .next (s.startCommand shaft 0x12 fun s c =>
      if c.get 18 1 ≠ 1 then (s, .refuse 7) else s.riffleCommand shaft 1 c)

/-- RIFFLE with OPER = 2, COMBINE (R369). -/
def execRiffleCombine (shaft : Nat) (s : State) : Host.Outcome State Fault Refusal :=
  match s.headCommand shaft with
  | none => .next s
  | some c =>
    if c.get 18 1 ≠ 2 then .next s else .next (s.startCommand shaft 0x12 fun s c => s.riffleCommand shaft 2 c)

/-- Open TEACH operations see whether they are complete (R373). -/
def State.pumpTeach (s : State) : State :=
  (s.riffles.filter fun o => o.oper = 3).foldl (fun s o => s.pumpRfl o.id) s

/-- RIFFLE with OPER = 3, TEACH (R373). -/
def execRiffleTeach (shaft : Nat) (s : State) : Host.Outcome State Fault Refusal :=
  let s := s.pumpTeach
  match s.headCommand shaft with
  | none => .next s
  | some c =>
    if c.get 18 1 ≠ 3 then .next s
    else .next (s.startCommand shaft 0x12 fun s c =>
      let tg := c.get 36 4
      match firstCause [
          (decide (c.get 16 2 ≠ 0 ∨ c.get 19 1 ≠ 0 ∨ tg / 2 ^ 25 ≠ 0 ∨ bits tg 23 18 ≠ 0 ∨ c.get 45 1 ≠ 0 ∨
            c.get 48 16 ≠ 0 ∨ (tg.testBit 24 ∧ bits tg 17 6 ≠ 0)), 2),
          (decide (c.get 20 8 % 4 ≠ 0 ∨ c.get 28 8 % 4 ≠ 0), 5), (decide (c.get 44 1 = 0 ∨ 16 < c.get 44 1), 7)] with
      | some k => (s, .refuse k)
      | none =>
        if c.get 40 4 = 0 then (s.bump Reg.rflTeachCnt, .start (s.startedAs shaft c .done))
        else if 16 ≤ s.riffles.length then (s, .hold)
        else
          let s := s.beginCommand shaft (s.startedAs shaft c .working)
          let r := s.openRfl 0 0 3 ((s.shaft shaft).step.getD noStep) (some (shaft, c.id)) c.raw
          ((r.2.modRfl r.1.id fun o => { o with todo := [(4, 0)] }).pumpRfl r.1.id, .hold))

/-! ## Capacity (R366) -/

/-- Does a listed choice come before another in the order of R366. -/
def RflItem.before (a b : RflItem) : Bool := a.token < b.token || (a.token = b.token && a.j < b.j)

/-- Decide the listed choices of one expert: each gets its rank; the first CAP are kept. -/
def decideChoices (cap : Nat) (l : List RflItem) : List RflItem :=
  l.map fun a =>
    let rank := (l.filter fun b => b.expert = a.expert && b.before a).length
    { a with slot := if rank < cap then rank else 0, kept := rank < cap }

/-- Writes that a step of an operation makes: address, bytes, value. -/
def State.writeAll (s : State) : List (Nat × Nat × Nat) → State × Res Unit
  | [] => (s, .ok ())
  | (va, n, v) :: l =>
    match s.devWrite none va n v with
    | (s, .stop c) => (s, .stop c)
    | (s, .ok _) => State.writeAll s l

/-- CAPACITY_DECIDE (R366): once all censuses are in, XCNT and SMAP are written and the verdicts sent. -/
def execCapacityDecide (entry : Nat) (s : State) : Host.Outcome State Fault Refusal :=
  match s.rflOf entry with
  | none => .next s
  | some o =>
    let n := s.rflMembers o.entry
    if o.oper ≠ 1 ∨ o.decided ∨ o.failed ∨ o.cmd.isNone ∨ o.censusFrom.length < n then .next s
    else
      let l := decideChoices o.cap o.census
      let kept := l.filter (·.kept)
      let xs := (List.range o.epm).map fun x => (o.get 40 8 + 4 * x, 4, (kept.filter (·.expert = x)).length)
      let ms := kept.map fun a =>
        (o.get 32 8 + 16 * (a.expert * o.cap + a.slot), 16, packFields [(4, a.token), (2, a.member), (1, a.j), (9, 0)])
      if (xs ++ ms).any fun w => s.cowWaits w.1 w.2.1 then
        .next (s.waitOn (.riffle o.id 1) (.copies ((xs ++ ms).map fun w => (w.1, w.2.1))))
      else
        match s.writeAll (xs ++ ms) with
        | (s, .stop c) => .next (s.failRfl o.id c)
        | (s, .ok _) =>
          let dropped := l.length - kept.length
          let s := (s.bumpN Reg.rflKeptCnt kept.length).bumpN Reg.rflDropCnt dropped
          let s := s.raiseIf (o.dropEvent && dropped ≠ 0) 8
          let s := s.modRfl o.id fun o =>
            { o with decided := true, census := l, todo := o.todo ++ (List.range n).map fun m => (1, m) }
          .next (s.pumpRfl o.id)

/-- RIFFLE_ROWS_SEND (R365): once all verdicts are in, AMASK is written and the kept rows are sent. -/
def execRiffleRowsSend (entry : Nat) (s : State) : Host.Outcome State Fault Refusal :=
  match s.rflOf entry with
  | none => .next s
  | some o =>
    let n := s.rflMembers o.entry
    if o.oper ≠ 1 ∨ o.masked ∨ o.failed ∨ o.cmd.isNone ∨ o.verdictFrom.length < n then .next s
    else
      let mask := fun (t : Nat) => ((o.verdicts.filter fun v => v.kept && v.token = o.tbase + t).map fun v => 2 ^ v.j).foldl
        (· ||| ·) 0
      let ws := (List.range o.tokens).map fun t => (o.get 48 8 + 2 * t, 2, mask t)
      if ws.any fun w => s.cowWaits w.1 w.2.1 then
        .next (s.waitOn (.riffle o.id 1) (.copies (ws.map fun w => (w.1, w.2.1))))
      else
        match s.writeAll ws with
        | (s, .stop c) => .next (s.failRfl o.id c)
        | (s, .ok _) =>
          let kept := (List.range n).filter fun m => o.verdicts.any fun v => v.kept && v.member = m
          let s := s.modRfl o.id fun o => { o with masked := true, todo := o.todo ++ kept.map fun m => (2, m) }
          .next (s.pumpRfl o.id)

/-! ## Arrivals (R364, R365, R368, R369, R374) -/

/-- Fields of a riffle header. -/
def rPhase (h : Nat) : Nat := getBytes h 2 1
/-- The sender's member index in a riffle header. -/
def rMember (h : Nat) : Nat := getBytes h 4 2

/-- Do the header and the length of a packet keep Tables 13.5 and 13.6. -/
def rflFormOk (h plen : Nat) : Bool :=
  let n := getBytes h 16 2
  getBytes h 3 1 = 0 && getBytes h 6 2 = 0 && getBytes h 18 14 = 0 && 32 ≤ plen &&
  (match rPhase h with
   | 0 => plen = 32 + 8 * n && n ≤ 252
   | 1 => plen = 32 + 8 * n && n ≤ 252
   | 2 => n = 1 && decide (40 < plen ∧ plen ≤ 2024)
   | 3 => n = 1 && decide (40 < plen ∧ plen ≤ 2024)
   | 4 => 1 ≤ n && (List.range 17).any fun k => 1 ≤ k && plen = 32 + n * recBytes k
   | _ => false)

/-- Census items of a packet for this member (Table 13.6), when they are well formed. -/
def State.censusItems (s : State) (o : Riffle) (m n v : Nat) : Option (List RflItem) :=
  let l := (List.range n).map fun i => getBytes v (8 * i) 8
  let self := s.rflSelf o.entry
  if l.all fun w => w / 2 ^ 52 = 0 && bits w 47 32 / o.epm = self && bits w 51 48 < o.k then
    some (l.map fun w => ⟨m, w % 2 ^ 32, bits w 47 32 % o.epm, bits w 51 48, 0, false⟩)
  else none

/-- Verdict items of a packet, when they are well formed. -/
def verdictItems (o : Riffle) (m n v : Nat) : Option (List RflItem) :=
  let l := (List.range n).map fun i => getBytes v (8 * i) 8
  if l.all fun w => w / 2 ^ 53 = 0 && bits w 51 48 < o.k && decide (o.tbase ≤ w % 2 ^ 32) &&
      decide (w % 2 ^ 32 < o.tbase + o.tokens) && (!w.testBit 52 || bits w 47 32 < o.cap) then
    some (l.map fun w => ⟨m, w % 2 ^ 32, 0, bits w 51 48, bits w 47 32, w.testBit 52⟩)
  else none

/-- A piece of a row lands in XIN (R365): only in a slot that the operation assigned. -/
def State.takeRow (s : State) (o : Riffle) (p : Packet) : Take :=
  let h := p.payload % 2 ^ 256
  let v := p.payload / 2 ^ 256
  let slot := v % 2 ^ 16
  let x := bits v 23 16
  let off := 64 * getBytes h 12 4
  let n := p.plen - 40
  if v / 2 ^ 24 % 2 ^ 40 ≠ 0 ∨ o.row < off + n then .refuse s causeHeader
  else if !(o.census.any fun a => a.kept && a.member = rMember h && a.expert = x && a.slot = slot) then
    .refuse s causeHeader
  else
    let va := o.slotAddr (o.get 16 8) x slot + off
    if s.cowWaits va n then .wait (s.waitOn (.packet p) (.copies [(va, n)]))
    else
      match s.writeOrPoison va n (v / 2 ^ 64) p.poison with
      | (s, .stop c) => .refuse (s.failRfl o.id c) c
      | (s, .ok _) => .took s

/-- A packet reaches its open operation. -/
def State.rflInto (s : State) (o : Riffle) (p : Packet) : Take :=
  let h := p.payload % 2 ^ 256
  let v := p.payload / 2 ^ 256
  let m := rMember h
  let n := getBytes h 16 2
  let oper := if rPhase h = 3 then 2 else 1
  if s.rflMembers o.entry ≤ m then .refuse s causeHeader
  else if o.failed ∨ o.finished ∨ o.oper ≠ oper then .wait s
  else
    match rPhase h with
    | 0 =>
      if o.censusFrom.contains m ∨ o.decided then .wait s
      else
        match s.censusItems o m n v with
        | some l => .took (s.modRfl o.id fun o => { o with census := o.census ++ l })
        | none => .refuse s causeHeader
    | 1 =>
      if o.verdictFrom.contains m ∨ o.cmd.isNone then .wait s
      else
        match verdictItems o m n v with
        | some l => .took (s.modRfl o.id fun o => { o with verdicts := o.verdicts ++ l })
        | none => .refuse s causeHeader
    | 2 => if o.decided then s.takeRow o p else .refuse s causeHeader
    | _ =>
      let t := v % 2 ^ 32
      let off := 64 * getBytes h 12 4
      if bits v 63 36 ≠ 0 ∨ t < o.tbase ∨ o.tbase + o.tokens ≤ t ∨ o.k ≤ bits v 35 32 ∨ o.row < off + (p.plen - 40) then
        .refuse s causeHeader
      else .held (s.modRfl o.id fun o => { o with held := o.held ++ [p] })

/-- Teacher records land at their address (R373, R374). -/
def State.takeRecords (s : State) (p : Packet) : Take :=
  let n := p.plen - 32
  if s.cowWaits p.addr n then .wait (s.waitOn (.packet p) (.copies [(p.addr, n)]))
  else
    match s.writeOrPoison p.addr n (p.payload / 2 ^ 256) p.poison with
    | (s, .stop c) => .refuse s c
    | (s, .ok _) => .took s

/-- A RIFFLE packet reaches the riffle (R364, R368). A packet of a return is held until it is accumulated. -/
def State.riffleTake (s : State) (p : Packet) : Take :=
  let h := p.payload % 2 ^ 256
  let num := getBytes h 0 2
  if !rflFormOk h p.plen then .refuse s causeHeader
  else if rPhase h = 4 then s.takeRecords p
  else if 1024 ≤ num then .refuse s causeHeader
  else
    match s.rflOf num with
    | some o => s.rflInto o p
    | none =>
      if 16 ≤ s.riffles.length then .wait (s.waitOn (.packet p) .rifflePlace)
      else
        match s.readRflEntry num with
        | (s, .stop c) => .refuse s c
        | (s, .ok (e, _)) =>
          if !s.rflEntryOk e then .refuse s causeHeader
          else
            let low := getBytes h 8 4
            let step := ((s.steps.find? fun r => r.id.seq = s.seqNo && r.unsealed && r.id.num % 2 ^ 32 = low).map
              (·.id)).getD ⟨s.seqNo, low⟩
            let r := s.openRfl num e (if rPhase h = 3 then 2 else 1) step none 0
            r.2.rflInto r.1 p

/-- A riffle transfer has completed (R323, R365). -/
def State.riffleArrived (s : State) (p : Packet) : State :=
  let h := p.payload % 2 ^ 256
  let m := rMember h
  match s.rflOf (getBytes h 0 2) with
  | none => s
  | some o =>
    let s := match rPhase h with
      | 0 => s.modRfl o.id fun o => { o with censusFrom := m :: o.censusFrom }
      | 1 => s.modRfl o.id fun o => { o with verdictFrom := m :: o.verdictFrom }
      | 2 => s.modRfl o.id fun o => { o with rowsFrom := m :: o.rowsFrom }
      | _ => s
    s.pumpRfl o.id

/-! ## The combine (R369-R372) -/

/-- The product of two elements of different formats as a full-lode value of one term (R370, 03 R86). -/
def prodLode2 (fa fb : Fmt) (wa wb : Nat) : LodeAcc :=
  let one : LodeAcc := { LodeAcc.zero with terms := 1 }
  match fa.elemInt false 0 wa, fb.elemInt false 0 wb with
  | some i, some j => { one with val := i * j }
  | _, _ => one.special (productOf (fa.operand false 0 wa) (fb.operand false 0 wb))

/-- A weighted add refused at its target (R370, 09 R249): left out, counted and reported. -/
def State.badTarget (s : State) (o : Riffle) : State :=
  (s.bump Reg.rflBadimgCnt).report o.step
    ⟨9, true, false, (o.cmd.map (·.1)).getD 0, packFields [(1, 2), (1, engineCause 2 causeHeader), (2, o.num), (8, 0)]⟩

/-- The check outcome of a COMBINE is bad (09 R541): the tickets of its transfers resolve BAD, and its step is poisoned. -/
def State.combineBad (s : State) (o : Riffle) : State :=
  let s := (s.modRfl o.id fun o => { o with bad := true }).setOutcome
    ((s.xfers.filter fun (x : Xfer) => x.engine = 2 && x.key / 8 = o.id).map fun (x : Xfer) => x.ticket) (some 4)
  if o.step.seq = s.seqNo then s.poisonStep o.step.num 4 0 s.node else s

/-- Add one product into an image (R370): a target that takes no atomic or is no full image is left, counted and reported; one that
holds an uncorrectable word is left and makes the outcome bad (09 R541); a poisoned element leaves the poison check pattern. -/
def State.addWeighted (s : State) (o : Riffle) (va : Nat) (v : LodeAcc) (poison : Bool) : State × Res Unit :=
  match s.devRuns none va 96 true with
  | (s, .stop c) => (s, .stop c)
  | (s, .ok runs) =>
    if runs.any fun r => !s.takesAtomic r.1 then (s.refuse.badTarget o, .ok ())
    else
      let r := s.readRuns runs
      if r.2.2 then (r.1.combineBad o, .ok ())
      else if poison then (r.1.poisonRuns runs, .ok ())
      else if fullImageKind r.2.1 ≠ 2 then (r.1.badTarget o, .ok ())
      else (r.1.writeRuns runs (((LodeAcc.ofImage 2 r.2.1).1.addFull v).image 2 0 0) (allBytes 96), .ok ())

/-- Add the elements of a returned piece into the images of its token (R369). -/
def State.addPiece (s : State) (o : Riffle) (p : Packet) : State × Res Unit :=
  let v := p.payload / 2 ^ 256
  let t := v % 2 ^ 32 - o.tbase
  let j := bits v 35 32
  let w := o.fmt.width
  let n := (p.plen - 40) * 8 / w
  let i0 := 64 * getBytes (p.payload % 2 ^ 256) 12 4 * 8 / w
  match s.devRead none (o.get 0 8 + 8 * (t * o.k + j)) 8 with
  | (s, .stop c) => (s, .stop c)
  | (s, .ok (e, marked)) =>
    s.each (fun s i =>
      s.addWeighted o (o.get 56 8 + 96 * (t * rflH o.entry + i0 + i))
        (prodLode2 (Fmt.ofCode 0) o.fmt (e % 2 ^ 32) (bits v (64 + w * i + w - 1) (64 + w * i))) (p.poison || marked)) (List.range n)

/-- Does the image at an address hold a marked word. -/
def State.imageMarked (s : State) (va : Nat) : Bool :=
  match s.xlateSpan none va 96 false (spanPages 96) with
  | (s, .ok runs) => runs.any fun r => s.marked r.1 r.2
  | _ => false

/-- The output of a COMBINE (R371, R372): its elements with their assay record, the poison check pattern for elements of marked
images, and zero full images at the addresses `zero`. -/
def State.combineOut (s : State) (o : Riffle) (t : TensorDesc) (vals : List (Nat × Val)) (bad zero : List Nat) :
    State × Res Unit :=
  match s.storeElems t (Ncb.ofNat (o.get 87 1)) ⟨s.seedOf o.step, o.step.num, t.tid, 0⟩ (some 1) vals with
  | (s, .stop c) => (s, .stop c)
  | (s, .ok _) =>
    match s.each (fun s i => s.writeOrPoison (t.addr i) (t.elemBytes (t.pos (t.index i)).2) 0 true) bad with
    | (s, .stop c) => (s, .stop c)
    | (s, .ok _) => s.each (fun s a => s.devWrite none a 96 (LodeAcc.zero.image 2 0 0)) zero

/-- COMBINE_CONVERT (R371, R372): once every expected return has been added, the images convert into OUTD, and with REZERO
they are written as zero full images. -/
def execCombineConvert (entry : Nat) (s : State) : Host.Outcome State Fault Refusal :=
  match s.rflOf entry with
  | none => .next s
  | some o =>
    if o.oper ≠ 2 ∨ o.converted ∨ o.failed ∨ o.cmd.isNone ∨ ¬ o.held.isEmpty then .next s
    else
      match s.expected o, o.outd with
      | (s, .stop c), _ => .next (s.failRfl o.id c)
      | (s, .ok _), none => .next (s.failRfl o.id 3)
      | (s, .ok n), some t =>
        if o.added < n * o.row then .next s
        else
          let count := o.tokens * rflH o.entry
          let addr := fun (i : Nat) => o.get 56 8 + 96 * i
          let spans := t.stores ++ [(addr 0, 96 * count)]
          if spans.any fun x => s.cowWaits x.1 x.2 then .next (s.waitOn (.riffle o.id 1) (.copies spans))
          else
            match s.readEach 96 ((List.range count).map addr) with
            | (s, .stop c) => .next (s.failRfl o.id c)
            | (s, .ok (imgs, _)) =>
              let bad := (List.range count).filter fun i => s.imageMarked (addr i)
              let vals := ((imgs.zip (List.range count)).filter fun x => !bad.contains x.2).map fun x =>
                (x.2, (LodeAcc.ofImage 2 x.1).1.source 2 0)
              match s.combineOut o t vals bad (if (o.get 86 1).testBit 1 then (List.range count).map addr else []) with
              | (s, .stop c) => .next (s.failRfl o.id c)
              | (s, .ok _) => .next ((s.modRfl o.id fun o => { o with converted := true }).pumpRfl o.id)

/-- RFL_TAB_BASE_WRITE (R376): discarded while any operation is open; bits [16:0] of the address are 0. -/
def execRflTabBaseWrite (hi : Bool) (val : Nat) (s : State) : Host.Outcome State Fault Refusal :=
  if !s.up 5 then .next s else
  let s := s.noteReserved (if hi then Reg.rflTabBase1 else Reg.rflTabBase0) val
  if !s.riffles.isEmpty then .next s
  else if hi then .next (s.setReg Reg.rflTabBase1 (val % 2 ^ 25))
  else .next (s.setReg Reg.rflTabBase0 (val % 2 ^ 32 / 2 ^ 17 * 2 ^ 17))

end Sys2Proof.Machine
end

