-- ==== Sys2Proof/Machine/Arrive.lean ====
section
/-!
DEFINITION. Counted transfers at their receiver and their sender (11 R321-R325): the completion table, arriving WRITE,
HOIST and RIFFLE packets, XACK and XNAK.
-/
namespace Sys2Proof.Machine

/-- The completion entry of a packet (R321). -/
def State.cpl? (s : State) (p : Packet) : Option CplEntry :=
  s.cpl.find? fun (e : CplEntry) => e.src = p.src && e.xfer = p.xfer && e.epoch = p.tepoch

/-- Change the completion entry of a packet. -/
def State.modCpl (s : State) (p : Packet) (f : CplEntry → CplEntry) : State :=
  { s with cpl := s.cpl.map fun (e : CplEntry) =>
      if e.src = p.src && e.xfer = p.xfer && e.epoch = p.tepoch then f e else e }

/-- Free the completion entry of a packet. -/
def State.freeCpl (s : State) (p : Packet) : State :=
  { s with cpl := s.cpl.filter fun (e : CplEntry) => !(e.src = p.src && e.xfer = p.xfer && e.epoch = p.tepoch) }

/-- Open the completion entry of a packet, unless it is open. -/
def State.openCpl (s : State) (p : Packet) : State :=
  if (s.cpl? p).isSome then s
  else { s with cpl := s.cpl ++ [{ src := p.src, xfer := p.xfer, epoch := p.tepoch, n := 0, c := none, refused := false }] }

/-- Refuse a transfer (R324): one XNAK with the cause goes to its sender. -/
def State.refuseTransfer (s : State) (p : Packet) (cause : Nat) : State :=
  let s := s.modCpl p fun e => { e with refused := true }
  (s.bump Reg.bnlRefuseCnt).send { s.newPacket p.src 0 4 with xfer := p.xfer, plen := 1, payload := (Config.xnakCause cause).toNat }

/-- The transfer of a packet completes (R323): its tally, its XACK, its entry, and the engine's part. -/
def State.completeTransfer (s : State) (p : Packet) : State :=
  let s := if p.rsig then s.signal p.rtally false 1 else s
  let s := if p.mcast then s else s.send { s.newPacket p.src 0 3 with xfer := p.xfer }
  let s := s.freeCpl p
  match p.kind with
  | 5 => s.hoistArrived p
  | 6 => if rPhase (p.payload % 2 ^ 256) = 4 then s else s.riffleArrived p
  | _ => s

/-- The LAST packet of a transfer arrives (R322): it sets c, wherever it stands among the arrivals; a COUNT of 0, a second LAST
packet, or more packets counted than COUNT refuse the transfer. -/
def State.judgeLast (s : State) (p : Packet) : State :=
  match s.cpl? p with
  | none => s
  | some e =>
    if !p.last then s
    else
      let t := s.modCpl p fun e => { e with c := some (e.c.getD p.count) }
      if !e.refused && (p.count = 0 || e.c.isSome || decide (p.count < e.n)) then t.refuseTransfer p causeCount else t

/-- A taken packet, or a later one of a refused transfer, counts (R321-R324): the transfer completes, is refused once more packets
than COUNT have counted, or is forgotten once it has all been discarded. -/
def State.countPacket (s : State) (p : Packet) : State :=
  match s.cpl? p with
  | none => s
  | some e =>
    let n := e.n + 1
    let s := s.modCpl p fun e => { e with n }
    if e.refused then (if e.c = some n then s.freeCpl p else s)
    else if e.c.any fun c => c < n then s.refuseTransfer p causeCount
    else if e.c = some n then s.completeTransfer p
    else s

/-- A WRITE packet's payload reaches memory (R321, R305, 15 R409, R434). -/
def State.takeWrite (s : State) (p : Packet) : Take :=
  if p.plen = 0 then .took s
  else if s.cowWaits p.addr p.plen then .wait (s.waitOn (.packet p) (.copies [(p.addr, p.plen)]))
  else
    match s.writeOrPoison p.addr p.plen p.payload p.poison with
    | (s, .stop c) => .refuse s c
    | (s, .ok _) => .took s

/-- Take a counted packet into its destination. -/
def State.takePacket (s : State) (p : Packet) : Take :=
  match p.kind with
  | 5 => s.hoistTake p
  | 6 => s.riffleTake p
  | _ => s.takeWrite p

/-- A packet leaves its gallery: it has been taken, or discarded. (DESIGN CHOICE: notes/assumptions/52) -/
def State.consume (s : State) (p : Packet) : State :=
  match s.arrived.find? fun q => q.pkt = p with
  | none => s
  | some q => ({ s with arrived := s.arrived.erase q }.waitDone (.packet p)).flowOf q.port

/-- A packet that comes to this module stands among those that have arrived. -/
def State.stand (s : State) (p : Packet) : State :=
  if s.arrived.any fun q => q.pkt = p then s
  else
    { s with
      fresh := s.fresh + 1
      arrived := s.arrived ++ [⟨p, s.fresh + 1, none, none, false, none, false⟩] }

/-- The LAST bit of a packet is looked at once, when it finds its completion entry (R322). -/
def State.arrive (s : State) (p : Packet) : State :=
  if s.arrived.any fun q => q.pkt = p && q.seen then s
  else
    let l := s.arrived.map fun (q : QPkt) => if q.pkt = p then { q with seen := true } else q
    { s with arrived := l }.judgeLast p

/-- COUNTED_PACKET_ARRIVE (R321-R325): a packet of a stale epoch is discarded; one without room in the completion table or
for its ticket, or that its engine cannot take yet, waits; a taken one counts. -/
def execCountedPacketArrive (p : Packet) (s : State) : Host.Outcome State Fault Refusal :=
  if p.kind ≠ 1 ∧ p.kind ≠ 5 ∧ p.kind ≠ 6 then .next s
  else if p.tepoch ≠ s.epoch then .next ((s.consume p).bump Reg.bnlStaleXferCnt)
  else
    let s := s.stand p
    if (s.cpl? p).isNone ∧ 4096 ≤ s.cpl.length then .next (s.waitOn (.packet p) .completion)
    else
      let s := (s.openCpl p).arrive p
      if (s.cpl? p).any fun e => e.refused then .next ((s.consume p).countPacket p)
      else
        let h := if p.prov then s.holdTicket p else (s, true)
        if !h.2 then .next h.1
        else
          match h.1.takePacket p with
          | .wait s => .next s
          | .held s => .next (s.consume p)
          | .took s => .next ((s.consume p).countPacket p)
          | .refuse s c => .next (((s.consume p).refuseTransfer p c).countPacket p)

/-- RETURN_ACCUMULATE (13 R369, R370): the oldest returned piece that a COMBINE holds is added, weighted, into its images,
and counts; a piece of a transfer that has been refused counts and is discarded (R324). -/
def execReturnAccumulate (entry : Nat) (s : State) : Host.Outcome State Fault Refusal :=
  match s.rflOf entry with
  | none => .next s
  | some o =>
    match o.held with
    | [] => .next s
    | p :: l =>
      if (s.cpl? p).any fun e => e.refused then .next ((s.modRfl o.id fun o => { o with held := l }).countPacket p)
      else if o.cmd.isNone ∨ o.failed then .next s
      else
        let t := p.payload / 2 ^ 256 % 2 ^ 32 - o.tbase
        let image := (o.get 56 8 + 96 * (t * rflH o.entry), 96 * rflH o.entry)
        if s.cowWaits image.1 image.2 then .next (s.waitOn (.riffle o.id 2) (.copies [image]))
        else
          let s := (s.waitDone (.riffle o.id 2)).modRfl o.id fun o => { o with held := l }
          match s.addPiece o p with
          | (s, .stop c) => .next (((s.failRfl o.id c).refuseTransfer p c).countPacket p)
          | (s, .ok _) =>
            let s := s.modRfl o.id fun o => { o with added := o.added + (p.plen - 40) }
            .next (s.countPacket p)

/-- The remote stream of a transfer: its skip and itself. -/
def State.streamOf (s : State) (xfer : Nat) : Option (Nat × Stream) :=
  (s.skips.findSome? fun e => (e.2.streams.find? fun (x : Stream) =>
    x.xfer = xfer && !x.acked && x.desc.any fun d => d.remote).map fun x => (e.1, x))

/-- An engine transfer ends (15 R411). -/
def State.endXfer (s : State) (x : Xfer) : State :=
  let bad := x.engine = 2 && ((s.rfl? (x.key / 8)).any fun o => o.bad)
  ({ s with xfers := s.xfers.filter fun (y : Xfer) => y.xfer ≠ x.xfer }).setOutcome [x.ticket] (if bad then some 4 else none)

/-- XACK_ARRIVE (R323, R325, 12 R328): the sender's stream, ring step or riffle transfer completes. -/
def execXackArrive (p : Packet) (s : State) : Host.Outcome State Fault Refusal :=
  if p.kind ≠ 3 then .next s
  else
    let s := s.consume p
    if p.tepoch ≠ s.epoch then .next (s.bump Reg.bnlStaleXferCnt)
    else
      match s.xfers.find? fun (x : Xfer) => x.xfer = p.xfer with
      | some x =>
        let s := s.endXfer x
        .next (if x.engine = 1 then s.pumpHoist x.key else s.pumpRfl (x.key / 8))
      | none =>
        match s.streamOf p.xfer with
        | some (k, x) => .next (s.modStream k x.id fun y => { y with acked := true, tags := [] })
        | none => .next s

/-- XNAK_ARRIVE (R324, R325, 12 R329, 13 R368): the sending stream ends with cause 7; a bucket or riffle operation ends as
failed. -/
def execXnakArrive (p : Packet) (s : State) : Host.Outcome State Fault Refusal :=
  if p.kind ≠ 4 then .next s
  else
    let s := s.consume p
    if p.tepoch ≠ s.epoch then .next (s.bump Reg.bnlStaleXferCnt)
    else
      match s.xfers.find? fun (x : Xfer) => x.xfer = p.xfer with
      | some x =>
        let s := s.endXfer x
        .next (if x.engine = 1 then s.failBucket x.key 7 else s.failRfl (x.key / 8) 7)
      | none =>
        match s.streamOf p.xfer with
        | some (k, x) =>
          let fva := (x.desc.map fun d => d.dst).getD 0
          .next ((s.modStream k x.id fun y => { y with tags := [] }).stopStream k { x with tags := [] } 7 fva true)
        | none => .next s

end Sys2Proof.Machine
end

