-- ==== Sys2Proof/Machine/Seals.lean ====
section
/-!
DEFINITION. Verdicts and poison messages (15 R404-R418), canary ages (R423), the pit log and the seals of steps
(R421-R429).
-/
namespace Sys2Proof.Machine

/-! ## Check level and packs (R404, R426) -/

/-- DPT_CTRL_WRITE (R404): LEVEL takes effect at the next boundary, 3 leaves it and any pending level; the other fields
take the written values. -/
def execDptCtrlWrite (val : Nat) (s : State) : Host.Outcome State Fault Refusal :=
  if !s.up 1 then .next s else
  let s := s.noteReserved Reg.dptCtrl val
  let l := val % 4
  let s := s.storeFields Reg.dptCtrl (putBits val 1 0 s.checkLevel)
  .next (if l = 3 then s else { s with levelNext := some l })

/-- The register of a word of the pack addresses: PA[0], PA[1], VA[0], VA[1]. -/
def packReg (idx : Nat) : Nat := Reg.dptPackPa0 + 4 * (idx % 4)

/-- PACK_ADDRESS_WRITE (R426): discarded while a pack is active. -/
def execPackAddressWrite (idx val : Nat) (s : State) : Host.Outcome State Fault Refusal :=
  if !s.up 1 then .next s else
  let s := s.noteReserved (packReg idx) val
  .next (if s.pack.isSome then s else s.storeFields (packReg idx) val)

/-- CANARY_FACE_WRITE (R426): discarded when an entry of the active pack would lie outside the window, or the window would
reach the post row. -/
def execCanaryFaceWrite (val : Nat) (s : State) : Host.Outcome State Fault Refusal :=
  if !s.up 1 then .next s else
  let s := s.noteReserved Reg.dptCanaryFace val
  let base := bits val 11 0 * 1024
  let len := bits val 27 16 * 1024
  let outside := s.pack.any fun p => p.entries.any fun e => len < e.foff + e.flen
  .next (if outside || decide (postRow < base + len) then s else s.storeFields Reg.dptCanaryFace val)

/-! ## Canary ages (R423) -/

/-- CANARY_FORCE (R423): at a frame boundary, a stope whose canary age has reached DPT_CANARY_FORCE has its next canary forced. -/
def execCanaryForce (stope : Nat) (s : State) : Host.Outcome State Fault Refusal :=
  if s.cycle = s.bcycle && s.canaryPack.isSome && s.stopeState stope = 1
      && s.fld Reg.dptCanaryForce Fld.dptCanaryForceFrames ≤ (s.stope stope).canaryAge then
    .next (s.modStope stope fun c => { c with canaryForced := true })
  else .next s

/-- CANARY_LATE (R423): a stope whose canary age has reached DPT_CANARY_PERIOD fails, once. -/
def execCanaryLate (stope : Nat) (s : State) : Host.Outcome State Fault Refusal :=
  let c := s.stope stope
  if s.canaryPack.isSome && s.stopeState stope = 1 && !c.canaryLate
      && s.fld Reg.dptCanaryPeriod Fld.dptCanaryPeriodFrames ≤ c.canaryAge then
    .next ((s.modStope stope fun c => { c with canaryLate := true }).canaryFail stope 6 c.canaryNext)
  else .next s

/-! ## Verdicts (R411-R415) -/

/-- Does a stream that a restarted run posted stand in the way of its ticket's verdict (R412).
(DEDUCED: notes/assumptions/60) -/
def State.runStreams (s : State) (order : Nat) : Bool :=
  s.skips.any fun k => k.2.streams.any fun (x : Stream) => match x.use with
    | .posted _ _ _ o => o = order
    | _ => false

/-- The result that an own ticket has earned (R411): good when its outcome is good and no ticket it depends on is
unresolved; bad as soon as its outcome or a dependency is bad. (DEDUCED: notes/assumptions/60) -/
def Ticket.result (t : Ticket) : Option (Bool × Nat) :=
  match t.outcome with
  | some (some c) => some (false, c)
  | some none => if t.depBad.isSome then some (false, 5) else if t.deps.isEmpty then some (true, 0) else none
  | none => if t.depBad.isSome then some (false, 5) else none

/-- TICKET_RESOLVE (R411, R412): an own ticket resolves, together with those of the lost runs it restarts.
(DEDUCED: notes/assumptions/60) -/
def execTicketResolve (ticket : Nat) (s : State) : Host.Outcome State Fault Refusal :=
  match s.tickets.find? (·.id = ticket) with
  | none => .next s
  | some t =>
    if !t.own || s.tickets.any (fun u => u.joined.contains ticket) then .next s
    else if (match t.waitTile with
        | some o => s.runStreams o
        | none => false) then .next s
    else
      match t.result with
      | none => .next s
      | some (good, cause) =>
        .next ((t.joined ++ [t.id]).foldl (fun s id =>
          match s.tickets.find? (·.id = id) with
          | some u => s.resolveTicket u good cause
          | none => s) s)

/-- VERDICT_ARRIVE (R413): each item resolves the held ticket it names; the tickets this module does not hold, and messages of
a stale epoch, are ignored. -/
def execVerdictArrive (p : Packet) (s : State) : Host.Outcome State Fault Refusal :=
  if !s.up 1 then .next s else
  let s := s.consume p
  if p.tepoch ≠ s.epoch ∨ getBytes p.payload 0 1 ≠ 1 then .next s
  else
    .next ((List.range (getBytes p.payload 1 1)).foldl (fun s i =>
      let it := getBytes p.payload (16 + 16 * i) 16
      match s.tickets.find? (fun t => t.id = getBytes it 0 8 && !t.own) with
      | some t =>
        if getBytes it 8 1 = 1 then s.resolveTicket t true 0
        else if getBytes it 8 1 = 2 then s.resolveTicket t false (getBytes it 9 1)
        else s
      | none => s) s)

/-- POISON_ARRIVE (R416): a POISON message poisons its step; one of a stale epoch is ignored. -/
def execPoisonArrive (p : Packet) (s : State) : Host.Outcome State Fault Refusal :=
  if !s.up 1 then .next s else
  let s := s.consume p
  if p.tepoch ≠ s.epoch ∨ getBytes p.payload 0 1 ≠ 2 then .next s
  else .next (s.poisonStep (getBytes p.payload 8 8) (getBytes p.payload 20 1) (getBytes p.payload 24 8)
    (getBytes p.payload 16 4))

/-- Does a started command's commit wait for verdicts (R414). -/
def State.commitWaits (s : State) (x : Started) : Bool :=
  (!x.covers.isEmpty && x.step.all fun id => (s.poisonOf id).isNone) ||
  (s.snapshot.any fun n => n.cmd = x.cmd.id && !n.covers.isEmpty)

/-- VERDICT_STALL (R415): every commit of a shaft that has waited SFT_STALL_LIMIT frames for verdicts is counted once. -/
def execVerdictStall (shaft : Nat) (s : State) : Host.Outcome State Fault Refusal :=
  let limit := s.fld Reg.sftStallLimit Fld.sftStallLimitFrames
  let late := fun (x : Started) => !x.stallCounted && s.commitWaits x && decide (limit ≤ x.stallAge)
  let n := ((s.shaft shaft).started.filter late).length
  if limit = 0 ∨ n = 0 then .next s
  else
    let s := (s.modShaft shaft fun h =>
      { h with started := h.started.map fun x => if late x then { x with stallCounted := true } else x }).bumpN
        Reg.dptVerdictStallCnt n
    .next (s.raiseIf (s.flag Reg.dptCtrl Fld.dptCtrlVerdictEvent) 10)

/-! ## The pit log ring (R429) -/

/-- A pit log item (Table 15.7). -/
def Item.bytes (i : Item) : Nat :=
  packFields [(1, i.kind), (1, i.blocks.toNat + 2 * i.late.toNat), (2, i.source), (4, 0), (56, i.body)]

/-- The items of an entry: an entry that has dropped items carries SEAL in its last one (R429).
(DESIGN CHOICE: notes/assumptions/62) -/
def StepRec.written (r : StepRec) : List Item :=
  match r.dropSeal, r.items.getLast? with
  | true, some x => r.items.dropLast ++ [{ x with blocks := true }]
  | _, _ => r.items

/-- Does an item of a step block its seal (R422). -/
def StepRec.blocked (r : StepRec) : Bool := r.dropSeal || r.items.any (·.blocks)

/-- An entry header (Table 15.6): STATE 1 SEALED, 2 BLOCKED, 3 ABORTED, 4 RELEASED. -/
def State.entryHeader (s : State) (r : StepRec) (state level nitem : Nat) : Nat :=
  packFields [(8, r.id.num), (8, r.seed), (4, r.bframe), (4, s.frame % 2 ^ 32), (8, r.digest), (1, state), (1, level),
    (1, s.epoch), (1, r.suspect.toNat), (4, nitem), (4, s.node), (4, r.vgood), (4, r.vbad), (4, r.nskip), (8, 0)]

/-- What trying to write an entry answers. -/
inductive Logged where
  | written
  | full
  | failed
deriving DecidableEq, Repr

/-- Write 64-byte units to the ring from an index on; false at the first that cannot be written. -/
def State.writeUnits (s : State) (size idx : Nat) : List Nat → State × Bool
  | [] => (s, true)
  | u :: l =>
    match s.devWrite none (s.reg64 Reg.plgBase0 Reg.plgBase1 + 64 * (idx % size)) 64 u with
    | (s, .stop _) => (s, false)
    | (s, .ok _) => State.writeUnits s size (idx + 1) l

/-- Write an entry to the pit log (R429): a disabled ring discards it, a full one leaves it waiting, a failed write leaves
it to be written again. -/
def State.logEntry (s : State) (r : StepRec) (state : Nat) (items : List Item) : State × Logged :=
  let size := s.reg Reg.plgSize
  if !s.flag Reg.plgCtrl Fld.plgCtrlEn || size ≤ 1 then (s, .written)
  else
    let head := s.reg Reg.plgHead
    let used := (head + size - s.reg Reg.plgTail % size) % size
    if size ≤ used + 1 + items.length then (s.bump Reg.plgFullCnt, .full)
    else
      let lv := match r.level with
        | some l => (l, s)
        | none => s.freeVal
      match lv.2.writeUnits size head (lv.2.entryHeader r state lv.1 items.length :: items.map Item.bytes) with
      | (s, false) =>
        ((s.bump Reg.plgWriteErrCnt).raiseIf (s.flag Reg.plgCtrl Fld.plgCtrlBlockEvent) 11, .failed)
      | (s, true) => (s.setReg Reg.plgHead ((head + 1 + items.length) % size), .written)

/-! ## Seals (R421, R422, R427, R428; 01 R25, R26) -/

/-- A step's entry has been written: its new state. PLG_STAT.BLOCKED shows whether a step waits for resolution.
(DEDUCED: notes/assumptions/61) -/
def State.settleStep (s : State) (r : StepRec) (st : StepState) : State :=
  let s := (s.modStep r.id fun r => { r with state := st, items := [], dropSeal := false }).countSteps
  let s := s.setFld Reg.plgStat Fld.plgStatBlocked (s.steps.any fun r => r.id.seq = s.seqNo && r.state = .blocked).toNat
  if st = .sealed ∨ st = .released then s.setReg64 Reg.plgLastSeal0 Reg.plgLastSeal1 r.id.num else s

/-- Try to write one step's entry with a state; true when it has been written and the next step may follow. -/
def State.trySettle (s : State) (r : StepRec) (code : Nat) (items : List Item) (st : StepState) : State × Bool :=
  match s.logEntry r code items with
  | (s, .written) =>
    let s := s.settleStep r st
    if st = .blocked then (s.raiseIf (s.flag Reg.plgCtrl Fld.plgCtrlBlockEvent) 11, false) else (s, true)
  | (s, _) => (s, false)

/-- What the boundary does with the oldest unsealed step (R422, R427, R428): an aborted one is written ABORTED, a blocked
one waits for its resolution, one whose last STEP_END has completed seals or is written BLOCKED.
(DEDUCED: notes/assumptions/61; DESIGN CHOICE: notes/assumptions/62) -/
def State.sealStep (s : State) (r : StepRec) : State × Bool :=
  match r.state with
  | .blocked =>
    if r.poison.isSome then s.trySettle r 3 [] .aborted
    else if r.resolve = some true then s.trySettle r 4 [] .released
    else (s, false)
  | .begun =>
    if r.nend = 0 ∨ r.endDone ≠ r.nend then (s, false)
    else if r.poison.isSome then s.trySettle r 3 r.written .aborted
    else if r.blocked then s.trySettle r 2 r.written .blocked
    else s.trySettle r 1 r.written .sealed
  | _ => (s, false)

/-- The unsealed step of the current sequence with the lowest number (R25). -/
def State.oldestStep (s : State) : Option StepRec :=
  (s.steps.filter fun r => r.id.seq = s.seqNo && r.unsealed).foldl (fun (b : Option StepRec) r =>
    match b with
    | none => some r
    | some x => if r.id.num < x.id.num then some r else b) none

/-- The seals of a boundary, in step order (01 Table 1.6). -/
def State.sealSteps (s : State) : Nat → State
  | 0 => s
  | fuel + 1 =>
    match s.oldestStep with
    | none => s
    | some r =>
      match s.sealStep r with
      | (s, true) => State.sealSteps s fuel
      | (s, false) => s

/-- The blocked step that PLG_RESOLVE_STEP names. -/
def State.resolving (s : State) : Option StepRec :=
  (s.step? ⟨s.seqNo, s.reg64 Reg.plgResolveStep0 Reg.plgResolveStep1⟩).filter fun r => r.state = .blocked

/-- RESOLVE_RELEASE (R428): the named blocked step is released at the next boundary; a step not blocked is left alone, and
a first resolution stands. -/
def execResolveRelease (s : State) : Host.Outcome State Fault Refusal :=
  if !s.up 1 then .next s else
  match s.resolving with
  | none => .next s
  | some r => .next (s.modStep r.id fun r => { r with resolve := r.resolve.orElse fun _ => some true })

/-- RESOLVE_ABORT (R428): the named blocked step is poisoned with cause 8. -/
def execResolveAbort (s : State) : Host.Outcome State Fault Refusal :=
  if !s.up 1 then .next s else
  match s.resolving with
  | none => .next s
  | some r =>
    if r.resolve.isSome then .next s
    else .next ((s.modStep r.id fun r => { r with resolve := some false }).poisonStep r.id.num 8 0 s.node)

end Sys2Proof.Machine
end

