-- ==== Sys2Proof/Machine/Recovery.lean ====
section
/-!
DEFINITION. Lost tile instances, fences and gating (01 R20, 06 R170, 08 R223, 10 R275, 15 R406, 16 R446-R448, 17 R468).
-/
namespace Sys2Proof.Machine

/-! ## A lost instance (08 R223, 16 R446-R448) -/

/-- The restart record of an instance after a loss (16 R446): what an earlier run left, then what this one did.
(DEDUCED: notes/assumptions/28) -/
def Restart.join (a b : Restart) : Restart :=
  { signals := a.signals ++ b.signals, streams := a.streams ++ b.streams, skips := a.skips ++ b.skips,
    past := a.past || b.past || decide (64 < a.signals.length + b.signals.length) ||
      decide (64 < a.streams.length + b.streams.length), differs := false }

/-- An instance as it waits to start again (R223): identity, level and tickets kept, everything else as before its start. -/
def Instance.again (i : Instance) : Instance :=
  { i with oldTickets := i.oldTickets ++ i.tickets, tickets := [], ticket := 0, born := 0, shadow := false, pair := 0,
           started := 0, order := 0, bad := none, ended := false, result := 0, faultEnd := false, noImage := false,
           refusals := [], storeRefusals := [], restart := i.restart.join i.done, done := Restart.empty, nSignal := 0,
           nSkip := 0, nPost := 0, mergesOut := 0, mergeIssued := false }

/-- A lost instance is re-queued (R223); one past the limits of its restart record has its tickets resolve BAD with cause 3
(16 R446), and so has one that a forced reset takes while its merges are being made, which a restart would make again (05 R129); a
canary is dropped. (DEDUCED: notes/assumptions/28) -/
def State.requeue (s : State) (stope : Nat) (i : Instance) : State :=
  if i.ballast then s.modStope stope fun c => { c with canaryBusy := false }
  else
    let merged := i.mergeIssued
    let i := i.again
    if i.restart.past || merged then s.setOutcome i.oldTickets (some 3)
    else ({ s with requeued := s.requeued ++ [i] }).bump Reg.sftRequeueCnt

/-- Was a stream posted by, or made for, a run that is lost: streams of a committed instance stand (10 R275). -/
def Stream.lostWith (x : Stream) (orders crews : List Nat) : Bool :=
  match x.use with
  | .posted _ _ _ o => orders.contains o && !x.committed
  | .merge crew _ _ => crews.contains crew
  | .image _ => false
  | .copy _ _ _ => false

/-- Discard the streams of lost runs on a stope skip; the tickets of those streams are answered (10 R275, 16 R448). -/
def State.dropStreams (s : State) (k : Nat) (orders crews : List Nat) : State × List Nat :=
  let lost := (s.skip k).streams.filter fun x => x.lostWith orders crews
  (s.setSkip k { s.skip k with streams := (s.skip k).streams.filter fun x => !x.lostWith orders crews },
    lost.flatMap fun (x : Stream) => x.tickets)

/-- A crew loses its instance: its tiles, merge buffer, duplicates, save slot and streams go (06 R170, 16 Table 16.3). The
tickets of its discarded streams resolve with its own (15 R412). -/
def State.loseCrew (s : State) (c : CrewRef) : State × Option Instance :=
  match (s.crew c).inst with
  | none => (s, none)
  | some i =>
    let slot := (s.crew c).saveSlot
    let r := s.dropStreams c.stope [i.order] [c.crew]
    let s := { r.1.idleCrew c with
      saved := r.1.saved.filter fun (x : SavedCtx) => slot ≠ some x.slot
      preempts := r.1.preempts.filter fun (e : Nat × Nat) => e.2 ≠ crewKey c + 1 }
    (s.countSlots, some { i with tickets := i.tickets ++ r.2 })

/-- A saved context loses its instance and its slot (06 R170). -/
def State.loseSaved (s : State) (x : SavedCtx) : State × Instance :=
  let r := s.dropStreams x.stope [x.inst.order] []
  (({ r.1 with saved := r.1.saved.filter fun (y : SavedCtx) => y.slot ≠ x.slot }).countSlots,
    { x.inst with tickets := x.inst.tickets ++ r.2 })

/-- Every place of a run of a pair: a crew or a saved context. -/
def State.losePair (s : State) (p : Nat) : State × List Instance :=
  let crews := s.crews.filter fun e => e.2.inst.any fun i => i.pair = p
  let r := crews.foldl (fun (r : State × List Instance) e =>
    let q := r.1.loseCrew ⟨e.1 / 16, e.1 % 16⟩
    (q.1, r.2 ++ q.2.toList)) (s, [])
  let kept := r.1.saved.filter fun (x : SavedCtx) => x.inst.pair = p
  kept.foldl (fun (r : State × List Instance) x =>
    let q := r.1.loseSaved x
    (q.1, r.2 ++ [q.2])) r

/-- Both runs of a level-2 pair are lost and the entry is re-queued once, with the primary's restart record (15 R406, 16
R448). -/
def State.requeuePair (s : State) (stope p : Nat) : State :=
  let kept := (s.pairs.find? fun (q : Pair) => q.id = p).bind (·.kept)
  let r := s.losePair p
  let s := { r.1 with pairs := r.1.pairs.filter fun (q : Pair) => q.id ≠ p }
  let runs := r.2 ++ kept.toList
  let tickets := (runs.flatMap (·.tickets)).eraseDups
  match (runs.find? fun i => !i.shadow).orElse fun _ => runs.head? with
  | none => s
  | some i =>
    s.requeue stope { i with tickets, restart := if i.shadow then Restart.empty else i.restart,
                             done := if i.shadow then Restart.empty else i.done }

/-- An instance that has left its place is re-queued, with the other run of its pair. -/
def State.lostInstance (s : State) (stope : Nat) (i : Instance) : State :=
  if i.pair = 0 then s.requeue stope i else s

/-- Does a run of a pair make its merges already: it commits (05 R128). -/
def State.pairCommits (s : State) (p : Nat) : Bool :=
  s.crews.any fun e => e.2.inst.any fun i => i.pair = p && i.mergeIssued

/-- Every instance of a stope is lost: on its crews and in its saved contexts (06 R170), with the kernel images on their way. One
whose merges are being made has committed, and goes on (05 R128, R129), unless the stope is reset by force. -/
def State.loseStope (s : State) (n : Nat) (force : Bool) : State :=
  let pairs := ((s.crews.filterMap fun e => if e.1 / 16 = n then e.2.inst.map (·.pair) else none) ++
    (s.saved.filterMap fun (x : SavedCtx) => if x.stope = n then some x.inst.pair else none)).eraseDups.filter (· ≠ 0)
  let s := (pairs.filter fun p => force || !s.pairCommits p).foldl (fun s p => s.requeuePair n p) s
  let s := (List.range 16).foldl (fun s k =>
    if !force && (s.crew ⟨n, k⟩).inst.any fun i => i.mergeIssued || (i.pair ≠ 0 && s.pairCommits i.pair) then s
    else match s.loseCrew ⟨n, k⟩ with
    | (s, some i) => s.lostInstance n i
    | (s, none) => s) s
  let s := s.setSkip n { s.skip n with streams := (s.skip n).streams.filter fun (x : Stream) => match x.use with
    | .image _ => false
    | _ => true }
  let s := (s.saved.filter fun (x : SavedCtx) => x.stope = n && (force || x.inst.pair = 0 || !s.pairCommits x.inst.pair)).foldl
    (fun s x =>
    let r := s.loseSaved x
    r.1.lostInstance n r.2) s
  { s with dispatches := s.dispatches.map fun d =>
      { d with copied := d.copied.filter (· ≠ n), copying := d.copying.filter (fun e => e.1 ≠ n),
               copyFailed := d.copyFailed.filter (· ≠ n) } }

/-! ## Fences (01 R20, Table 1.6) -/

/-- Set the state of a stope and its fence cause (Table 15.10). -/
def State.setStope (s : State) (n st cause : Nat) : State :=
  (s.setFld (Reg.dptStopeStat n) Fld.dptStopeStatState st).setFld (Reg.dptStopeStat n) Fld.dptStopeStatFcause cause

/-- A spare of a level comes into service (R20): which one, when there are several, the spec leaves open. -/
def State.bringSpare (s : State) (level : Nat) : State :=
  let l := (List.range 72).map (fun k => level * 72 + k) |>.filter fun n => s.stopeState n = 2
  if l.isEmpty then s
  else
    let r := s.freeVal
    let n := l.getD (r.1 % l.length) 0
    let s := { r.2 with lamp := { r.2.lamp with spares := r.2.lamp.spares ++ [n] } }
    (s.setStope n 1 0).modStope n fun c =>
      { c with canaryAge := 0, canaryForced := false, canaryLate := false, gate := false, ungate := false }

/-- PWR_STAT.GATED follows the gated stopes (17 Table 17.5). -/
def State.countGated (s : State) : State :=
  s.setFld Reg.pwrStat Fld.pwrStatGated ((List.range 144).filter fun n => s.stopeState n = 3).length

/-- The lamp room's fence record (18 R485): the cause a stope is fenced for, or nothing. -/
def State.recordFence (s : State) (n cause : Nat) : State :=
  { s with lamp := { s.lamp with fences := Store.set 0 s.lamp.fences n cause } }

/-- Has a stope that leaves service nothing more to finish (10 R275): no stream of a committed instance, no instance whose merges are
being made. -/
def State.cleared (s : State) (n : Nat) : Bool :=
  (s.skip n).streams.isEmpty && (List.range 16).all fun k => (s.crew ⟨n, k⟩).inst.isNone

/-- A stope leaves service once it is cleared (10 R275): fenced, with a spare of its level for it, or gated.
(DESIGN CHOICE: notes/assumptions/109) -/
def State.leaveStope (s : State) (n : Nat) : State :=
  let c := s.stope n
  if c.leaving = 0 || !s.cleared n then s
  else
    let st := s.stopeState n
    let s := s.modStope n fun c => { c with leaving := 0 }
    if c.leaving = 3 then ((s.setStope n 3 0).bump Reg.pwrGateCnt).countGated
    else
      let s := s.setStope n 4 c.leaveCause
      (if st = 1 ∨ st = 3 then s.bringSpare (n / 72) else s).countGated

/-- Stopes that leave service do so as soon as they are cleared. -/
def State.leaveStopes (s : State) : State :=
  ((s.stopes.filter fun e => e.2.leaving ≠ 0).map (·.1)).foldl (fun s n => s.leaveStope n) s

/-- A requested fence takes effect (Table 1.6, action 3): the instances of the stope are lost, and it leaves service once its skip has
completed the streams of committed ones (10 R275). -/
def State.fenceStope (s : State) (n : Nat) : State :=
  let cause := (s.stope n).fence
  let s := (s.modStope n fun c =>
    { c with fence := 0, gate := false, ungate := false, canaryBusy := false, canaryForced := false, canaryAge := 0,
             returning := false, passed := false }).recordFence n cause
  if s.stopeState n = 4 then s.setStope n 4 cause
  else ((s.loseStope n false).modStope n fun c => { c with leaving := 4, leaveCause := cause }).leaveStope n

/-- Gating takes effect (17 R468), once the streams of committed instances have completed (10 R275). -/
def State.gateStope (s : State) (n : Nat) : State :=
  let s' := s.modStope n fun c => { c with gate := false, canaryBusy := false }
  if s.stopeState n = 1 && (s.stope n).leaving = 0 then
    ((s'.loseStope n false).modStope n fun c => { c with leaving := 3 }).leaveStope n
  else s'

/-- A gated stope returns to service without a canary (17 R468). -/
def State.ungateStope (s : State) (n : Nat) : State :=
  let s' := s.modStope n fun c => { c with ungate := false }
  if s.stopeState n = 3 then s'.setStope n 1 0 else s'

/-- A stope that has passed its canary returns to service; its entry of the fence record is cleared (18 R485, 19 R516).
(DESIGN CHOICE: notes/assumptions/78) -/
def State.returnStope (s : State) (n : Nat) : State :=
  ((s.setStope n 1 0).recordFence n 0).modStope n fun c => { c with returning := false, passed := false }

/-- Fences take effect, spares come in, gating, ungating and returns take effect (Table 1.6, action 3; 17 R468).
(DESIGN CHOICE: notes/assumptions/78) -/
def State.applyFences (s : State) : State :=
  let all := s.stopes.map (·.1)
  let s := (all.filter fun n => (s.stope n).fence ≠ 0).foldl (fun s n => s.fenceStope n) s
  let s := (all.filter fun n => (s.stope n).passed && s.blockOn (0x100 + n)).foldl (fun s n => s.returnStope n) s
  let s := (all.filter fun n => (s.stope n).ungate).foldl (fun s n => s.ungateStope n) s
  let s := (all.filter fun n => (s.stope n).gate).foldl (fun s n => s.gateStope n) s
  s.countGated

/-- Canary ages count the frames in which a stope is active and not gated (15 R423). -/
def State.ageCanaries (s : State) : State :=
  if s.canaryPack.isNone then s
  else (List.range 144).foldl (fun s n =>
    if s.stopeState n = 1 then s.modStope n fun c => { c with canaryAge := c.canaryAge + 1 } else s) s

end Sys2Proof.Machine
end

