-- ==== Sys2Proof/Machine/Strongroom.lean ====
section
/-!
DEFINITION. The strongroom (15 R433-R437): the SNAPSHOT command, copy-on-write, the checkpoint image, its seal.
-/
namespace Sys2Proof.Machine

/-- Bytes of a copy-on-write granule (R434). -/
def granuleBytes : Nat := 0x10000

/-- The regions of a manifest of `n` entries (Table 15.8). -/
def manifestRegions (man n : Nat) : List Region :=
  (List.range n).map fun i =>
    ⟨getBytes man (16 * i) 8, getBytes man (16 * i + 8) 4, (getBytes man (16 * i + 12) 1).testBit 0⟩

/-- The granules of a manifest in its order. -/
def Snapshot.granules (x : Snapshot) : List Nat :=
  x.regions.flatMap fun r => (List.range r.len).map fun i => r.va / granuleBytes + i

/-- The offset of the region data in an image (Table 15.9). -/
def Snapshot.dataAt (x : Snapshot) : Nat :=
  (64 + 16 * x.regions.length + granuleBytes - 1) / granuleBytes * granuleBytes

/-- Bytes of region data. -/
def Snapshot.dataLen (x : Snapshot) : Nat := granuleBytes * x.granules.length

/-- The header and the manifest copy of an image, padded with 0 (Table 15.9). -/
def State.imageHead (s : State) (x : Snapshot) : Nat :=
  packFields [(8, x.step.num), (4, s.node), (4, x.regions.length), (8, x.dataLen), (8, s.seedOf x.step), (32, 0),
    (16 * x.regions.length, x.man)]

/-- Set the snapshot in progress and STR_STAT (Table 15.12). -/
def State.setSnapshot (s : State) (x : Option Snapshot) : State :=
  (({ s with snapshot := x }).setFld Reg.strStat Fld.strStatBusy x.isSome.toNat).setFld Reg.strStat Fld.strStatArmed
    (x.any fun (y : Snapshot) => y.armed).toNat

/-- A snapshot ends (R436, R437): status 1 sealed, 2 discarded, 3 failed. -/
def State.endSnapshot (s : State) (x : Snapshot) (status : Nat) : State :=
  let s := s.report x.step ⟨14, false, false, x.shaft, packFields [(1, status), (8, x.cxldst)]⟩
  let s := if status = 3 then (s.bump Reg.strFailCnt).raiseIf (s.flag Reg.strCtrl Fld.strCtrlFailEvent) 12 else s
  (s.setSnapshot none).cmdDone x.shaft x.cmd

/-- Write bytes at a physical address of an image; false when the address is refused.
(DEDUCED: notes/assumptions/64) -/
def State.imageWrite (s : State) (pa n v : Nat) : State × Bool :=
  if s.reachable none pa n then (s.writeMem pa n v (allBytes n), true) else (s.refuse, false)

/-- SNAPSHOT (R433, R434): judged; at its start copy-on-write is armed and ARM_TALLY rises by 1.
(DEDUCED: notes/assumptions/64) -/
def execSnapshot (shaft : Nat) (s : State) : Host.Outcome State Fault Refusal :=
  .next (s.startCommand shaft 0x14 fun s c =>
    let id : StepId := ⟨s.seqNo, c.get 16 8⟩
    let man := c.get 24 8
    let nreg := c.get 32 4
    let host := (c.get 38 1).testBit 0
    let begun := (s.step? id).any fun r => r.shafts.contains shaft
    let r := if nreg = 0 ∨ 4096 < nreg ∨ man % 64 ≠ 0 then (s, Res.ok (0, false)) else s.devRead none man (16 * nreg)
    let unread := match r.2 with
      | .ok (_, b) => b
      | .stop _ => true
    let w := match r.2 with
      | .ok (w, false) => w
      | _ => 0
    let s := r.1
    let regs := if 4096 < nreg then [] else manifestRegions w nreg
    let rsv := (List.range (min nreg 4096)).any fun i => getBytes w (16 * i + 12) 1 / 2 ≠ 0 || getBytes w (16 * i + 13) 3 ≠ 0
    let isCxl := match s.paKind (c.get 40 8) with
      | .cxl _ => true
      | _ => false
    let frozen := regs.any fun x => x.writable && x.len ≠ 0 && s.frozen x.va (x.len * granuleBytes)
    match firstCause [
        (decide (c.get 38 1 / 2 ≠ 0 ∨ c.get 39 1 ≠ 0 ∨ c.get 56 8 ≠ 0) || rsv || (!host && decide (c.get 48 8 ≠ 0)), 2),
        (decide (man % 64 ≠ 0 ∨ c.get 40 8 % granuleBytes ≠ 0 ∨ c.get 48 8 % granuleBytes ≠ 0) || unread ||
          regs.any (fun x => x.va % granuleBytes ≠ 0), 5),
        (!begun || !isCxl || (host && s.paKind (c.get 48 8) ≠ .host) || decide (nreg = 0 ∨ 4096 < nreg) || frozen, 7)] with
    | some k => (s, .refuse k)
    | none =>
      if s.snapshot.isSome then (s, .hold)
      else
        let x : Snapshot :=
          { shaft, cmd := c.id, step := id, man := w, regions := regs, host, cxldst := c.get 40 8, hostdst := c.get 48 8,
            armed := true, copied := [], data := [], covers := s.coverOf id }
        (((s.setSnapshot (some x)).signal (c.get 36 2) false 1), .start (s.startedAs shaft c .working)))

/-- Copy one granule into the image and hash it (R435): every place of it in manifest order. A resumable stop leaves it; a
marked word, another stop or a refused address fails the snapshot. The header and the manifest copy are written before the first. -/
def State.copyGranule (s : State) (x : Snapshot) (g : Nat) : State × Bool :=
  match s.devRead none (g * granuleBytes) granuleBytes with
  | (t, .stop c) => if c = 1 then (s, false) else (t.endSnapshot x 3, false)
  | (t, .ok (_, true)) => (t.endSnapshot x 3, false)
  | (t, .ok (w, false)) =>
    let places := ((List.range x.granules.length).zip x.granules).filter fun e => e.2 = g
    let r := places.foldl (fun (r : State × Bool) e =>
      if r.2 then r.1.imageWrite (x.cxldst + x.dataAt + granuleBytes * e.1) granuleBytes w else r)
      (if x.copied.isEmpty then t.imageWrite x.cxldst x.dataAt (t.imageHead x) else (t, true))
    if r.2 then
      (r.1.setSnapshot (some { x with
        copied := x.copied ++ [g]
        data := places.foldl (fun (m : Store Nat) e => Store.put false w m e.1) x.data }), true)
    else (r.1.endSnapshot x 3, false)

/-- A snapshot whose step is aborted ends as discarded, with a trailer of zeros (R437). -/
def State.discardSnapshot (s : State) (x : Snapshot) : State :=
  (s.imageWrite (x.cxldst + x.dataAt + x.dataLen) 128 0).1.endSnapshot x 2

/-- Does a write wait for the copy of a granule (R434). -/
def State.copyWanted (s : State) (granule : Nat) : Bool :=
  s.waits.any fun w => match w.2 with
    | .copies l => l.any fun x => x.1 / granuleBytes ≤ granule && granule * granuleBytes < x.1 + x.2
    | _ => false

/-- COW_COPY (R434): a granule of an armed writable region that a write waits for is copied ahead of its order. -/
def execCowCopy (granule : Nat) (s : State) : Host.Outcome State Fault Refusal :=
  match s.snapshot with
  | none => .next s
  | some x =>
    if s.cowWaits (granule * granuleBytes) 1 && s.copyWanted granule then
      let r := s.copyGranule x granule
      .next (r.1.bumpIf r.2 Reg.strCowCnt)
    else .next s

/-- SNAPSHOT_REGION_COPY (R435): the next granule in manifest order that has not been copied. -/
def execSnapshotRegionCopy (s : State) : Host.Outcome State Fault Refusal :=
  match s.snapshot with
  | none => .next s
  | some x =>
    if (s.poisonOf x.step).isSome then .next (s.discardSnapshot x)
    else
      match x.granules.find? fun g => !x.copied.contains g with
      | none => .next s
      | some g => .next (s.copyGranule x g).1

/-- The bytes that the digest covers: header, manifest copy and data, in that order (R436). -/
def State.imageBytes (s : State) (x : Snapshot) : List (BitVec 8) :=
  let v := s.imageHead x + 2 ^ (8 * x.dataAt) *
    packElems (8 * granuleBytes) ((List.range x.granules.length).map fun i => Store.get 0 x.data i)
  (List.range (x.dataAt + x.dataLen)).map fun i => BitVec.ofNat 8 (v >>> (8 * i))

/-- Copy a sealed image whole to the host (R436): false when an address is refused or a marked word is read. -/
def State.copyToHost (s : State) (x : Snapshot) : State × Bool :=
  let n := x.dataAt + x.dataLen + 128
  let r := s.readMem x.cxldst n
  if r.2.2 then (r.1, false) else r.1.imageWrite x.hostdst n r.2.1

/-- SNAPSHOT_SEAL (R436, R437): once every region is copied, the step has sealed and no ticket covers the seal, the image is
signed, copied to the host when asked, and recorded. -/
def execSnapshotSeal (s : State) : Host.Outcome State Fault Refusal :=
  match s.snapshot with
  | none => .next s
  | some x =>
    if (s.poisonOf x.step).isSome then .next (s.discardSnapshot x)
    else
      let sealed_ := (s.step? x.step).any fun r => r.state = .sealed || r.state = .released
      if x.granules.any (fun g => !x.copied.contains g) || !sealed_ || x.covers ≠ [] then .next s
      else
        let digest := Config.sha512 (s.imageBytes x)
        let head := s.imageWrite x.cxldst x.dataAt (s.imageHead x)
        let tail := head.1.imageWrite (x.cxldst + x.dataAt + x.dataLen) 128
          (digest.toNat + 2 ^ 512 * (Config.signIdentity digest).toNat)
        let copied := if x.host then tail.1.copyToHost x else (tail.1, true)
        if !(head.2 && tail.2 && copied.2) then .next (copied.1.endSnapshot x 3)
        else
          let s := (copied.1.setReg64 Reg.strLastStep0 Reg.strLastStep1 x.step.num).bump Reg.strSnapCnt
          .next (s.endSnapshot x 1)

end Sys2Proof.Machine
end

