-- ==== Sys2Proof/Machine/Whistle.lean ====
section
/-!
DEFINITION. The whistle, the fleet frequency word and the banksman (17 R455-R462).
-/
namespace Sys2Proof.Machine

/-- Change the state of the whistle. -/
def State.modWhistle (s : State) (f : Whistle → Whistle) : State := { s with whistle := f s.whistle }

/-- WHS_CTRL.EVENT. -/
def State.whsEvent (s : State) : State := s.raiseIf (s.flag Reg.whsCtrl Fld.whsCtrlEvent) 14

/-- The role of the module (Table 17.4): 3 is taken as 0. -/
def State.whsRole (s : State) : Nat := s.fld Reg.whsCtrl Fld.whsCtrlRole % 3

/-- The minimal hop from a coordinate to another in a ring: direction 0 plus, 1 minus, plus on a tie (11 R311). -/
def hopDir (n a b : Nat) : Nat := if (b + n - a % n) % n ≤ (a + n - b % n) % n then 0 else 1

/-- The hop from a node toward the root's node (R456): the first of Z, Y, X in which they differ, and its direction. -/
def State.rootHop (s : State) (node : Nat) : Option (Nat × Nat) :=
  ([3, 2, 1].find? fun d => coord node d ≠ coord s.whistle.root d).map fun d =>
    (d, hopDir (s.ring d) (coord node d) (coord s.whistle.root d))

/-- The node one hop away. -/
def State.hopNode (s : State) (node d dir : Nat) : Nat := withCoord node d (neighbour (s.ring d) (coord node d) dir)

/-- The adit of a hop: the lowest-numbered one that is up, else the first. -/
def State.hopAdit (s : State) (d dir : Nat) : Nat :=
  (((List.range 3).find? fun j => s.aditUp (aditOf d dir j)).map (aditOf d dir)).getD (aditOf d dir 0)

/-- A FLEET packet (Table 17.1). -/
def State.fleetPacket (s : State) (dst : Nat) (mcast : Bool) (payload : Nat) : Packet :=
  { s.newPacket dst 7 8 with mcast := mcast, esc := mcast, plen := 32, payload := payload }

/-- WHISTLE_ENABLE (R455, R456, Table 17.4): a write to WHS_CTRL that sets EN: fleet time and frames run from the frame number
in WHS_FRAME, in the role written; a node source finds its parent on the way to the root's node.
(DESIGN CHOICE: notes/assumptions/65) -/
def execWhistleEnable (val root : Nat) (s : State) : Host.Outcome State Fault Refusal :=
  if !s.up 1 then .next s else
  let s := s.noteReserved Reg.whsCtrl val
  if s.flag Reg.whsCtrl Fld.whsCtrlEn ∨ !val.testBit 0 then .next s
  else
    let s := s.storeFields Reg.whsCtrl val
    let s := s.modWhistle fun w => { Whistle.idle with root, words := w.words, lastSeq := w.lastSeq, code := w.code, seq := w.seq }
    let parent := if s.whsRole = 1 then
        match s.rootHop s.node with
        | some (d, dir) => s.hopAdit d dir
        | none => 0xFF
      else 0xFF
    .next ({ s with bcycle := s.cycle }.setFld Reg.whsStat Fld.whsStatParent parent)

/-- WHISTLE_OUT_EDGE (R456): a node source drives an edge on WHISTLE_OUT, and names the frame it begins in a FRAMENO message
to the other modules of its W ring. -/
def execWhistleOutEdge (s : State) : Host.Outcome State Fault Refusal :=
  if !s.flag Reg.whsCtrl Fld.whsCtrlEn ∨ s.whsRole = 0 then .next s
  else
    let s := s.emit (.pin 1 true)
    let l := (List.range (s.ring 0)).filter (· ≠ coord s.node 0)
    .next (l.foldl (fun s w =>
      s.send (s.fleetPacket (withCoord s.node 0 w) false (packFields [(1, 2), (7, 0), (8, s.frame + 1)]))) s)

/-- A timing input arrives with a correction in ps (R456, R458): it ends a holdover. -/
def State.timingInput (s : State) (ps : Int) : State :=
  let s := s.setReg Reg.whsOffset (ofInt 32 ps)
  let s := s.modWhistle fun w => { w with seen := true, corr := ps.natAbs, quiet := 0, held := 0 }
  s.setFld Reg.whsStat Fld.whsStatHoldover 0

/-- TIME_RECEIVE (R456): a child takes its parent's frame and corrects its fleet time by half the measured RTT of the adit;
`at_` is the instant of arrival in ps after its own last boundary. (DESIGN CHOICE: notes/assumptions/65) -/
def execTimeReceive (p : Packet) (at_ : Nat) (s : State) : Host.Outcome State Fault Refusal :=
  if !s.up 1 then .next s else
  let s := s.consume p
  if !s.flag Reg.whsCtrl Fld.whsCtrlEn ∨ s.whsRole ≠ 1 ∨ getBytes p.payload 0 1 ≠ 1 then .next s
  else
    let a := s.fld Reg.whsStat Fld.whsStatParent
    let rtt := if a = 0xFF then 0 else s.fld (Reg.bnlPortStat a) Fld.bnlPortStatRtt
    let s := s.setReg64 Reg.whsFrame0 Reg.whsFrame1 (getBytes p.payload 8 8)
    .next (s.timingInput (((getBytes p.payload 16 4 + rtt * 500 : Nat) : Int) - at_))

/-- FRAMENO_RECEIVE (R456): a follower whose own count disagrees takes the number given. -/
def execFramenoReceive (p : Packet) (s : State) : Host.Outcome State Fault Refusal :=
  if !s.up 1 then .next s else
  let s := s.consume p
  let n := getBytes p.payload 8 8
  if !s.flag Reg.whsCtrl Fld.whsCtrlEn ∨ s.whsRole ≠ 0 ∨ getBytes p.payload 0 1 ≠ 2 ∨ n = (s.frame + 1) % 2 ^ 64 then
    .next s
  else .next ((s.setReg64 Reg.whsFrame0 Reg.whsFrame1 ((n + 2 ^ 64 - 1) % 2 ^ 64)).bump Reg.whsSlipCnt)

/-- TIMING_LOCKED (R458): 25 frames in a row with a correction of at most 5 ns; UNALIGNED clears. -/
def execTimingLocked (s : State) : Host.Outcome State Fault Refusal :=
  if s.whistle.lockRun < 25 then .next s
  else .next ((s.setFld Reg.whsStat Fld.whsStatLocked 1).setFld Reg.whsStat Fld.whsStatUnaligned 0)

/-- HOLDOVER_ENTER (R458): no timing input for 2 frames. -/
def execHoldoverEnter (s : State) : Host.Outcome State Fault Refusal :=
  if !s.flag Reg.whsCtrl Fld.whsCtrlEn ∨ s.whistle.quiet < 2 ∨ s.flag Reg.whsStat Fld.whsStatHoldover then .next s
  else
    let s := (s.setFld Reg.whsStat Fld.whsStatHoldover 1).setFld Reg.whsStat Fld.whsStatLocked 0
    .next ((s.modWhistle fun w => { w with held := 0, lockRun := 0 }).bump Reg.whsHoldCnt)

/-- UNALIGNED_SET (R458): a holdover longer than WHS_HOLD_LIMIT frames. -/
def execUnalignedSet (s : State) : Host.Outcome State Fault Refusal :=
  if !s.flag Reg.whsStat Fld.whsStatHoldover ∨ s.whistle.held ≤ s.fld Reg.whsHoldLimit Fld.whsHoldLimitFrames
      ∨ s.flag Reg.whsStat Fld.whsStatUnaligned then .next s
  else .next (s.setFld Reg.whsStat Fld.whsStatUnaligned 1).whsEvent

/-- The timing of the frame that has just ended (R458): the timing root runs free; a follower's input is the edge on
WHISTLE_IN, with its correction in ps, a node source's the TIME message. A correction above 5 ns ends LOCKED (20 R535). -/
def State.frameTiming (s : State) (edge : Option Int) : State :=
  let s := match s.whsRole, edge with
    | 2, _ => s.modWhistle fun w => { w with seen := true, corr := 0, quiet := 0 }
    | 0, some e => s.timingInput e
    | _, _ => s
  let s := if s.whistle.seen && decide (5000 < s.whistle.corr) then s.setFld Reg.whsStat Fld.whsStatLocked 0 else s
  s.modWhistle fun w =>
    { w with lockRun := if w.seen && w.corr ≤ 5000 then w.lockRun + 1 else 0
             quiet := if w.seen then 0 else w.quiet + 1
             held := if s.flag Reg.whsStat Fld.whsStatHoldover then w.held + 1 else 0
             seen := false }

/-- The TIME messages of a node source after a boundary (R456): one to each child, whose parent it is; the send instant is
open. (DESIGN CHOICE: notes/assumptions/66) -/
def State.sendTimes (s : State) : State :=
  if !s.flag Reg.whsCtrl Fld.whsCtrlEn ∨ s.whsRole = 0 then s
  else
    let hops := [(3, 0), (3, 1), (2, 0), (2, 1), (1, 0), (1, 1)].filter fun h => 2 ≤ s.ring h.1
    let kids := ((hops.map fun h => s.hopNode s.node h.1 h.2).eraseDups).filter fun n =>
      n ≠ s.node && (match s.rootHop n with
        | some (d, dir) => s.hopNode n d dir = s.node
        | none => false)
    kids.foldl (fun s n =>
      let r := s.freeVal
      r.2.send (r.2.fleetPacket n false (packFields [(1, 1), (7, 0), (8, s.frame), (4, r.1)]))) s

/-! ## The fleet frequency word (R460) -/

/-- Is a sequence newer than the last word applied, modulo 256. -/
def Whistle.newer (w : Whistle) (seq : Nat) : Bool :=
  match w.lastSeq with
  | none => true
  | some l => decide (0 < (seq + 256 - l) % 256) && decide ((seq + 256 - l) % 256 < 128)

/-- WHS_FREQ.NEXT shows the pending code, CODE when none. -/
def State.showNext (s : State) : State :=
  s.setFld Reg.whsFreq Fld.whsFreqNext ((s.whistle.words.getLast?.map (·.code)).getD s.freqCode)

/-- WORD_RECEIVE (R460): a code above 16 is discarded; an old sequence is ignored; a word for a boundary already past is
applied at the next one. -/
def execWordReceive (p : Packet) (s : State) : Host.Outcome State Fault Refusal :=
  if !s.up 1 then .next s else
  let s := s.consume p
  let e := getBytes p.payload 8 8
  let code := getBytes p.payload 16 1
  let seq := getBytes p.payload 17 1
  if getBytes p.payload 0 1 ≠ 3 then .next s
  else if 16 < code then .next (s.bump Reg.whsBadWordCnt).whsEvent
  else if !s.whistle.newer seq then .next s
  else
    let late := decide (e ≤ s.frame)
    let s := (s.modWhistle fun w => { w with words := w.words ++ [⟨e, code, seq, late⟩] }).showNext
    .next (if late then (s.bump Reg.whsLateWordCnt).whsEvent else s)

/-- The words due at the boundary that begins a frame, in the order received (R460; Table 1.6, action 5). -/
def State.applyWords (s : State) (frame : Nat) : State :=
  let due := s.whistle.words.filter fun w => w.late || w.frame ≤ frame
  let s := s.modWhistle fun w => { w with words := w.words.filter fun x => !(x.late || x.frame ≤ frame) }
  (due.foldl (fun s x =>
    if !s.whistle.newer x.seq then s
    else
      let s := (s.setFld Reg.whsFreq Fld.whsFreqCode x.code).modWhistle fun w => { w with lastSeq := some x.seq }
      if x.code < s.fld Reg.pwrFlimit Fld.pwrFlimitFmin ∨ s.fld Reg.pwrFlimit Fld.pwrFlimitFmax < x.code then
        (s.bump Reg.whsLimitWordCnt).whsEvent
      else s) s).showNext

/-! ## Reports and the banksman (R461, R462) -/

/-- REPORT_RECEIVE (R461, R462): held until the boundary that ends the frame. -/
def execReportReceive (p : Packet) (s : State) : Host.Outcome State Fault Refusal :=
  if !s.up 1 then .next s else
  let s := s.consume p
  let g := fun (lo n : Nat) => getBytes p.payload lo n
  if g 0 1 ≠ 4 then .next s
  else .next (s.modWhistle fun w =>
    { w with reports := w.reports ++ [⟨g 16 2, g 18 2, sext 16 (g 20 2), (g 22 1).testBit 0⟩] })

/-- Send the module's report for a frame to the banksman node (R461); a banksman counts its own module as a reporter.
(DESIGN CHOICE: notes/assumptions/67) -/
def State.sendReport (s : State) (frame : Nat) (r : BankReport) : State :=
  let um := s.fld Reg.pwrBankCfg Fld.pwrBankCfgUpMargin
  if r.gated = 0 ∧ r.defer = 0 ∧ (um : Int) ≤ r.head ∧ !r.long then s
  else
    let n := s.fld Reg.pwrBanksman Fld.pwrBanksmanNode
    if n = s.node then s.modWhistle fun w => { w with reports := w.reports ++ [r] }
    else s.send (s.fleetPacket n false
      (packFields [(1, 4), (7, 0), (8, frame), (2, r.gated), (2, r.defer), (2, ofInt 16 r.head), (1, r.long.toNat)]))

/-- Send a WORD through the banksman's box (R460). -/
def State.sendWord (s : State) (code frame : Nat) : State :=
  let seq := s.whistle.seq
  let s := s.send (s.fleetPacket (s.fld Reg.pwrBanksman Fld.pwrBanksmanBox) true
    (packFields [(1, 3), (7, 0), (8, frame), (1, code), (1, seq)]))
  (s.modWhistle fun w => { w with seq := (seq + 1) % 256, code := some code }).bump Reg.pwrWordCnt

/-- The banksman at the boundary that begins frame F (R462): only the reports of the frame that has just ended count.
(DESIGN CHOICE: notes/assumptions/67) -/
def State.banksman (s : State) (frame : Nat) : State :=
  let l := s.whistle.reports
  let s := s.modWhistle fun w => { w with reports := [] }
  if !s.flag Reg.pwrCtrl Fld.pwrCtrlBanksman then s.modWhistle fun w => { w with up := 0, down := 0, code := none }
  else
    let um : Int := (s.fld Reg.pwrBankCfg Fld.pwrBankCfgUpMargin : Nat)
    let lag := l.any fun (r : BankReport) => r.gated > 0 || r.defer > 0
    let tight := l.any fun (r : BankReport) => decide (r.head < um) || r.long
    let down := if lag then s.whistle.down + 1 else 0
    let up := if !lag && !tight then s.whistle.up + 1 else 0
    let code := s.whistle.code.getD s.freqCode
    let s := if s.whistle.code.isSome then s else
      s.modWhistle fun w => { w with seq := (w.lastSeq.map fun q => (q + 1) % 256).getD w.seq, code := some code }
    let downFrames := max 1 (s.fld Reg.pwrBankCfg Fld.pwrBankCfgDownFrames)
    let upFrames := max 1 (s.fld Reg.pwrBankCfg Fld.pwrBankCfgUpFrames)
    if downFrames ≤ down ∧ s.fld Reg.pwrFlimit Fld.pwrFlimitFmin < code then
      (s.modWhistle fun w => { w with up := 0, down := 0 }).sendWord (code - 1) (frame + 2)
    else if upFrames ≤ up ∧ code < s.fld Reg.pwrFlimit Fld.pwrFlimitFmax then
      (s.modWhistle fun w => { w with up := 0, down }).sendWord (code + 1) (frame + 2)
    else s.modWhistle fun w => { w with up, down }

end Sys2Proof.Machine
end

