-- ==== Sys2Proof/Machine/PowerLoops.lean ====
section
/-!
DEFINITION. The power loops (17 R463-R475): droop, the estimate and its calibration, disagreement and distrust, the cap
controller with gating, pacing and deferral, regulator protection, level draw, heat and coolant.
-/
namespace Sys2Proof.Machine

/-- Change the state of the power loops. -/
def State.modPower (s : State) (f : Power → Power) : State := { s with power := f s.power }

/-- A power event, when PWR_CTRL.EVENT allows it. -/
def State.pwrEvent (s : State) (c : Bool) : State := s.raiseIf (c && s.flag Reg.pwrCtrl Fld.pwrCtrlEvent) 13

/-- Add a sample to a sum. -/
def Mean.add (m : Mean) (x : Nat) : Mean := ⟨m.sum + x, m.n + 1⟩

/-- The mean of the samples, 0 of none. -/
def Mean.mean (m : Mean) : Nat := if m.n = 0 then 0 else m.sum / m.n

/-! ## Droop (R463) -/

/-- DROOP_EVENT (R463): one event of a stope stretches at most 32 cycles of its level. -/
def execDroopEvent (stope cycles : Nat) (s : State) : Host.Outcome State Fault Refusal :=
  if !s.up 1 then .next s else
  .next ((s.bump (Reg.pwrDroopCnt stope)).bumpN (Reg.pwrStretchCnt (stope / 72)) (min cycles 32))

/-! ## Estimate and measurement (R464-R466) -/

/-- The controlled draw: 1.15 times the estimate under distrust, the larger of estimate and measurement under disagreement
(R464-R466). -/
def State.ctlDraw (s : State) : Nat :=
  let p := s.power
  if s.flag Reg.pwrStat Fld.pwrStatDistrust then p.est * 115 / 100
  else if s.flag Reg.pwrStat Fld.pwrStatDisagree then max p.est p.meas
  else p.est

/-- Set junction temperatures, and the levels that throttle: from 100 degrees until at most 98 (Table 17.3). Protection for
heat acts from 105 degrees until below 103. -/
def State.junctions (s : State) (t0 t1 : Int) : State :=
  let s := s.setReg Reg.pwrTj (ofInt 16 t1 * 2 ^ 16 + ofInt 16 t0)
  let hot := fun (l : Nat) (t : Int) => decide (1600 ≤ t) || (s.power.hot.contains l && decide (1568 < t))
  let heat := decide (1680 ≤ t0 ∨ 1680 ≤ t1)
  let cool := decide (t0 < 1648 ∧ t1 < 1648)
  let l := (if hot 0 t0 then [0] else []) ++ (if hot 1 t1 then [1] else [])
  let need := heat || (s.power.needHeat && !cool)
  (s.modPower fun p => { p with hot := l, hotFrame := p.hotFrame || !l.isEmpty, needHeat := need }).pwrEvent
    (heat && !s.power.needHeat)

/-- POWER_ESTIMATE_TICK (R464, Table 17.2): P_est = K × R, and the controlled draw; the activity counters are read, and count
afresh. (DESIGN CHOICE: notes/assumptions/110) -/
def execPowerEstimateTick (e : Estimate) (s : State) : Host.Outcome State Fault Refusal :=
  if !s.up 1 then .next s else
  let s := { s with activity := [] }.junctions e.tj0 e.tj1
  let s := s.modPower fun p =>
    { p with raw := e.raw, est := s.reg Reg.pwrCal * e.raw / 65536, links := e.links, hbm := e.hbm, other := e.other,
             compute := e.compute, age := p.age + 1 }
  let ctl := s.ctlDraw
  .next (s.modPower fun p =>
    { p with ctl, mRaw := p.mRaw.add p.raw, mEst := p.mEst.add p.est, mCtl := p.mCtl.add ctl,
             mCompute := p.mCompute.add p.compute })

/-- POWER_MEASUREMENT_SAMPLE (R464): a telemetry sample of the 54 V regulators, in mW.
(DESIGN CHOICE: notes/assumptions/85) -/
def execPowerMeasurementSample (mw : Nat) (s : State) : Host.Outcome State Fault Refusal :=
  if !s.up 1 then .next s else
  .next (s.modPower fun p => { p with meas := mw, age := 0, mMeas := p.mMeas.add mw })

/-- DISAGREE_DECLARE (R465): 26 frames in a row; distrust takes precedence (R466). -/
def execDisagreeDeclare (s : State) : Host.Outcome State Fault Refusal :=
  if s.power.disagree < 26 ∨ s.flag Reg.pwrStat Fld.pwrStatDisagree ∨ s.flag Reg.pwrStat Fld.pwrStatDistrust then .next s
  else
    let s := (s.setFld Reg.pwrStat Fld.pwrStatDisagree 1).setFld Reg.pwrStat Fld.pwrStatRecal 1
    let s := (s.bump Reg.pwrDisagreeCnt).pwrEvent true
    .next (s.modPower fun p => { p with recal := 0, sumMeas := 0, sumRaw := 0 })

/-- RECALIBRATION_END (R465): after 250 frames K = ΣM / ΣRm, and the disagreement clears; under distrust, which freezes K and takes
precedence (R466), it waits. (DEDUCED: notes/assumptions/112) -/
def execRecalibrationEnd (s : State) : Host.Outcome State Fault Refusal :=
  if s.power.recal < 250 ∨ !s.flag Reg.pwrStat Fld.pwrStatRecal ∨ s.flag Reg.pwrStat Fld.pwrStatDistrust then .next s
  else
    let r := s.openDiv (s.power.sumMeas * 65536) s.power.sumRaw
    let s := if s.power.sumRaw = 0 then s else r.1.setReg Reg.pwrCal r.2.toNat
    let s := (s.setFld Reg.pwrStat Fld.pwrStatDisagree 0).setFld Reg.pwrStat Fld.pwrStatRecal 0
    .next (s.modPower fun p => { p with disagree := 0 })

/-- DISTRUST_DECLARE (R466): a frame mean of the measurement below 20 % of the estimate, or no sample for 300 µs. -/
def execDistrustDeclare (s : State) : Host.Outcome State Fault Refusal :=
  if !s.up 1 then .next s else
  if s.flag Reg.pwrStat Fld.pwrStatDistrust ∨ !(s.power.low || decide (300 ≤ s.power.age)) then .next s
  else .next (((s.setFld Reg.pwrStat Fld.pwrStatDistrust 1).pwrEvent true).modPower fun p => { p with valid := 0 })

/-- DISTRUST_CLEAR (R466): after 25 frames in a row of valid measurement. -/
def execDistrustClear (s : State) : Host.Outcome State Fault Refusal :=
  if !s.flag Reg.pwrStat Fld.pwrStatDistrust ∨ s.power.valid < 25 then .next s
  else .next (s.setFld Reg.pwrStat Fld.pwrStatDistrust 0)

/-! ## Caps (R467-R470) -/

/-- The effective cap of the limits other than level draw, in mW (R467, Table 17.3). -/
def State.otherCap (s : State) : Nat :=
  let env := s.fld Reg.pwrEnvelope Fld.pwrEnvelopeWatts * 1000
  let c := min (min env (s.fld Reg.pwrCap Fld.pwrCapWatts * 1000)) (env - s.power.cut)
  if s.power.slow then min c 900000 else c

/-- The ramped target in mW. -/
def State.targetMw (s : State) : Nat := s.power.target / 1000000

/-- The effective cap in mW (R467, R472). -/
def State.effCap (s : State) : Nat :=
  if s.flag Reg.pwrCtrl Fld.pwrCtrlLevelDraw then min s.otherCap s.targetMw else s.otherCap

/-- Active stopes of a level that are not selected for gating. -/
def State.activeStopes (s : State) (level : Nat) : List Nat :=
  ((List.range 72).map fun k => level * 72 + k).filter fun n => s.stopeState n = 1 && !(s.stope n).gate

/-- Stopes selected and not gated yet. -/
def State.selectedStopes (s : State) : Nat := ((List.range 144).filter fun n => (s.stope n).gate).length

/-- The next stope to select (R468): the highest-numbered active one of the level with more active stopes, level 0 on a tie;
each level keeps 4 (R467). -/
def State.nextGate (s : State) : Option Nat :=
  let a := s.activeStopes 0
  let b := s.activeStopes 1
  let l := if b.length ≤ a.length then a else b
  if l.length ≤ 4 then none else l.getLast?

/-- Select stopes for gating. (DESIGN CHOICE: notes/assumptions/69) -/
def State.selectGates (s : State) : Nat → State
  | 0 => s
  | n + 1 =>
    match s.nextGate with
    | some k => State.selectGates (s.modStope k fun c => { c with gate := true }) n
    | none => s

/-- Select one stope of every level that throttles (Table 17.3). (DESIGN CHOICE: notes/assumptions/69) -/
def State.heatGates (s : State) : State :=
  s.power.hot.foldl (fun s l =>
    match (s.activeStopes l).getLast? with
    | some k => s.modStope k fun c => { c with gate := true }
    | none => s) s

/-- The mean compute draw per active stope over the last frame, in mW (R467); before a first frame, over this tick. -/
def State.perStope (s : State) : Nat :=
  if s.power.perStope = 0 then
    s.power.compute / max 1 ((s.activeStopes 0).length + (s.activeStopes 1).length + s.selectedStopes)
  else s.power.perStope

/-- The remainder that gating cannot meet is paced, protected or deferred (R469, R470). -/
def State.remainder (s : State) (r : Nat) : State :=
  let shown := s.openDiv r 1000
  let off := fun (s : State) => (s.setFld Reg.pwrStat Fld.pwrStatDefer 0).setFld Reg.pwrCtld Fld.pwrCtldDefer 0
  if r = 0 then
    ((off s).setFld Reg.pwrStat Fld.pwrStatPaced 0).modPower fun p => { p with needCap := false, needLimit := false, defers := 0 }
  else if s.reg Reg.hstOpen = 0 then
    ((off s).setFld Reg.pwrStat Fld.pwrStatPaced 1).modPower fun p =>
      { p with needCap := decide (p.hbm * 3 / 4 < r), needLimit := false, defers := 0 }
  else
    let s := ((shown.1.setFld Reg.pwrStat Fld.pwrStatPaced 0).setFld Reg.pwrStat Fld.pwrStatDefer 1).setFld Reg.pwrCtld
      Fld.pwrCtldDefer shown.2.toNat
    s.modPower fun p =>
      { p with needCap := false, deferFrame := true, deferW := shown.2.toNat
               needLimit := p.needLimit || decide (s.fld Reg.pwrEnvelope Fld.pwrEnvelopeWatts * 1000 < p.meas) }

/-- CAP_CONTROL_TICK (R467-R470, R472, Table 17.3): the compute share, ballast, stopes selected for gating, the remainder. -/
def execCapControlTick (s : State) : Host.Outcome State Fault Refusal :=
  if !s.up 1 then .next s else
  let s := s.heatGates
  let p := s.power
  let bc : Int := (s.effCap : Int) - (p.links + p.hbm + p.other : Nat)
  let past := ((p.compute : Int) - bc).toNat
  let unit := s.perStope
  let below := s.flag Reg.pwrCtrl Fld.pwrCtrlLevelDraw && decide (p.ctl < s.targetMw)
  let s := s.modPower fun p => { p with noBallast := decide (0 < past), extra := below }
  let s := if past = 0 ∨ unit = 0 then s else s.selectGates ((past + unit - 1) / unit - s.selectedStopes)
  .next (s.remainder (past - unit * s.selectedStopes))

/-- DEFER_LIMIT_EXPIRY (R470): the deferral has lasted PWR_DEFER_MAX frames; protection applies with buckets open. -/
def execDeferLimitExpiry (s : State) : Host.Outcome State Fault Refusal :=
  if s.flag Reg.pwrStat Fld.pwrStatDefer ∧ max 1 (s.fld Reg.pwrDeferMax Fld.pwrDeferMaxFrames) ≤ s.power.defers then
    .next (s.modPower fun p => { p with needLimit := true })
  else .next s

/-- PROTECTION_TICK (R471, Table 17.3): one cycle in n is stretched by one period; heat makes it one in two, else how n moves
is open until the controlled draw does not exceed the effective cap. -/
def execProtectionTick (s : State) : Host.Outcome State Fault Refusal :=
  if !s.up 1 then .next s else
  let p := s.power
  let need := p.needCap || p.needLimit || p.needHeat
  if !need then .next ((s.setFld Reg.pwrStat Fld.pwrStatProtect 0).modPower fun p => { p with stretch := 0 })
  else
    let r := s.freeVal
    let keep := decide (p.ctl ≤ s.effCap) && decide (2 ≤ p.stretch)
    let n := if p.needHeat then 2 else if keep then p.stretch else 2 + r.1 % 2 ^ 16
    let s := if p.needHeat || keep then s else r.2
    let cycles := clockMHz s.freqCode / n
    let s := (s.bumpN (Reg.pwrStretchCnt 0) cycles).bumpN (Reg.pwrStretchCnt 1) cycles
    .next ((s.setFld Reg.pwrStat Fld.pwrStatProtect 1).modPower fun p => { p with stretch := n, protectFrame := true })

/-! ## Level draw (R472, R473) -/

/-- SETPOINT_WRITE (R473): the ramp starts again from the current target, by 5 % of it per 100 ms of frames. -/
def execSetpointWrite (val : Nat) (s : State) : Host.Outcome State Fault Refusal :=
  if !s.up 1 then .next s else
  let s := s.noteReserved Reg.pwrSetpoint val
  if val % 2 ^ 11 < 300 ∨ 1500 < val % 2 ^ 11 then .next s
  else .next ((s.storeFields Reg.pwrSetpoint val).modPower fun p =>
    { p with ramp := p.target * s.fld Reg.whsPeriod Fld.whsPeriodTicks * 5 / 10 ^ 9 })

/-- Move the target by one frame of its ramp. -/
def State.rampTarget (s : State) : State :=
  let goal := s.fld Reg.pwrSetpoint Fld.pwrSetpointWatts * 10 ^ 9
  s.modPower fun p =>
    { p with target := if p.target < goal then min goal (p.target + p.ramp) else max goal (p.target - p.ramp) }

/-- LEVEL_DRAW_WINDOW (R472): the last 25 frames; a mean outside 2 % of the target is a miss. -/
def execLevelDrawWindow (s : State) : Host.Outcome State Fault Refusal :=
  let w := s.power.window
  if !s.flag Reg.pwrCtrl Fld.pwrCtrlLevelDraw ∨ !s.power.windowEnd ∨ w.length < 25 then .next s
  else
    let ctl : Nat := (w.map (·.1)).foldl (· + ·) 0
    let tgt : Nat := (w.map (·.2)).foldl (· + ·) 0
    let s := s.modPower fun p => { p with windowEnd := false }
    if 100 * ctl < 98 * tgt ∨ 102 * tgt < 100 * ctl then .next ((s.bump Reg.pwrLevelMissCnt).pwrEvent true) else .next s

/-! ## The boundary (R464-R466, R468, R474, R475; Table 1.6) -/

/-- The heat handed to the coolant in W (R474); a value below 0 is not stated. -/
def State.heat (s : State) (tIn tOut : Int) (flow : Nat) : State × Nat :=
  let r := s.openDiv (flow * s.fld Reg.pwrVhc Fld.pwrVhcVhc * (tOut - tIn)) (60 * 16 * 1000)
  if tOut < tIn then
    let f := s.freeVal
    (f.2, f.1 % 2 ^ 16)
  else (r.1, r.2.toNat)

/-- Telemetry of the frame that has ended (R474; Table 1.6, action 1). -/
def State.sampleHeat (s : State) (b : Boundary) : State :=
  let h := s.heat b.tIn b.tOut b.flow
  let s := (h.1.setReg Reg.pwrTemp (ofInt 16 b.tOut * 2 ^ 16 + ofInt 16 b.tIn)).setFld Reg.pwrFlow Fld.pwrFlowMlMin b.flow
  let s := s.setFld Reg.pwrHeat Fld.pwrHeatWatts h.2
  let step := s.fld Reg.pwrEnvelope Fld.pwrEnvelopeWatts * 20
  let s := s.modPower fun p =>
    { p with slow := decide (b.flow < 1200)
             cut := if 1280 ≤ b.tOut then p.cut + step else if b.tOut < 1264 then p.cut - step else p.cut }
  s.pwrEvent (decide (1040 < b.tIn ∨ b.tIn < 320 ∨ b.flow < 1200))

/-- K after a frame without disagreement or distrust (R464). (DESIGN CHOICE: notes/assumptions/68) -/
def State.calibrate (s : State) (m rm : Nat) : State :=
  if rm = 0 ∨ s.flag Reg.pwrStat Fld.pwrStatDisagree ∨ s.flag Reg.pwrStat Fld.pwrStatDistrust then s
  else
    let k := s.reg Reg.pwrCal
    let r := s.openDiv ((m : Int) * 65536 - (k : Int) * rm) (16 * rm)
    r.1.setReg Reg.pwrCal ((k : Int) + r.2).toNat

/-- The frame means and what follows from them (R464-R466, R472); a frame without a sample has no mean of P_meas.
(DEDUCED: notes/assumptions/112) -/
def State.samplePower (s : State) : State :=
  let p := s.power
  let m := p.mMeas.mean
  let e := p.mEst.mean
  let rm := p.mRaw.mean
  let w := fun (s : State) (x : Mean) => s.openDiv x.sum (1000 * max 1 x.n)
  let wm := w s p.mMeas
  let we := w wm.1 p.mEst
  let wc := w we.1 p.mCtl
  let s := wc.1.setReg Reg.pwrDraw (wm.2.toNat % 2 ^ 16 * 2 ^ 16 + we.2.toNat % 2 ^ 16)
  let s := s.setFld Reg.pwrCtld Fld.pwrCtldCtl wc.2.toNat
  let distrust := s.flag Reg.pwrStat Fld.pwrStatDistrust
  let measured := decide (p.mMeas.n ≠ 0)
  let low := measured && decide (m * 5 < e)
  let s := if measured then s.calibrate m rm else s
  let s := s.bumpIf distrust Reg.pwrDistrustCnt
  let recal := s.flag Reg.pwrStat Fld.pwrStatRecal && !distrust
  let differ := measured && decide (m < 10 * ((m : Int) - e).natAbs)
  let active := (s.activeStopes 0).length + (s.activeStopes 1).length + s.selectedStopes
  s.modPower fun p =>
    { p with
      low
      disagree := if differ && !distrust then p.disagree + 1 else 0
      valid := if distrust && !low && p.age < 300 && p.mMeas.n ≠ 0 then p.valid + 1 else 0
      recal := if recal then p.recal + 1 else 0
      sumMeas := if recal then p.sumMeas + m else 0
      sumRaw := if recal then p.sumRaw + rm else 0
      perStope := p.mCompute.mean / max 1 active
      window := if s.flag Reg.pwrCtrl Fld.pwrCtrlLevelDraw then
          (p.window ++ [(p.mCtl.mean, p.target / 1000000)]).drop ((p.window.length + 1) - 25)
        else []
      windowEnd := true }

/-- The power counters of the frame that has ended (R470, R471, R475). -/
def State.countPower (s : State) : State :=
  let p := s.power
  let s := ((s.bumpIf p.deferFrame Reg.pwrDeferCnt).bumpIf p.protectFrame Reg.pwrProtectCnt).bumpIf p.hotFrame
    Reg.pwrThrottleCnt
  let defer := s.flag Reg.pwrStat Fld.pwrStatDefer
  s.modPower fun p =>
    { p with defers := if defer then p.defers + 1 else 0, deferFrame := defer
             deferW := if defer then p.deferW else 0, hotFrame := !p.hot.isEmpty
             protectFrame := s.flag Reg.pwrStat Fld.pwrStatProtect
             mRaw := ⟨0, 0⟩, mEst := ⟨0, 0⟩, mMeas := ⟨0, 0⟩, mCtl := ⟨0, 0⟩, mCompute := ⟨0, 0⟩ }

/-- Gated stopes that return to service at a boundary with no remainder deferred (R468): lowest-numbered first, those of a
throttling level left out. -/
def State.chooseUngates (s : State) : State :=
  let p := s.power
  let unit := s.perStope
  let bc : Int := (s.effCap : Int) - (p.links + p.hbm + p.other : Nat)
  let room := (bc - p.compute - (s.fld Reg.pwrBankCfg Fld.pwrBankCfgHyst * 1000 : Nat)).toNat
  if unit = 0 ∨ s.flag Reg.pwrStat Fld.pwrStatDefer then s
  else
    (((List.range 144).filter fun n => s.stopeState n = 3 && !p.hot.contains (n / 72)).take (room / unit)).foldl
      (fun s n => s.modStope n fun c => { c with ungate := true }) s

/-- HEAD of the frame that has ended in W (R461): the effective cap less the mean of the controlled draw. -/
def State.headroomW (s : State) : State × Int := s.openDiv ((s.effCap : Int) - s.power.mCtl.mean) 1000

/-- The report of the frame that has ended, at the boundary that begins the next (R461). -/
def State.frameReport (s : State) (frame gated : Nat) (head : Int) (defer : Nat) : State :=
  let s' := s.sendReport frame { gated, defer, head, long := s.phases.long }
  { s' with phases := { s'.phases with long := false } }

end Sys2Proof.Machine
end

