-- ==== Sys2Proof/Machine/Smelter.lean ====
section
/-!
DEFINITION. The smelter (14 R377-R395): seam tensors, smelt blocks and programs, the update of an element, chunks, the
finish, INIT and REBASE.
-/
namespace Sys2Proof.Machine

/-! ## The smelt block and the seam header (Tables 14.1 and 14.3) -/

/-- `n` bytes of the block from byte `lo`. -/
def Smelt.get (x : Smelt) (lo n : Nat) : Nat := getBytes x.block lo n
/-- SEAM. -/
def Smelt.seam (x : Smelt) : Nat := x.get 0 8
/-- N of the seam header. -/
def Smelt.count (x : Smelt) : Nat := getBytes x.hdr 8 8
/-- TID of the seam header. -/
def Smelt.tid (x : Smelt) : Nat := getBytes x.hdr 4 4
/-- GKIND [1:0]. -/
def Smelt.gkind (x : Smelt) : Nat := x.get 65 1 % 4
/-- MEAN. -/
def Smelt.mean (x : Smelt) : Bool := (x.get 65 1).testBit 2
/-- The width of a raw ore integer. -/
def Smelt.oreW (x : Smelt) : Nat := if x.gkind = 2 then 64 else 32
/-- Bytes of a raw ore block. -/
def Smelt.oreBytes (x : Smelt) : Nat := if x.gkind = 2 then 516 else 260
/-- The address of state `k`. -/
def Smelt.stateAt (x : Smelt) (k : Nat) : Nat := x.get (16 + 8 * k) 8

/-- The headroom that the smelter keeps (Table 14.7): values outside 1-62 are taken as 20. -/
def targetOf (rebase : Nat) : Nat := if 1 ≤ rebase % 256 ∧ rebase % 256 ≤ 62 then rebase % 256 else 20

/-- A chunk's elements (R391). -/
def chunkElems : Nat := 4096

/-- Chunks of a seam tensor. -/
def Smelt.chunks (x : Smelt) : Nat := (x.count + chunkElems - 1) / chunkElems

/-- A micro-operation (R383). -/
structure MicroOp where
  op : Nat
  d : Nat
  a : Nat
  b : Nat
  c : Nat
  rsv : Nat
  idx : Nat

/-- Read a micro-operation. -/
def MicroOp.ofNat (w : Nat) : MicroOp :=
  ⟨bits w 31 26, bits w 25 22, bits w 21 18, bits w 17 14, bits w 13 10, bits w 9 3, bits w 2 0⟩

/-- The program of a smelt. -/
def progOps (prog nops : Nat) : List MicroOp := (List.range nops).map fun i => MicroOp.ofNat (getBytes prog (4 * i) 4)

/-- The fields that an operation uses: D, A, B, C, IDX; none for a reserved opcode (Table 14.4). -/
def MicroOp.uses (o : MicroOp) : Option (Bool × Bool × Bool × Bool × Bool) :=
  match o.op with
  | 0x01 | 0x02 | 0x03 | 0x05 | 0x08 | 0x09 => some (true, true, true, false, false)
  | 0x04 => some (true, true, true, true, false)
  | 0x06 | 0x07 | 0x0A | 0x0B | 0x0C => some (true, true, false, false, false)
  | 0x10 => some (true, false, false, false, true)
  | 0x11 => some (false, true, false, false, true)
  | 0x12 => some (false, true, false, false, false)
  | _ => none

/-- Is a micro-operation valid by itself (R384); `absent` says which states are absent. -/
def MicroOp.ok (o : MicroOp) (absent : Nat → Bool) : Bool :=
  match o.uses with
  | none => false
  | some (d, a, b, c, i) =>
    (d || o.d = 0) && (a || o.a = 0) && (b || o.b = 0) && (c || o.c = 0) && (i || o.idx = 0) && o.rsv = 0 &&
      (o.op ≠ 0x11 || (o.idx ≤ 3 && !absent o.idx))

/-- Is a program valid (R384). -/
def progOk (l : List MicroOp) (absent : Nat → Bool) : Bool :=
  l.all (fun o => o.ok absent) &&
  (List.range 4).all (fun k => (l.filter fun o => o.op = 0x11 && o.idx = k).length ≤ 1) &&
  (l.filter fun o => o.op = 0x12).length = 1

/-- Are the reserved fields of a block 0 and its codes in range (Table 14.3, R381). (DEDUCED: notes/assumptions/58) -/
def blockFieldsOk (b : Nat) : Bool :=
  let g := fun (lo n : Nat) => getBytes b lo n
  let gk := g 65 1 % 4
  g 65 1 / 8 = 0 && gk ≠ 3 && g 66 1 ≤ 2 && g 67 1 / 2 = 0 && g 78 2 = 0 && (gk ≠ 0 || g 88 8 = 0)

/-- Does the shard's first element start a raw ore block (R381): COUNT follows the ore. -/
def oreStartOk (b : Nat) : Bool :=
  let gk := getBytes b 65 1 % 4
  let d := getBytes b 88 8 - getBytes b 8 8
  gk = 0 || (getBytes b 8 8 ≤ getBytes b 88 8 && d % (if gk = 2 then 516 else 260) = 0)

/-- The descriptors that a block names for an operation: GRAD when it is a tensor, the states present, WOUT. -/
def namedDescs (b oper : Nat) : List Nat :=
  let g := fun (lo n : Nat) => getBytes b lo n
  (if oper = 2 || g 65 1 % 4 = 0 then [g 8 8] else []) ++
    (((List.range 4).map fun k => g (16 + 8 * k) 8).filter (· ≠ 0)) ++ (if g 48 8 = 0 then [] else [g 48 8])

/-! ## In progress -/

/-- Set the SMELT commands in progress and SML_INFLIGHT. -/
def State.setSmelts (s : State) (l : List Smelt) : State :=
  ({ s with smelts := l }).setFld Reg.smlInflight Fld.smlInflightCmds l.length

/-- A SMELT in progress. -/
def State.smelt? (s : State) (id : Nat) : Option Smelt := s.smelts.find? (·.id = id)

/-- Change a SMELT in progress. -/
def State.modSmelt (s : State) (id : Nat) (f : Smelt → Smelt) : State :=
  { s with smelts := s.smelts.map fun x => if x.id = id then f x else x }

/-- A SMELT ends: its command's work is done. -/
def State.endSmelt (s : State) (x : Smelt) : State :=
  ((s.setSmelts (s.smelts.filter (·.id ≠ x.id))).bump Reg.smlUpdateCnt).cmdDone x.shaft x.cmd

/-- An ENGINE item of the smelter (Table 15.7). -/
def smeltItem (x : Smelt) (cause : Nat) (blocks : Bool) : Item :=
  ⟨9, blocks, false, x.shaft, packFields [(1, 3), (1, engineCause 3 cause), (2, 0), (8, x.seam)]⟩

/-- A SMELT ends as failed (R391). -/
def State.failSmelt (s : State) (x : Smelt) (cause : Nat) : State :=
  let s := (s.bump Reg.smlFailCnt).report x.step (smeltItem x cause true)
  (s.raiseIf (x.ctrl.testBit 0) 9).endSmelt x

/-- The tickets that still cover a SMELT's commit (R390, 15 R414). -/
def State.smeltCovers (s : State) (x : Smelt) : List Nat :=
  match (s.shaft x.shaft).started.find? (·.cmd.id = x.cmd) with
  | some c => c.covers
  | none => []

/-! ## One element (R382-R388) -/

/-- The binary32 format. -/
def f32 : Fmt := Fmt.ofCode 0

/-- Round an exact value once into binary32 under RNE. -/
def toF32 (v : Val) : Nat := (f32.convert false 0 0 v).1

/-- A register of a program. -/
def regAt (r : Store Nat) (i : Nat) : Nat := Store.get 0 r i

/-- SGN: the sign of an operand (Table 14.4). -/
def sgnOp (w : Nat) : Nat :=
  match f32.decode w with
  | .nan => f32.canonNan
  | .num neg n _ => if n = 0 then 0 else if neg then 0xBF800000 else 0x3F800000
  | v => if v.sign then 0xBF800000 else 0x3F800000

/-- The result of an arithmetic operation (Table 14.4). -/
def MicroOp.result (o : MicroOp) (k : Nat → Nat) (r : Store Nat) : Nat :=
  let a := regAt r o.a
  let b := regAt r o.b
  let va := f32.decode a
  let vb := f32.decode b
  match o.op with
  | 0x01 => toF32 (va.add vb)
  | 0x02 => toF32 (va.add vb.neg)
  | 0x03 => toF32 (va.mul vb)
  | 0x04 => toF32 ((va.mul vb).add (f32.decode (regAt r o.c)))
  | 0x05 => (f32.transcend false 0 0 0 va vb).1
  | 0x06 => (f32.transcend false 0 0 2 va va).1
  | 0x07 => (f32.transcend false 0 0 3 va va).1
  | 0x08 => (minMax f32 false a b).1
  | 0x09 => (minMax f32 true a b).1
  | 0x0A => signOp false f32 a
  | 0x0B => signOp true f32 a
  | 0x0C => sgnOp a
  | _ => k o.idx

/-- What a program has done: its registers, the states it writes, and u. -/
structure ProgState where
  r : Store Nat
  sts : List (Nat × Val)
  u : Val

/-- Run a program (R383). -/
def runProg (k : Nat → Nat) : List MicroOp → ProgState → ProgState
  | [], p => p
  | o :: l, p =>
    runProg k l (match o.op with
      | 0x11 => { p with sts := p.sts ++ [(o.idx, f32.decode (regAt p.r o.a))] }
      | 0x12 => { p with u := f32.decode (regAt p.r o.a) }
      | _ => { p with r := Store.set 0 p.r o.d (o.result k p.r) })

/-- A power of two as a value. -/
def pow2Val (e : Int) : Val := .num false (pow2Num e) (pow2Den e)

/-- A seam integer's value (R377). -/
def seamVal (v anchor : Int) : Val := (Val.num (v < 0) v.natAbs 1).mul (pow2Val (anchor - 62))

/-- Hold an integer to int64, and whether it left it (R387). -/
def clip64 (v : Int) : Int × Bool := oreClip 64 v

/-- What the update of one element gives: the new integer and d, whether it is non-finite, saturated or lost, and the
states written. -/
structure ElemOut where
  val : Int
  d : Int
  nonfin : Bool
  sat : Bool
  lost : Bool
  sts : List (Nat × Val)

/-- The update x of an element, formed exactly (R385). -/
def Smelt.exactUpdate (x : Smelt) (u : Val) : Val :=
  ((u.neg.mul (f32.decode (x.get 68 4))).mul (pow2Val (sext 8 (x.get 72 1)))).mul (pow2Val (62 - x.anchor))

/-- Update one element (R383-R388): its integer after the rebase, its gradient and its state values. -/
def Smelt.element (x : Smelt) (ops : List MicroOp) (v : Int) (g : Val) (sts : List Val) (draw : Nat) : ElemOut :=
  let regs := ([toF32 g, toF32 (seamVal v x.anchor)] ++ sts.map toF32)
  let r := (List.range regs.length).foldl (fun (m : Store Nat) i => Store.set 0 m i (regs.getD i 0)) []
  let p := runProg (fun i => x.get (96 + 4 * i) 4) ops ⟨r, [], Val.zero false⟩
  match x.exactUpdate p.u with
  | .num neg n den =>
    let t := roundNat (x.get 66 1) draw n den
    let d : Int := if neg then -(t : Int) else (t : Int)
    let c := clip64 (v + d)
    ⟨c.1, d, false, c.2, decide (n ≠ 0) && decide (t = 0), p.sts⟩
  | _ => ⟨v, 0, true, false, false, p.sts⟩

/-! ## Reading and writing a chunk -/

/-- The seam integers `[lo, lo + n)` as one little-endian number. -/
def State.readInts (s : State) (x : Smelt) (lo n : Nat) : State × Res (Nat × Bool) :=
  s.devRead none (x.seam + 64 + 8 * lo) (8 * n)

/-- Read elements `[lo, lo + n)` of a tensor: their values and whether a marked word was met. -/
def State.readVals (s : State) (t : TensorDesc) (lo : Nat) : Nat → State × Res (List Val × Bool)
  | 0 => (s, .ok ([], false))
  | n + 1 =>
    match s.readElem t lo with
    | (s, .stop c) => (s, .stop c)
    | (s, .ok (v, _, bad)) =>
      match State.readVals s t (lo + 1) n with
      | (s, .stop c) => (s, .stop c)
      | (s, .ok (l, b)) => (s, .ok (v :: l, bad || b))

/-- The gradient of an element from its raw ore block and COUNT (R382). -/
def oreGrad (w blk i : Nat) (mean : Bool) (count : Nat) : Val :=
  if (mean && count = 0) || blk.testBit 11 then .nan else oreSource w blk i mean.toNat count

/-- The gradients of elements `[lo, lo + n)` (R382). -/
def State.readGrads (s : State) (x : Smelt) (grad : Option TensorDesc) (lo n : Nat) : State × Res (List Val × Bool) :=
  match grad with
  | some t => s.readVals t lo n
  | none =>
    match s.readEach x.oreBytes ((List.range ((n + 63) / 64)).map fun b => x.get 8 8 + x.oreBytes * (lo / 64 + b)) with
    | (s, .stop c) => (s, .stop c)
    | (s, .ok (blks, bad)) =>
      match (if x.mean then s.devRead none (x.get 88 8) 8 else (s, Res.ok (0, false))) with
      | (s, .stop c) => (s, .stop c)
      | (s, .ok (count, cbad)) =>
        (s, .ok ((List.range n).map (fun i => oreGrad x.oreW (blks.getD (i / 64) 0) (i % 64) x.mean count),
          bad || cbad))

/-- The values of every state over elements `[lo, lo + n)`: +0 for an absent one. -/
def State.readStates (s : State) (lo n : Nat) : List (Option TensorDesc) → State × Res (List (List Val) × Bool)
  | [] => (s, .ok ([], false))
  | t :: l =>
    let r := match t with
      | some t => s.readVals t lo n
      | none => (s, Res.ok (List.replicate n (Val.zero false), false))
    match r with
    | (s, .stop c) => (s, .stop c)
    | (s, .ok (v, bad)) =>
      match State.readStates s lo n l with
      | (s, .stop c) => (s, .stop c)
      | (s, .ok (vs, b)) => (s, .ok (v :: vs, bad || b))

/-- A descriptor by its address, if one is named. -/
def State.descAt (s : State) (va : Option Nat) : State × Res (Option (TensorDesc × Bool)) :=
  match va with
  | none => (s, .ok none)
  | some a =>
    match s.devRead none a 64 with
    | (s, .stop c) => (s, .stop c)
    | (s, .ok (w, bad)) => (s, .ok (some (TensorDesc.ofNat w, bad)))

/-- The descriptors at several addresses. -/
def State.descsAt (s : State) : List (Option Nat) → State × Res (List (Option (TensorDesc × Bool)))
  | [] => (s, .ok [])
  | a :: l =>
    match s.descAt a with
    | (s, .stop c) => (s, .stop c)
    | (s, .ok t) =>
      match State.descsAt s l with
      | (s, .stop c) => (s, .stop c)
      | (s, .ok ts) => (s, .ok (t :: ts))

/-- Read the tensors that a smelt block names for an operation (08 R217): when its command starts. -/
def State.smeltDescs (s : State) (b oper : Nat) : State × Res SmeltDescs :=
  if oper = 3 then (s, .ok ⟨none, none, [], false⟩)
  else
    let grad := if oper = 2 ∨ getBytes b 65 1 % 4 = 0 then some (getBytes b 8 8) else none
    let named := fun (lo : Nat) => if getBytes b lo 8 = 0 then none else some (getBytes b lo 8)
    match s.descsAt ([grad, named 48] ++ (List.range 4).map fun k => named (16 + 8 * k)) with
    | (s, .stop c) => (s, .stop c)
    | (s, .ok l) =>
      let d := l.map fun t => t.map (·.1)
      (s, .ok ⟨(d[0]?).join, (d[1]?).join, d.drop 2, l.any fun t => t.any (·.2)⟩)

/-- Write the seam integers from element `lo` on. -/
def State.writeInts (s : State) (x : Smelt) (lo : Nat) (l : List Int) : State × Res Unit :=
  s.devWrite none (x.seam + 64 + 8 * lo) (8 * l.length) (packElems 64 (l.map (ofInt 64)))

/-- The draw key of a tensor's stores. -/
def State.smeltKey (s : State) (x : Smelt) (tid use : Nat) : DrawKey := ⟨s.seedOf x.step, x.step.num, tid, use⟩

/-- Write the working copy of the elements whose new values a chunk completes (R389): one store in all, which the last chunk
counts (03 R73). -/
def State.writeWout (s : State) (x : Smelt) (t : TensorDesc) (lo hi : Nat) : State × Res Unit :=
  let lins := storeRange t lo hi
  match s.readEach 8 (lins.map fun i => x.seam + 64 + 8 * i) with
  | (s, .stop c) => (s, .stop c)
  | (s, .ok (l, _)) =>
    s.storeElems t (Ncb.ofNat (x.get 73 1)) (s.smeltKey x t.tid 0) (some (decide (x.count ≤ hi)).toNat)
      ((lins.zip l).map fun e => (e.1, seamVal (sext 64 e.2) x.anchor))

/-- Write the states that the program wrote over a chunk (R384, R389). -/
def State.writeStates (s : State) (x : Smelt) (lo : Nat) (outs : List ElemOut) : State × Res Unit :=
  s.each (fun s k =>
    match (x.descs.states[k]?).join with
    | none => (s, .ok ())
    | some t =>
      let vals := ((List.range outs.length).zip outs).filterMap fun e =>
        (e.2.sts.find? (·.1 = k)).map fun v => (lo + e.1, v.2)
      s.storeElems t (Ncb.ofNat (x.get (74 + k) 1)) (s.smeltKey x t.tid 0) none vals) (List.range 4)

/-- The largest magnitude of a list of integers. -/
def topMag (l : List Int) : Nat := (l.map Int.natAbs).foldl max 0

/-- Sum of integers modulo 2^64. -/
def seamResidue (l : List Int) : Nat := ofInt 64 (l.foldl (· + ·) 0)

/-- The elements of a chunk: first, and how many. -/
def Smelt.range (x : Smelt) : Nat × Nat := (x.chunk * chunkElems, min chunkElems (x.count - x.chunk * chunkElems))

/-- Report the elements of a chunk that are non-finite or saturated (R386, R387). -/
def State.noteElems (s : State) (x : Smelt) (outs : List ElemOut) : State :=
  outs.foldl (fun s o =>
    let s := if o.nonfin then (s.bump Reg.smlNonfinCnt).report x.step (smeltItem x 8 (x.ctrl.testBit 1)) else s
    let s := if o.sat then (s.bump Reg.smlOvfCnt).report x.step (smeltItem x 9 true) else s
    s.bumpIf o.lost Reg.smlLostCnt) s

/-- The state of a SMELT after a chunk. -/
def Smelt.after (x : Smelt) (outs : List ElemOut) : Smelt :=
  { x with
    chunk := x.chunk + 1
    retried := false
    writing := true
    sd := x.sd + (outs.map fun o => o.d.natAbs ^ 2).foldl (· + ·) 0
    sw := x.sw + (outs.map fun o => o.val.natAbs ^ 2).foldl (· + ·) 0
    lost := x.lost + (outs.filter (·.lost)).length
    residue := (x.residue + seamResidue (outs.map (·.val))) % 2 ^ 64
    top := max x.top (topMag (outs.map (·.val)))
    ovf := x.ovf || outs.any (·.sat) }

/-- A stop or a marked word met by a SMELT (R391): a resumable stop only holds it back. -/
def State.smeltStop (s0 s : State) (x : Smelt) (cause : Nat) : State := if cause = 1 then s0 else s.failSmelt x cause

/-- The reason of a failure that is no stop: a marked word, a second mismatch, a non-finite initial weight. -/
def causeMarked : Nat := 10
/-- The reason of a second mismatch of the datapaths. -/
def causeMismatch : Nat := 11
/-- The reason of a non-finite initial weight. -/
def causeWeight : Nat := 12

/-- What computing a chunk answers: a stop, or the new elements and whether a marked word was met. -/
def State.updateChunk (s : State) (x : Smelt) : State × Res (List ElemOut × Bool) :=
  let lo := x.range.1
  let n := x.range.2
  match s.readInts x lo n with
  | (s, .stop c) => (s, .stop c)
  | (s, .ok (w, b1)) =>
    match s.readGrads x x.descs.grad lo n with
    | (s, .stop c) => (s, .stop c)
    | (s, .ok (gs, b2)) =>
      match s.readStates lo n x.descs.states with
      | (s, .stop c) => (s, .stop c)
      | (s, .ok (sts, b3)) =>
        let ops := progOps x.prog (x.get 64 1)
        let outs := (List.range n).map fun i =>
          let r := if x.get 66 1 = 2 then (s.smeltKey x x.tid 1).draw 2 (lo + i) else 0
          x.element ops (sext 64 (getBytes w (8 * i) 8) * 2 ^ x.shift) (gs.getD i .nan)
            (sts.map fun l => l.getD i (Val.zero false)) r
        (s, .ok (outs, x.descs.bad || b1 || b2 || b3))

/-- INIT of one weight (R379). -/
def initElem (anchor : Int) (v : Val) : ElemOut :=
  match v with
  | .num neg n d =>
    let e := 62 - anchor
    let t := roundNat 0 0 (n * pow2Num e) (d * pow2Den e)
    let i : Int := if neg then -(t : Int) else (t : Int)
    let c := clip64 i
    ⟨c.1, 0, false, c.2, decide (n ≠ 0) && decide (t = 0), (List.range 4).map fun k => (k, Val.zero false)⟩
  | _ => ⟨0, 0, false, false, false, []⟩

/-- A chunk of INIT: the weights' integers and +0 for every state. -/
def State.initChunk (s : State) (x : Smelt) : State × Res (List ElemOut × Bool) :=
  match x.descs.grad with
  | none => (s, .ok ([], x.descs.bad))
  | some t =>
    match s.readVals t x.range.1 x.range.2 with
    | (s, .stop c) => (s, .stop c)
    | (s, .ok (l, bad)) => (s, .ok (l.map (initElem x.anchor), x.descs.bad || bad))

/-- REBASE of one integer (R395): a shift left saturates, a shift right truncates toward zero and may lose bits. -/
def rebaseElem (delta v : Int) : ElemOut :=
  if delta < 0 then
    let c := clip64 (v * 2 ^ delta.natAbs)
    ⟨c.1, 0, false, c.2, false, []⟩
  else
    let t := v.natAbs / 2 ^ delta.natAbs
    ⟨if v < 0 then -(t : Int) else (t : Int), 0, false, false, decide (v.natAbs % 2 ^ delta.natAbs ≠ 0), []⟩

/-- A chunk of REBASE. -/
def State.rebaseChunk (s : State) (x : Smelt) : State × Res (List ElemOut × Bool) :=
  match s.readInts x x.range.1 x.range.2 with
  | (s, .stop c) => (s, .stop c)
  | (s, .ok (w, bad)) =>
    (s, .ok ((List.range x.range.2).map (fun i => rebaseElem x.delta (sext 64 (getBytes w (8 * i) 8))), bad))

/-- Compute the next chunk of a SMELT. -/
def State.computeChunk (s : State) (x : Smelt) : State × Res (List ElemOut × Bool) :=
  if x.oper = 1 then s.updateChunk x else if x.oper = 2 then s.initChunk x else s.rebaseChunk x

/-- Write a computed chunk: the integers, the working copy, the states (R389). INIT writes its states with the formats of
their tensors. -/
def State.writeChunk (s : State) (x : Smelt) (outs : List ElemOut) : State × Res Unit :=
  let lo := x.range.1
  match s.writeInts x lo (outs.map (·.val)) with
  | (s, .stop c) => (s, .stop c)
  | (s, .ok _) =>
    if x.oper = 3 then (s, .ok ())
    else if x.oper = 2 then
      s.each (fun s k => match (x.descs.states[k]?).join with
        | none => (s, .ok ())
        | some t => s.storeElems t ⟨t.fmt, false, 0, false, false⟩ (s.smeltKey x t.tid 0) none
            ((List.range outs.length).map fun i => (lo + i, Val.zero false))) (List.range 4)
    else
      let r := match x.descs.wout with
        | none => (s, Res.ok ())
        | some t => s.writeWout x t lo (lo + outs.length)
      match r with
      | (s, .stop c) => (s, .stop c)
      | (s, .ok _) => s.writeStates x lo outs

/-! ## Before the first chunk (R379, R390) -/

/-- The anchor of INIT (R379): none when a weight is not finite. -/
def initAnchor (target : Nat) (l : List Val) : Option Int :=
  if l.any (fun v => v.isNan || v.isInf) then none
  else
    let a := blockAmax l
    if a.1 = 0 then some 0 else some (min (max (floorLog2 a.1 a.2 + target) (-512)) 512)

/-- What a SMELT answers before its first chunk. -/
inductive Before where
  | stop (cause : Nat)
  | poison
  | fail (cause : Nat)
  | ok (anchor : Int)

/-- Read every raw ore header of the shard (R390), or every initial weight (R379). -/
def State.beforeChunks (s : State) (x : Smelt) : State × Before :=
  if x.oper = 1 ∧ x.gkind ≠ 0 then
    match s.readEach 4 ((List.range ((x.count + 63) / 64)).map fun b => x.get 8 8 + x.oreBytes * b) with
    | (s, .stop c) => (s, .stop c)
    | (s, .ok (l, bad)) =>
      (s, if l.any (·.testBit 12) then .poison else if bad then .fail causeMarked else .ok x.anchor)
  else if x.oper = 2 then
    match x.descs.grad with
    | none => (s, .fail causeMarked)
    | some t =>
      match s.readVals t 0 x.count with
      | (s, .stop c) => (s, .stop c)
      | (s, .ok (l, b)) =>
        (s, if x.descs.bad || b then .fail causeMarked
          else match initAnchor (targetOf x.rebase) l with
            | none => .fail causeWeight
            | some a => .ok a)
  else (s, .ok x.anchor)

/-- The ranges that the next chunk of a SMELT writes (R389). -/
def Smelt.chunkSpans (x : Smelt) : List (Nat × Nat) :=
  let r := x.range
  let out := fun (t : Option TensorDesc) (l : TensorDesc → List Nat) => ((t.map fun t => t.elemSpans (l t)).getD [])
  (x.seam + 64 + 8 * r.1, 8 * r.2) ::
    (if x.oper = 3 then []
     else (if x.oper = 1 then out x.descs.wout fun t => storeRange t r.1 (r.1 + r.2) else []) ++
      x.descs.states.flatMap fun t => out t fun _ => (List.range r.2).map (· + r.1))

/-- The ranges among some that wait for the copies of their granules (15 R434). -/
def State.cowHeld (s : State) (l : List (Nat × Nat)) : List (Nat × Nat) := l.filter fun x => s.cowWaits x.1 x.2

/-- SMELT_CHUNK (R390, R391): the next chunk of a SMELT is computed on both datapaths, which differ or not, and written. A
SMELT waits for its covers and for the copies of granules that it writes (15 R434), ends with nothing written when its step is aborted or an ore header carries POISON, and fails
at a marked word, a non-resumable stop or a second mismatch. -/
def execSmeltChunk (smelt : Nat) (mismatch : Bool) (s : State) : Host.Outcome State Fault Refusal :=
  match s.smelt? smelt with
  | none => .next s
  | some x =>
    if x.chunks ≤ x.chunk then .next s
    else if !x.writing && (s.poisonOf x.step).isSome then .next (s.endSmelt x)
    else if !x.writing && s.smeltCovers x ≠ [] then .next s
    else if s.cowHeld x.chunkSpans ≠ [] then .next (s.waitOn (.smelt smelt) (.copies (s.cowHeld x.chunkSpans)))
    else
      let b := if x.chunk = 0 then s.beforeChunks x else (s, .ok x.anchor)
      match b with
      | (t, .stop c) => .next (s.smeltStop t x c)
      | (t, .fail c) => .next (t.failSmelt x c)
      | (t, .poison) => .next ((if x.step.seq = t.seqNo then t.poisonStep x.step.num 6 0 t.node else t).endSmelt x)
      | (t, .ok a) =>
        let x := { x with anchor := a }
        match t.computeChunk x with
        | (u, .stop c) => .next (s.smeltStop u x c)
        | (u, .ok (outs, bad)) =>
          if bad then .next (u.failSmelt x causeMarked)
          else if mismatch then
            (if x.retried then .next (u.failSmelt x causeMismatch)
             else .next ((u.bump Reg.smlRetryCnt).modSmelt smelt fun _ => { x with retried := true }))
          else
            match u.writeChunk x outs with
            | (v, .stop c) => .next (s.smeltStop v x c)
            | (v, .ok _) => .next ((v.noteElems x outs).modSmelt smelt fun _ => x.after outs)

/-! ## The finish (R392-R395) -/

/-- ρ of an UPDATE as binary32 bits (R393). -/
def smeltRatio (sd sw : Nat) : Nat :=
  if sw = 0 then (if sd = 0 then 0 else f32.infBits false)
  else if sd = 0 then 0
  else (f32.roundSqrt false 0 0 sd sw).1

/-- Is a ratio below a lower or above an upper bound that is not 0 (R393). -/
def ratioOut (rho lo hi : Nat) : Bool :=
  (lo ≠ 0 && (f32.decode rho).lt (f32.decode lo)) || (hi ≠ 0 && (f32.decode hi).lt (f32.decode rho))

/-- The headroom of a largest magnitude (R378). -/
def headroom (top : Nat) : Nat := if top = 0 then 63 else 63 - (Nat.log2 top + 1)

/-- PEND of the new header (R394). -/
def Smelt.pend (x : Smelt) : Nat :=
  let target := targetOf x.rebase
  let h := headroom x.top
  if x.oper = 1 ∧ (x.get 67 1).testBit 0 ∧ target + bits x.rebase 15 8 < h then
    min (h - target) (x.anchor + 512).toNat
  else 0

/-- The seam header after a SMELT (Table 14.1): a REBASE leaves STEP and RESIDUE. (DEDUCED: notes/assumptions/59) -/
def Smelt.newHeader (x : Smelt) : Nat :=
  let ovf := x.ovf || (x.oper ≠ 2 && (getBytes x.hdr 2 1).testBit 1)
  packFields [(2, ofInt 16 x.anchor), (1, 1 + 2 * ovf.toNat), (1, x.pend), (4, x.tid), (8, x.count),
    (8, if x.oper = 3 then getBytes x.hdr 16 8 else x.step.num),
    (8, if x.oper = 3 then getBytes x.hdr 24 8 else x.residue), (32, 0)]

/-- The digest term of an UPDATE (15 R430). -/
def digestTerm (residue tid : Nat) : Nat := residue + tid * 0x9E3779B97F4A7C15

/-- Add an UPDATE to its step's digest (15 R430). -/
def State.addDigest (s : State) (step : StepId) (residue tid : Nat) : State :=
  s.modStep step fun r => { r with digest := (r.digest + digestTerm residue tid) % 2 ^ 64 }

/-- Report the statistics of an UPDATE, or a REBASE (R393, R394). -/
def State.smeltReport (s : State) (x : Smelt) (rho : Nat) : State :=
  let h := x.newHeader
  s.report x.step ⟨10, false, false, x.shaft,
    packFields [(8, x.seam), (4, rho), (4, x.lost), (2, ofInt 16 x.anchor), (1, (x.shift ≠ 0 || x.oper = 3 : Bool).toNat),
      (8, getBytes h 24 8)]⟩

/-- SMELT_FINISH (R392-R395): every chunk is visible; the header is rewritten and the statistics reported. -/
def execSmeltFinish (smelt : Nat) (s : State) : Host.Outcome State Fault Refusal :=
  match s.smelt? smelt with
  | none => .next s
  | some x =>
    if x.chunk < x.chunks then .next s
    else if !x.writing && (s.poisonOf x.step).isSome then .next (s.endSmelt x)
    else if !x.writing && s.smeltCovers x ≠ [] then .next s
    else if s.cowWaits x.seam 64 then .next (s.waitOn (.smelt smelt) (.copies [(x.seam, 64)]))
    else
      match s.devWrite none x.seam 64 x.newHeader with
      | (t, .stop c) => .next (s.smeltStop t x c)
      | (s, .ok _) =>
        let s := s.bumpIf (x.shift ≠ 0 || x.oper = 3) Reg.smlRebaseCnt
        if x.oper = 1 then
          let rho := smeltRatio x.sd x.sw
          let s := (s.smeltReport x rho).addDigest x.step x.residue x.tid
          let out := ratioOut rho (x.get 80 4) (x.get 84 4)
          let s := (s.bumpIf out Reg.smlRatioEvCnt).raiseIf (out && x.ctrl.testBit 2) 9
          .next (s.endSmelt x)
        else if x.oper = 3 then .next ((s.smeltReport x 0).endSmelt x)
        else .next (s.endSmelt x)

/-! ## The command (R380, R381) -/

/-- Read the block of a SMELT, its program for UPDATE, and its seam header: the refusal causes met in reading, else the
three. (DEDUCED: notes/assumptions/58) -/
def State.readSmelt (s : State) (c : Command) (oper : Nat) : State × Option (Nat × Nat × Nat × Bool) :=
  if c.get 16 8 % 128 ≠ 0 then (s, none)
  else
    match s.devRead none (c.get 16 8) 128 with
    | (s, .stop _) | (s, .ok (_, true)) => (s, none)
    | (s, .ok (b, false)) =>
      let nops := getBytes b 64 1
      let pa := getBytes b 56 8
      let seam := getBytes b 0 8
      let p := if oper = 1 ∧ 1 ≤ nops ∧ nops ≤ 32 then
          (if pa % 4 = 0 then s.devRead none pa (4 * nops) else (s, .stop 0))
        else (s, Res.ok (0, false))
      match p with
      | (s, .stop _) | (s, .ok (_, true)) => (s, none)
      | (s, .ok (p, false)) =>
        if seam % 64 ≠ 0 then (s, none)
        else
          match s.devRead none seam 64 with
          | (s, .stop _) => (s, none)
          | (s, .ok (h, bad)) => (s, some (b, p, h, bad))

/-- Do the control bytes of a block's stores fit their tensors, and are they consistent: causes 4 and 3. -/
def ncbCauses (b : Nat) (ts : List TensorDesc) (grad : Bool) : List Nat :=
  let outs := (if grad then ts.drop 1 else ts)
  let slots := ((List.range 4).filter fun k => getBytes b (16 + 8 * k) 8 ≠ 0).map (fun k => getBytes b (74 + k) 1) ++
    (if getBytes b 48 8 = 0 then [] else [getBytes b 73 1])
  (slots.zip outs).flatMap fun e =>
    let n := Ncb.ofNat e.1
    if !n.ok then [3] else if !n.fits e.2 then [4] else []

/-- The states among the named tensors must have format codes 0-2 with MX = 0 (Table 14.3), INIT's weights too (R379). -/
def plainOk (b oper : Nat) (ts : List TensorDesc) : Bool :=
  let grad := oper = 2 || getBytes b 65 1 % 4 = 0
  let n := ((List.range 4).filter fun k => getBytes b (16 + 8 * k) 8 ≠ 0).length
  let plain := fun (t : TensorDesc) => decide (t.fmt < 3) && !t.mx
  let rest := if grad then ts.drop 1 else ts
  (oper ≠ 2 || (ts.head?.map plain).getD true) && (rest.take n).all plain

/-- Address ranges that a SMELT writes: the seam, the states and the working copy (R381, 13 R375). -/
def smeltSpans (b count oper : Nat) (ts : List TensorDesc) : List (Nat × Nat) :=
  let grad := oper = 2 || getBytes b 65 1 % 4 = 0
  (getBytes b 0 8, 64 + 8 * count) :: ((if grad then ts.drop 1 else ts).flatMap (·.stores))

/-- Open a SMELT in progress: an UPDATE applies the header's PEND (R394), a REBASE its DELTA (R395).
(DEDUCED: notes/assumptions/59) -/
def State.openSmelt (s : State) (shaft oper : Nat) (c : Command) (b p h : Nat) (d : SmeltDescs) : State :=
  let r := s.newId
  let pend := if oper = 1 then getBytes h 3 1 else 0
  let delta := if oper = 3 then sext 16 (c.get 26 2) else 0
  let x : Smelt :=
    { id := r.1, shaft, cmd := c.id, oper, delta, step := ((r.2.shaft shaft).step).getD noStep, block := b, prog := p,
      hdr := h, ctrl := r.2.reg Reg.smlCtrl, rebase := r.2.reg Reg.smlRebase, chunk := 0,
      anchor := sext 16 (getBytes h 0 2) - pend + delta, shift := pend, sd := 0, sw := 0, lost := 0, residue := 0, top := 0,
      ovf := false, retried := false, writing := false, descs := d }
  r.2.setSmelts (r.2.smelts ++ [x])

/-- The head SMELT of a shaft with operation `oper` (R380, R381): refused, held back, skipped in a replay (15 R419), or
started. -/
def State.smeltCommand (s : State) (shaft oper : Nat) (c : Command) : State × Verdict :=
  let delta := sext 16 (c.get 26 2)
  let own := decide (c.get 24 1 = oper) && c.get 25 1 = 0 && c.get 28 36 = 0 &&
    (if oper = 3 then decide (-63 ≤ delta ∧ delta ≤ 63) else decide (delta = 0))
  match s.readSmelt c oper with
  | (s, none) => (s, .refuse 5)
  | (s, some (b, p, h, hbad)) =>
    let seam := getBytes b 0 8
    if 8 ≤ s.smelts.length ∨ s.smelts.any (·.seam = seam) then (s, .hold)
    else
      let count := getBytes h 8 8
      let r := if oper = 3 then (s, [], []) else s.readDescs (namedDescs b oper)
      let s := r.1
      let ts := r.2.1
      let grad := oper = 2 || getBytes b 65 1 % 4 = 0
      let ncb := if oper = 1 then ncbCauses b ts grad else []
      let ops := progOps p (getBytes b 64 1)
      let prog := oper ≠ 1 || (1 ≤ getBytes b 64 1 && getBytes b 64 1 ≤ 32 &&
        progOk ops fun k => getBytes b (16 + 8 * k) 8 = 0)
      let flag := oper = 2 || (getBytes h 2 1).testBit 0
      match firstCause [(ncb.contains 3, 3), (r.2.2.contains 4 || ncb.contains 4 || !plainOk b oper ts, 4),
          (r.2.2.contains 5, 5),
          (!own || !blockFieldsOk b || !prog || !flag || ts.any (fun t => t.count ≠ count) ||
            (oper = 1 && !oreStartOk b) || s.anyFrozen (smeltSpans b count oper ts), 7)] with
      | some k => (s, .refuse k)
      | none =>
        let x := s.startedAs shaft c .working
        let step := x.step.getD noStep
        if oper = 1 ∧ step.seq = s.seqNo ∧ step.num ≤ getBytes h 16 8 ∧ !hbad then
          let s := ((s.bump Reg.dptReplaySkipCnt).bump Reg.smlUpdateCnt).addDigest step (getBytes h 24 8) (getBytes h 4 4)
          (s, .start { x with state := .done })
        else
          match s.smeltDescs b oper with
          | (s, .stop _) => (s, .refuse 5)
          | (s, .ok d) =>
          let s := s.openSmelt shaft oper c b p h d
          let x := { x with covers := match x.step with
            | some id => s.coverOf id
            | none => [] }
          let s := s.beginCommand shaft x
          if hbad then
            (match s.smelts.getLast? with
             | some y => (s.failSmelt y causeMarked, .hold)
             | none => (s, .hold))
          else (s, .hold)

/-- A SMELT with OPER = 1, UPDATE (R382). A reserved OPER is refused here (R381). -/
def execSmeltUpdate (shaft : Nat) (s : State) : Host.Outcome State Fault Refusal :=
  match s.headCommand shaft with
  | none => .next s
  | some c =>
    if c.op = 0x13 ∧ (c.get 24 1 = 2 ∨ c.get 24 1 = 3) then .next s
    else .next (s.startCommand shaft 0x13 fun s c =>
      if c.get 24 1 ≠ 1 then (s, .refuse 7) else s.smeltCommand shaft 1 c)

/-- A SMELT with OPER = 2, INIT (R379). -/
def execSmeltInit (shaft : Nat) (s : State) : Host.Outcome State Fault Refusal :=
  match s.headCommand shaft with
  | none => .next s
  | some c =>
    if c.get 24 1 ≠ 2 then .next s else .next (s.startCommand shaft 0x13 fun s c => s.smeltCommand shaft 2 c)

/-- A SMELT with OPER = 3, REBASE (R395). -/
def execSmeltRebase (shaft : Nat) (s : State) : Host.Outcome State Fault Refusal :=
  match s.headCommand shaft with
  | none => .next s
  | some c =>
    if c.get 24 1 ≠ 3 then .next s else .next (s.startCommand shaft 0x13 fun s c => s.smeltCommand shaft 3 c)

end Sys2Proof.Machine
end

