-- ==== Sys2Proof/Machine/Lamp.lean ====
section
/-!
DEFINITION. The lamp room's shared operations: what a reset does to the module domains and to the lamp room (00 R11; 18
R478-R486, R490, R498; 19 R511, R524, R525), the package rails, the flash banks and their images (18 R492, R493), fuses and
the measurement log (18 R495).
-/
namespace Sys2Proof.Machine

/-- Change the lamp room. -/
def State.modLamp (s : State) (f : Lamp → Lamp) : State := { s with lamp := f s.lamp }

/-- Change the foreman. -/
def State.modForeman (s : State) (f : Foreman → Foreman) : State := { s with foreman := f s.foreman }

/-- Change the host port. -/
def State.modPort (s : State) (f : HostPort → HostPort) : State := { s with port := f s.port }

/-- The pins of the module as outputs: 1 WHISTLE_OUT, 2 RST_OUT#, 3 THERM_TRIP#, 4 PRSNT#, 5 SMB_ALERT#; the level given.
(DESIGN CHOICE: notes/assumptions/84) -/
def State.pin (s : State) (name : Nat) (level : Bool) : State := s.emit (.pin name level)

/-- Is the host link up (19 Table 19.11). -/
def State.hostUp (s : State) : Bool := s.fld Reg.pciStat Fld.pciStatSpeed ≠ 0

/-- Does a foreman serve: images run and no takeover is in progress (19 R509). -/
def State.foremanUp (s : State) : Bool := s.lamp.standby && s.lamp.booted && !s.lamp.takeover

/-- A reset event, when RST_CTRL.EVENT allows it. -/
def State.resetEvent (s : State) : State := s.raiseIf (s.flag Reg.rstCtrl Fld.rstCtrlEvent) 15

/-! ## Registers at a reset (00 R11; 18 R479, R498; 19 R524, R525) -/

/-- Is an offset one of RST_BLK_STAT. -/
def isBlkStat (off : Nat) : Bool := Reg.rstBlkStat 0 ≤ off && off < Reg.rstBlkStat 0x200

/-- Does a register of the lamp room keep its value at a reset of the module domains alone: every LMP register (19 R524),
RST_CAUSE (18 R479), and what RST shows of the lamp room's own boot; the controls and the counters of RST take their reset values
(00 R11). (DEDUCED: notes/assumptions/72) -/
def keptByModule (off : Nat) : Bool :=
  (0x100000 ≤ off && off < 0x200000) || off = Reg.rstCause || off = Reg.rstStat || off = Reg.rstStrap || off = Reg.rstFuse ||
    off = Reg.rstBoot

/-- Does a register of the lamp room keep its value at a warm reset of the lamp room (18 R479, 19 R524).
(DEDUCED: notes/assumptions/72) -/
def keptByLamp (off : Nat) : Bool :=
  off = Reg.rstCause || off = Reg.lmpCplqHead || off = Reg.lmpCplqDropCnt ||
    (match regSpecOf off with
     | some r => r.fields.any fun f => f.acc = .rws
     | none => false)

/-- Keep the registers that a test names; the others take their reset values. -/
def State.keepRegs (s : State) (keep : Nat → Bool) : State := { s with regs := s.regs.filter fun e => keep e.1 }

/-! ## The module domains (18 R478, R484, R490) -/

/-- The hidden state of the module domains after a reset: what is not the module's own (the queue, host and CXL memory, time,
free values, what has left), what the lamp room holds, and the records in flash are kept. -/
def State.clearModule (s : State) (keepLink : Bool) : State :=
  { State.reset with
    pending := s.pending, regs := s.regs, mem := s.mem, marks := s.marks, cycle := s.cycle, ps := s.ps, sub := s.sub, raised := s.raised, free := s.free,
    fresh := s.fresh, outbox := s.outbox, spareRows := s.spareRows, repairs := s.repairs, retired := s.retired,
    spareLanes := s.spareLanes, lamp := s.lamp, foreman := s.foreman
    port := if keepLink then { HostPort.idle with d3 := s.port.d3, bar2 := s.port.bar2, atsOn := s.port.atsOn }
      else HostPort.idle }

/-- The stopes that a block reset holds OFF, or that have not passed their canary since, when the module is reset (18 R485): they wait
for a canary after it. (DESIGN CHOICE: notes/assumptions/77) -/
def State.heldOff (s : State) : List Nat :=
  (List.range 144).filter fun n =>
    decide (2 ≤ s.fld (Reg.rstBlkStat (0x100 + n)) Fld.rstBlkStatState) || (Store.get StopeCtl.idle s.stopes n).returning ||
      s.lamp.heldOff.contains n

/-- The module domains enter reset (18 R483, R486, R490): no domain is released, RST_OUT# is asserted, every block reset
ends. An FLR keeps the host link and the configuration space, unless a wider reset is in progress (18 R480). -/
def State.resetModule (s : State) (flr : Bool) : State :=
  let keepLink := flr && s.lamp.scope ≠ 2
  let link := s.reg Reg.pciStat
  let off := s.heldOff
  let s := (s.clearModule keepLink).keepRegs keptByModule
  let s := s.setFld Reg.rstStat Fld.rstStatReady 0
  let s := if keepLink then s.setReg Reg.pciStat link else s
  (s.modLamp fun l =>
    { l with released := 0, rstOut := true, scope := if keepLink then 1 else 2, resetAt := s.ps, blocks := []
             strapMode := max 1 l.strapMode, heldOff := off }).pin 2 false

/-- The package rails are removed (18 R480, 20 R530): with them the module domains. RST_CTRL, which R481 reads to decide on their
return, takes its reset value only when they return. (DEDUCED: notes/assumptions/72) -/
def State.dropRails (s : State) : State :=
  ((s.resetModule false).setReg Reg.rstCtrl (s.reg Reg.rstCtrl)).modLamp fun l => { l with rails := false, trained := false }

/-- The lamp room takes a warm reset (18 R495, 19 R511, R524): cages IDLE, long commands discarded, boot starts again; what
RST shows of the module domains stands. -/
def State.resetLamp (s : State) (clearLog : Bool) : State :=
  let ready := s.fld Reg.rstStat Fld.rstStatReady
  let s := (s.keepRegs fun off => 0x200000 ≤ off || keptByLamp off || isBlkStat off).setFld Reg.rstStat Fld.rstStatReady ready
  let s := s.modLamp fun l => { l with booted := false, takeover := false, strapMode := max 1 l.strapMode }
  s.modForeman fun f => { Foreman.idle with nextId := f.nextId, log := if clearLog then [] else f.log }

/-- A cold reset (00 R11, 18 R479): every register takes its reset value; flash, fuses and the fence record are kept; soft
repairs become hard ones and spare lanes are given back (09 R262, 11 R302). -/
def State.coldReset (s : State) : State :=
  let s := (s.clearModule false).keepRegs fun _ => false
  let s := s.modLamp fun l =>
    { Lamp.idle with
      input := l.input, inputAt := l.inputAt, present := l.present, perst := l.perst, resetAt := s.ps, revoked := l.revoked
      svn := l.svn, flash := l.flash, badBanks := l.badBanks, fences := l.fences, spares := l.spares
      hard := l.hard ++ s.repairs, packKey := l.packKey }
  ({ s with spareLanes := [], repairs := [], foreman := Foreman.idle }).pin 2 false

/-- A source sets its bit of RST_CAUSE (18 R479). -/
def State.setCause (s : State) (bit : Nat) : State := s.hwSet Reg.rstCause (2 ^ bit)

/-! ## Flash and images (18 R492, R493) -/

/-- Size of a flash bank. -/
def bankSize : Nat := 0x4000000

/-- A byte of flash. -/
def State.flashByte (s : State) (a : Nat) : Byte :=
  match Store.find s.lamp.flash a with
  | some b => b
  | none => Config.flashByte a

/-- `n` bytes of flash as a number. -/
def State.flashLE (s : State) (a : Nat) : Nat → Nat
  | 0 => 0
  | n + 1 => (s.flashByte a).toNat + 256 * State.flashLE s (a + 1) n

/-- Bytes of flash in order. -/
def State.flashBytes (s : State) (a n : Nat) : List Byte := (List.range n).map fun i => s.flashByte (a + i)

/-- Write `n` bytes of a number to flash. -/
def flashWrite : Store Byte → Nat → Nat → Nat → Store Byte
  | m, _, 0, _ => m
  | m, a, n + 1, v => flashWrite (Store.put false (BitVec.ofNat 8 v) m a) (a + 1) n (v / 256)

/-- Where a bank holds its image of a type. -/
def State.imageAddr (s : State) (bank type : Nat) : Nat :=
  bank * bankSize + Config.imageAt (s.flashLE (bank * bankSize) 4096) type % bankSize

/-- The header of an image (18 R492). -/
def State.imageHeader (s : State) (bank type : Nat) : Nat := s.flashLE (s.imageAddr bank type) 256

/-- The SHA-512 digest of an image: its header and its body. (DESIGN CHOICE: notes/assumptions/76) -/
def State.imageDigest (s : State) (bank type : Nat) : Nat :=
  (Config.sha512 (s.flashBytes (s.imageAddr bank type) (256 + getBytes (s.imageHeader bank type) 4 4))).toNat

/-- The bytes of a number, lowest first. -/
def bytesOf (n v : Nat) : List Byte := (List.range n).map fun i => BitVec.ofNat 8 (getBytes v i 1)

/-- Does an Ed25519 signature over the SHA-512 digest of bytes verify under a public key. -/
def verifyDigest (key : Nat) (l : List Byte) (sig : Nat) : Bool :=
  Config.verifyEd25519 (BitVec.ofNat 256 key) (bytesOf 64 (Config.sha512 l).toNat) (BitVec.ofNat 512 sig)

/-- The programmed, unrevoked key-hash slot that a public key matches (18 R493), with some slots taken as revoked. -/
def keySlot (revoked pubkey : Nat) : Option Nat :=
  (List.range 4).find? fun k =>
    Config.fuseProgrammed.getLsbD k && !revoked.testBit k && Config.sha512 (bytesOf 32 pubkey) = Config.fuseHash k

/-- The slot whose key an image is signed with, when the image is valid (18 R493) under given fuses.
(DESIGN CHOICE: notes/assumptions/76) -/
def State.imageSlot (s : State) (revoked svn bank type : Nat) : Option Nat :=
  let a := s.imageAddr bank type
  let h := s.imageHeader bank type
  let key := getBytes h 32 32
  let len := getBytes h 4 4
  match keySlot revoked key with
  | none => none
  | some k =>
    if getBytes h 0 2 = type ∧ a + 256 + len ≤ (bank + 1) * bankSize ∧ svn ≤ getBytes h 16 1 ∧
        verifyDigest key (s.flashBytes a 64 ++ s.flashBytes (a + 256) len) (getBytes h 64 64) = true
    then some k else none

/-- The first invalid TYPE of a bank (18 R493); a bank whose staging has not succeeded is not a valid boot bank (19 R517). -/
def State.firstInvalid (s : State) (bank : Nat) : Option Nat :=
  if s.lamp.badBanks.contains bank then some 1
  else [1, 2, 3, 4].find? fun t => (s.imageSlot s.lamp.revoked s.lamp.svn bank t).isNone

/-- The bank that runs (19 LMP_FW_STAT). -/
def State.runBank (s : State) : Nat := s.fld Reg.lmpFwStat Fld.lmpFwStatRunning

/-- RST_FUSE shows the fuses (18 Table 18.10). -/
def State.showFuses (s : State) : State :=
  s.setReg Reg.rstFuse (s.lamp.revoked % 16 * 2 ^ 28 + Config.fuseProgrammed.toNat * 2 ^ 24 + s.lamp.svn % 64)

/-! ## The measurement log (18 R495) -/

/-- Append a measurement of an index, when it differs from the latest of that index and the log has room, with the frame, 0 before the
whistle runs. -/
def State.logMeasure (s : State) (index digest : Nat) : State :=
  let last := (s.foreman.log.filter fun e => e.index = index).getLast?
  if (last.any fun e => e.digest = digest) || decide (256 ≤ s.foreman.log.length) then s
  else
    let frame := if s.flag Reg.whsCtrl Fld.whsCtrlEn then s.frame else 0
    s.modForeman fun f => { f with log := f.log ++ [⟨index, digest, frame⟩] }

/-- Measure values whose layout as bytes is open (18 Table 18.8). -/
def State.measure (s : State) (index : Nat) (vals : List Nat) : State :=
  s.logMeasure index (Config.sha512 (Config.measured index vals)).toNat

/-- Measure boot ROM and fuses (index 1). -/
def State.measureFuses (s : State) : State := s.measure 1 [s.reg Reg.rstFuse]

/-- Measure an image as running (indices 3 to 6). -/
def State.measureImage (s : State) (bank type : Nat) : State := s.logMeasure (type + 2) (s.imageDigest bank type)

/-- Measure the active test pack (index 7). -/
def State.measurePack (s : State) (p : Pack) : State := s.measure 7 [p.version, p.digest]

end Sys2Proof.Machine
end

