-- ==== Sys2Proof/Machine/Boot.lean ====
section
/-!
DEFINITION. The strap (18 R491), verified boot (18 R493, 19 R519) and attestation (18 R495-R497).
-/
namespace Sys2Proof.Machine

/-! ## Strap (18 R491) -/

/-- The lamp room takes a reading of STRAP_ID: its code, or code 0 with FAULT and a reset event; after boot a change of it is measured
(R495).
(DEDUCED: notes/assumptions/75) -/
def State.takeStrap (s : State) (ratio code : Nat) (fault : Bool) : State :=
  let s := s.setFld Reg.rstStrap Fld.rstStrapRatio ratio
  let s := s.setFld Reg.rstStrap Fld.rstStrapCode (if fault then 0 else code)
  let s := s.setFld Reg.rstStrap Fld.rstStrapFault fault.toNat
  let s := s.modLamp fun l => { l with strapMode := 0, strapLast := none, strapRun := 0, strapCount := 0, strapBad := true }
  let s := if s.lamp.booted then s.measure 2 [s.reg Reg.rstStrap, s.reg Reg.rstBoot] else s
  if fault then s.resetEvent else s

/-- Does a reading of the 8-bit converter lie between 0.01 and 0.99. -/
def strapInRange (r : Nat) : Bool := 3 ≤ r && r ≤ 253

/-- STRAP_SAMPLE (R491): `ratio` is the reading in 256ths. At a power-on reset the first code read 10 times in a row within
1,000 samples is taken; a code for readings in range that never settle is not stated. At any other reset one reading
decides. -/
def execStrapSample (ratio : Nat) (s : State) : Host.Outcome State Fault Refusal :=
  let r := ratio % 256
  let l := s.lamp
  let good := strapInRange r
  if !l.standby ∨ l.strapMode = 0 then .next s
  else if l.strapMode = 1 then .next (s.takeStrap r (r / 16) (!good))
  else
    let run := if !good then 0 else if l.strapLast = some (r / 16) then l.strapRun + 1 else 1
    let bad := l.strapBad && !good
    if 10 ≤ run then .next (s.takeStrap r (r / 16) false)
    else if 1000 ≤ l.strapCount + 1 then
      if bad then .next (s.takeStrap r 0 true)
      else
        let f := s.freeVal
        .next (f.2.takeStrap r (f.1 % 16) false)
    else .next (s.modLamp fun l =>
      { l with strapLast := if good then some (r / 16) else none, strapRun := run, strapCount := l.strapCount + 1
               strapBad := bad })

/-! ## Verified boot (18 R493) -/

/-- Record the first invalid TYPE of a bank in RST_BOOT; the module falls back. -/
def State.bootFail (s : State) (bank type : Nat) : State :=
  (s.setFld Reg.rstBoot (if bank = 0 then Fld.rstBootFailA else Fld.rstBootFailB) type).setFld Reg.rstStrap
    Fld.rstStrapFallback 1

/-- Boot all four images from a bank: the foreman comes into service, and measures what it boots (R495). -/
def State.bootFrom (s : State) (bank : Nat) : State :=
  let slot := (s.imageSlot s.lamp.revoked s.lamp.svn bank 1).getD 0
  let s := (s.setFld Reg.rstBoot Fld.rstBootSlot slot).setFld Reg.rstStrap Fld.rstStrapBooted bank
  let s := (s.setFld Reg.lmpFwStat Fld.lmpFwStatRunning bank).showFuses
  let s := s.modLamp fun l => { l with booted := true, takeover := false, watchAt := s.ps }
  let s := s.measureFuses.measure 2 [s.reg Reg.rstStrap, s.reg Reg.rstBoot]
  [1, 2, 3, 4].foldl (fun s t => s.measureImage bank t) s

/-- BOOT_VERIFY (R493): the images of the preferred bank, then of the other; recovery, with the package rails off, when
neither bank is valid. -/
def execBootVerify (s : State) : Host.Outcome State Fault Refusal :=
  if !s.lamp.standby ∨ s.lamp.booted ∨ s.flag Reg.rstStat Fld.rstStatRecovery ∨ s.lamp.strapMode ≠ 0 then .next s
  else
    let bank := s.fld Reg.rstStrap Fld.rstStrapCode % 2
    match s.firstInvalid bank with
    | none => .next (s.bootFrom bank)
    | some t =>
      let s := s.bootFail bank t
      match s.firstInvalid (1 - bank) with
      | none => .next (s.bootFrom (1 - bank))
      | some u =>
        let s := ((s.bootFail (1 - bank) u).setFld Reg.rstStat Fld.rstStatRecovery 1).showFuses
        .next (if s.lamp.rails then s.dropRails else s)

/-! ## The SPDM responder (18 R496, R497) -/

/-- Does the lamp room answer SPDM on a path: 0 PCIe messages, 1 I3C, 2 SMBus (R497, 19 R521). -/
def State.spdmUp (s : State) (via : Nat) : Bool :=
  s.foremanUp && (match via with
    | 0 => s.hostUp
    | 1 => true
    | 2 => !s.foreman.ccc
    | _ => false)

/-- Answer an SPDM request on a path, or refuse an option that Table 18.9 does not support. -/
def State.spdm (s : State) (via : Nat) (ok : Bool) (words : List Nat) : State :=
  if !s.spdmUp via then s else if ok then s.emit (.response via words) else s.emit (.unsupported via)

/-- The certificate chain of slot 0. -/
def certChain : List Byte := (List.range Config.certLength).map Config.certByte

/-- Its SHA-512 digest. -/
def certDigest : Nat := (Config.sha512 certChain).toNat

/-- GET_VERSION (Table 18.9): versions 1.3 and 1.2. (DESIGN CHOICE: notes/assumptions/81) -/
def execGetVersion (via : Nat) (s : State) : Host.Outcome State Fault Refusal := .next (s.spdm via true [0x13, 0x12])

/-- GET_CAPABILITIES (R497): CERT_CAP, CHAL_CAP, MEAS_CAP with signature, CTExponent 17, for a supported version. -/
def execGetCapabilities (via version : Nat) (s : State) : Host.Outcome State Fault Refusal :=
  .next (s.spdm via (version = 0x13 || version = 0x12) [1, 1, 2, 17])

/-- NEGOTIATE_ALGORITHMS (Table 18.9): EdDSA Ed25519 and SHA-512, when the requester offers both. -/
def execNegotiateAlgorithms (via : Nat) (ed25519 sha512 : Bool) (s : State) : Host.Outcome State Fault Refusal :=
  .next (s.spdm via (ed25519 && sha512) [1, 1])

/-- GET_DIGESTS: the digest of the chain of slot 0. -/
def execGetDigests (via : Nat) (s : State) : Host.Outcome State Fault Refusal := .next (s.spdm via true [0, certDigest])

/-- GET_CERTIFICATE: a portion of the chain of slot 0, and the bytes that remain after it. -/
def execGetCertificate (via slot offset length : Nat) (s : State) : Host.Outcome State Fault Refusal :=
  let part := (certChain.drop offset).take length
  .next (s.spdm via (slot = 0 && decide (offset < max 1 Config.certLength))
    ([0, part.length, Config.certLength - offset - part.length] ++ part.map BitVec.toNat))

/-- The latest entry of a measurement index (R495). -/
def State.latestMeasure (s : State) (index : Nat) : Option MeasEntry :=
  (s.foreman.log.filter fun e => e.index = index).getLast?

/-- The latest entries of all indices, as index, digest and frame. -/
def State.measurements (s : State) : List Nat :=
  ((List.range 7).filterMap fun i => s.latestMeasure (i + 1)).flatMap fun e => [e.index, e.digest, e.frame]

/-- The signature of the device identity key over an SPDM exchange (R496). -/
def spdmSign (l : List Nat) : Nat := (Config.signIdentity (Config.spdmDigest l)).toNat

/-- CHALLENGE (R496, R497): the chain's digest, the responder's nonce, the measurements, and the signature. -/
def execChallenge (via slot nonce : Nat) (s : State) : Host.Outcome State Fault Refusal :=
  let f := s.freeVal
  let l := [certDigest, f.1 % 2 ^ 256] ++ f.2.measurements
  .next (if s.spdmUp via && slot = 0 then f.2.spdm via true (l ++ [spdmSign (nonce :: l)]) else s.spdm via false [])

/-- GET_MEASUREMENTS (R495-R497): the latest entry of an index, or of every index for 0xFF, with the signature when asked. -/
def execGetMeasurements (via index : Nat) (signed : Bool) (nonce : Nat) (s : State) : Host.Outcome State Fault Refusal :=
  let l := if index = 0xFF then s.measurements
    else (s.latestMeasure index).toList.flatMap fun e => [e.index, e.digest, e.frame]
  .next (s.spdm via (index = 0xFF || (decide (1 ≤ index) && decide (index ≤ 7)))
    (if signed then l ++ [spdmSign (nonce :: l)] else l))

end Sys2Proof.Machine
end

