-- ==== Sys2Proof/Machine/Resets.lean ====
section
/-!
DEFINITION. Reset sources, rails, release of the domains (18 R478-R486; 20 R528-R537) and the watchdog (18 R482).
-/
namespace Sys2Proof.Machine

/-- One millisecond and one second in ps. -/
def msPs : Nat := 10 ^ 9
/-- One second in ps. -/
def secPs : Nat := 10 ^ 12

/-! ## Package rails (18 R480, R481; 20 R530, R536) -/

/-- The package rails come up; THERM_TRIP# deasserts (R481), and RST_CTRL takes its reset value (00 R11).
(DEDUCED: notes/assumptions/72) -/
def State.raiseRails (s : State) : State :=
  let s' := (s.keepRegs fun off => off ≠ Reg.rstCtrl).modLamp fun l => { l with rails := true, tripHold := false, faultHold := false, tripPin := false }
  if s.lamp.tripPin then s'.pin 3 true else s'

/-- May the package rails come up: boot verified and the 54 V input in range for 10 ms (20 R536). -/
def State.railsReady (s : State) : Bool :=
  s.lamp.standby && s.lamp.booted && s.lamp.input && decide (s.lamp.inputAt + 10 * msPs ≤ s.ps)

/-- A Mailbox or Sideband reset command lets rails held off come up again (R481). -/
def State.freeRails (s : State) : State :=
  if s.lamp.tripHold || s.lamp.faultHold then
    if s.railsReady then s.raiseRails
    else s.modLamp fun l => { l with tripHold := false, faultHold := false }
  else s

/-- PACKAGE_RAILS_UP (20 R536). -/
def execPackageRailsUp (s : State) : Host.Outcome State Fault Refusal :=
  if s.railsReady && !s.lamp.rails && !s.lamp.tripHold && !s.lamp.faultHold then .next s.raiseRails else .next s

/-- INPUT_POWER_APPLY (20 R529, R536): the 54 V input is applied and soft-starts. -/
def execInputPowerApply (s : State) : Host.Outcome State Fault Refusal :=
  if s.lamp.input then .next s else .next (s.modLamp fun l => { l with input := true, inputAt := s.ps })

/-- STANDBY_LOSS (20 R530): without standby the package rails go, and the lamp room with them. -/
def execStandbyLoss (s : State) : Host.Outcome State Fault Refusal :=
  if !s.lamp.standby then .next s
  else
    let s := s.dropRails
    .next ((s.modLamp fun l => { l with standby := false, booted := false, takeover := false }).modForeman fun _ => Foreman.idle)

/-- A staging that is interrupted leaves the staged bank invalid (19 R509, 20 R537): it was marked so at its start. -/
def Lamp.unplugged (l : Lamp) : Lamp :=
  { l with present := false, standby := false, input := false, rails := false, booted := false, takeover := false }

/-- MODULE_REMOVE (20 R537): PRSNT# breaks, and the node removes both inputs; flash keeps its records. -/
def execModuleRemove (s : State) : Host.Outcome State Fault Refusal :=
  if !s.lamp.present then .next s
  else
    let s := (s.pin 4 true).dropRails
    .next ((s.modLamp fun l => l.unplugged).modForeman fun _ => Foreman.idle)

/-! ## Sources (18 R478-R482) -/

/-- POWER_ON_RESET (R478, R479, 20 R528): standby rises or returns: a cold reset; only POR is set. -/
def execPowerOnReset (s : State) : Host.Outcome State Fault Refusal :=
  .next (s.coldReset.modLamp fun l => { l with standby := true, present := true })

/-- A warm source of the module domains (R478-R480). -/
def State.warmSource (s : State) (bit : Nat) (flr : Bool) : State := (s.setCause bit).resetModule flr

/-- PERST_ASSERT (R478, R483): the module domains stay in reset until it is deasserted. -/
def execPerstAssert (s : State) : Host.Outcome State Fault Refusal :=
  if !s.lamp.standby ∨ s.lamp.perst then .next s
  else .next ((s.warmSource 1 false).modLamp fun l => { l with perst := true })

/-- PERST_DEASSERT (R483). -/
def execPerstDeassert (s : State) : Host.Outcome State Fault Refusal := .next (s.modLamp fun l => { l with perst := false })

/-- HOT_RESET (R478): received on the host port. -/
def execHotReset (s : State) : Host.Outcome State Fault Refusal :=
  if s.hostUp then .next (s.warmSource 2 false) else .next s

/-- LINK_DOWN_RESET (R478): the host link goes down; with RST_CTRL.LINKDOWN_EN it is a reset source. -/
def execLinkDownReset (s : State) : Host.Outcome State Fault Refusal :=
  if !s.hostUp then .next s
  else
    let s := s.setReg Reg.pciStat 0
    .next (if s.flag Reg.rstCtrl Fld.rstCtrlLinkdownEn then s.warmSource 3 false else s)

/-- FUNCTION_LEVEL_RESET (R478): keeps the host link and the configuration space. -/
def execFunctionLevelReset (s : State) : Host.Outcome State Fault Refusal :=
  if s.hostUp then .next (s.warmSource 4 true) else .next s

/-- The reset that a command has scheduled with a cause bit, when its time has come. -/
def State.dueReset (s : State) (cause : Nat) : Option DueReset :=
  s.lamp.due.find? fun d => d.cause = cause && decide (d.at_ ≤ s.ps)

/-- A reset by command begins (19 R516, R523; 18 R481): of the module domains, or of the lamp room. -/
def State.commandReset (s : State) (cause : Nat) (clearLog : Bool) : State :=
  match s.dueReset cause with
  | none => s
  | some d =>
    let s := (s.modLamp fun l => { l with due := l.due.filter (· ≠ d) }).setCause cause
    let s := if d.scope = 0 then s.resetModule false else s.resetLamp clearLog
    s.freeRails

/-- MAILBOX_RESET (R478, R495): a lamp-room reset clears the measurement log. -/
def execMailboxReset (s : State) : Host.Outcome State Fault Refusal := .next (s.commandReset 5 true)

/-- SIDEBAND_RESET (R478, R495): a lamp-room reset keeps the measurement log. -/
def execSidebandReset (s : State) : Host.Outcome State Fault Refusal := .next (s.commandReset 6 false)

/-- The watchdog period in ps: 0 is taken as 1 ms. -/
def State.watchPs (s : State) : Nat := max 1 (s.fld Reg.rstWdt Fld.rstWdtPeriod) * msPs

/-- WATCHDOG_EXPIRY (R482): the first resets the foreman, and the standby takes over (19 R509); one with the standby in
service resets the lamp room and the module domains. -/
def execWatchdogExpiry (s : State) : Host.Outcome State Fault Refusal :=
  if !s.foremanUp ∨ s.ps < s.lamp.watchAt + s.watchPs then .next s
  else
    let s := s.bump Reg.rstWdtCnt
    if s.flag Reg.rstStat Fld.rstStatStandby then .next (((s.setCause 7).resetLamp true).resetModule false)
    else .next (s.modLamp fun l => { l with takeover := true })

/-- WATCHDOG_KICK (R482): the foreman restarts the period. -/
def execWatchdogKick (s : State) : Host.Outcome State Fault Refusal :=
  if s.foremanUp then .next (s.modLamp fun l => { l with watchAt := s.ps }) else .next s

/-- THERMAL_TRIP (17 R475; 18 R478, R480, R481): a junction, in 1/16 degree, at 115 degrees or above.
(DEDUCED: notes/assumptions/75) -/
def execThermalTrip (junction : Int) (s : State) : Host.Outcome State Fault Refusal :=
  if !s.lamp.standby ∨ junction < 1840 then .next s
  else
    let s := ((s.setCause 8).dropRails).pin 3 false
    .next (s.modLamp fun l => { l with tripHold := true, tripAt := s.ps, tripPin := true })

/-- REGULATOR_FAULT (R478, R480, R481; 20 R529): of a package regulator, or the 54 V input out of range (`input`). A fault
60 s or later after a restart starts the count of restarts afresh. -/
def execRegulatorFault (input : Bool) (s : State) : Host.Outcome State Fault Refusal :=
  if !s.lamp.standby then .next s
  else
    let s := (s.setCause 9).dropRails
    .next (s.modLamp fun l =>
      { l with faultHold := true, faultAt := s.ps, input := l.input && !input
               restarts := if s.ps < l.restartAt + 60 * secPs then l.restarts else 0 })

/-- TRIP_RAIL_RESTORE (R481): with TRIP_RESTART, 10 s after the trip and the outlet, in 1/16 degree, below 60 degrees. -/
def execTripRailRestore (tOut : Int) (s : State) : Host.Outcome State Fault Refusal :=
  if s.lamp.tripHold && !s.lamp.faultHold && s.flag Reg.rstCtrl Fld.rstCtrlTripRestart && s.railsReady &&
      decide (s.lamp.tripAt + 10 * secPs ≤ s.ps) && decide (tOut < 960) then .next s.raiseRails
  else .next s

/-- REGULATOR_RAIL_RESTORE (R481): with REG_RESTART, 1 s after the fault, at most 3 times in a row. -/
def execRegulatorRailRestore (s : State) : Host.Outcome State Fault Refusal :=
  if s.lamp.faultHold && !s.lamp.tripHold && s.flag Reg.rstCtrl Fld.rstCtrlRegRestart && s.railsReady &&
      decide (s.lamp.faultAt + secPs ≤ s.ps) && decide (s.lamp.restarts < 3) then
    .next (s.raiseRails.modLamp fun l => { l with restarts := l.restarts + 1, restartAt := s.ps })
  else .next s

/-- RESET_CAUSE_CLEAR (R479): bits written 1 clear. -/
def execResetCauseClear (val : Nat) (s : State) : Host.Outcome State Fault Refusal :=
  let s := s.noteReserved Reg.rstCause val
  .next (s.storeFields Reg.rstCause val)

/-! ## Release (18 R483-R485) -/

/-- RST_OUT_DEASSERT (R483): at least 1 ms after the last source, rails up, rails and clocks stable, PERST# deasserted. -/
def execRstOutDeassert (stable : Bool) (s : State) : Host.Outcome State Fault Refusal :=
  if s.lamp.rstOut && s.lamp.standby && s.lamp.rails && !s.lamp.perst && stable && decide (s.lamp.resetAt + msPs ≤ s.ps) then
    .next ((s.modLamp fun l => { l with rstOut := false }).pin 2 true)
  else .next s

/-- The zero fill of a range of device memory, its marks with it (R484). -/
def State.zeroFill (s : State) (lo hi : Nat) : State :=
  { s with mem := s.mem.filter fun c => c.1 < lo || hi ≤ c.1
           marks := s.marks.filter fun e => e.1 * 4 < lo || hi ≤ e.1 * 4 }

/-- The state of a stope at the release of the levels (R485): the fence record, the fuse map and the spares brought in; one that a block
reset held OFF waits for a canary.
(DESIGN CHOICE: notes/assumptions/63) -/
def State.restoreStope (s : State) (n : Nat) : State :=
  let c := Store.get 0 s.lamp.fences n
  if c ≠ 0 then s.setStope n 4 c
  else if Config.fuseSpare n && !s.lamp.spares.contains n then s.setStope n 2 0
  else if s.lamp.heldOff.contains n then
    (s.setStope n 4 3).modStope n fun c => { c with returning := true, passed := false, canaryBusy := false }
  else s.setStope n 1 0

/-- Does a CXL port support a device (10 Table 10.8): x16, x8 or x4; 64 GT/s with 256-byte flits, 32 and 16 GT/s with 68-byte ones. -/
def cxlSupports (d : CxlDevice) : Bool :=
  d.needs.isEmpty && (d.width = 4 || d.width = 8 || d.width = 16) &&
    (if d.flit256 then d.speed = 3 else d.speed = 1 || d.speed = 2)

/-- CXL_PORT_STAT of a port (10 R290, R291, Table 10.10): absent; UNSUPPORTED, and disabled; or up or down, with at most 2 TiB
mapped. -/
def cxlStat (d : Option CxlDevice) : Nat :=
  match d with
  | none => 0
  | some d =>
    if cxlSupports d then min d.units 8192 * 2 ^ 18 + d.speed * 2 ^ 16 + d.width * 2 ^ 8 + (if d.linkUp then 2 else 3) else 4

/-- What a domain does at its release (Table 18.3): `link` is the value of PCI_STAT that the host port's link has found, `devs`
are the devices that the foreman finds at the CXL ports.
(DESIGN CHOICE: notes/assumptions/63; DEDUCED: notes/assumptions/73) -/
def State.releaseDomain (s : State) (d link : Nat) (devs : Option CxlDevice × Option CxlDevice) : State :=
  match d with
  | 2 => if s.lamp.scope = 1 then s else s.setReg Reg.pciStat (bits link 15 8 * 256 + bits link 2 0)
  | 3 =>
    let s := (s.zeroFill 0 0x6000000000).modLamp fun l => { l with trained := true }
    (List.range 8).foldl (fun s k => s.setFld (Reg.hbmStat k) Fld.hbmStatTrained 1) s
  | 4 =>
    let t := (List.range 144).foldl (fun s n => s.restoreStope n) (s.zeroFill 0x8000000000 controlBase)
    { t.modLamp fun l => { l with heldOff := [] } with idleFrom := s.cycle }
  | 5 => s.setFld Reg.rstStat Fld.rstStatReady 1
  | 6 =>
    ((s.setReg (Reg.cxlPortStat 0) (cxlStat devs.1)).setReg (Reg.cxlPortStat 1) (cxlStat devs.2)).modLamp fun l =>
      { l with scope := 0 }
  | _ => s

/-- DOMAIN_RELEASE (R484, R485, Table 18.3): the next domain is released; HBM once its training is complete (`trained`), or
kept from before a reset without rail loss. -/
def execDomainRelease (trained : Bool) (link : Nat) (devs : Option CxlDevice × Option CxlDevice) (s : State) :
    Host.Outcome State Fault Refusal :=
  let d := s.lamp.released + 1
  if s.lamp.rstOut ∨ !s.lamp.rails ∨ 6 < d ∨ (d = 3 ∧ !trained ∧ !s.lamp.trained) then .next s
  else .next ((s.releaseDomain d link devs).modLamp fun l => { l with released := d })

end Sys2Proof.Machine
end

