-- ==== Sys2Proof/Machine/Blocks.lean ====
section
/-!
DEFINITION. Block resets (16 R452, R453; 18 R487-R490).
-/
namespace Sys2Proof.Machine

/-- Is a number one of Table 18.4. -/
def listedBlock (b : Nat) : Bool := b ≤ 0x16 || (0x100 ≤ b && b < 0x190)

/-- STATE of a block: 0 ON, 1 DRAINING, 2 RESETTING, 3 OFF, 4 RELEASING. -/
def State.blockState (s : State) (b : Nat) : Nat := s.fld (Reg.rstBlkStat b) Fld.rstBlkStatState

/-- PEND of a block. -/
def State.blockPend (s : State) (b : Nat) : Nat := s.fld (Reg.rstBlkStat b) Fld.rstBlkStatPend

/-- AFTER of a block. -/
def State.blockAfter (s : State) (b : Nat) : Nat := s.fld (Reg.rstBlkStat b) Fld.rstBlkStatAfter

/-- Set AFTER, PEND and STATE of a block. -/
def State.setBlock (s : State) (b after pend st : Nat) : State :=
  s.setReg (Reg.rstBlkStat b) (after * 16 + pend * 8 + st)

/-- The block reset in progress. -/
def State.blockCtl (s : State) (b : Nat) : BlockCtl := Store.get BlockCtl.rest s.lamp.blocks b

/-- Change the block reset in progress. -/
def State.modBlock (s : State) (b : Nat) (f : BlockCtl → BlockCtl) : State :=
  s.modLamp fun l => { l with blocks := Store.modify BlockCtl.rest l.blocks b f }

/-- The instant at which the present cycle began, in parts of a ps (00 R13). -/
def State.now (s : State) : Nat := s.ps * subUnit + s.sub

/-- A block begins to drain (R488): the idle request is made in the cycle after the write; a stope's at the next boundary. -/
def State.drainBlock (s : State) (b pend : Nat) : State :=
  (s.setBlock b 0 pend 1).modBlock b fun c =>
    { c with asked := if b < 0x100 then some (s.now + s.cycleSub) else none, idle := false, since := s.cycle
             prior := if b < 0x100 then 0 else s.reg (Reg.dptStopeStat (b - 0x100)) }

/-- A block begins its release. -/
def State.startRelease (s : State) (b : Nat) : State := (s.setBlock b 0 0 4).modBlock b fun c => { c with since := s.cycle }

/-- A write that changes PEND or AFTER counts (R489). -/
def State.collapse (s : State) (changed : Bool) : State := s.bumpIf changed Reg.rstCollapseCnt

/-- An operation written for a block: 1 RESET, 2 OFF, 3 ON (Table 18.5). (DESIGN CHOICE: notes/assumptions/77) -/
def State.blockOp (s : State) (b op : Nat) : State :=
  let pend := if op = 2 then 0 else 1
  let after := if op = 2 then 1 else if op = 1 then 2 else 0
  match s.blockState b with
  | 0 => if op = 3 then s else s.drainBlock b pend
  | 1 => (s.collapse (s.blockPend b ≠ pend)).setBlock b 0 pend 1
  | 2 => (s.collapse (s.blockPend b ≠ pend)).setBlock b 0 pend 2
  | 3 => if op = 2 then s else s.startRelease b
  | _ => (s.collapse (s.blockAfter b ≠ after)).setBlock b after 0 4

/-- A write to RST_BLK_CTRL (R487): one that names an unlisted block, or the host port from elsewhere than the foreman, is
discarded and counts. OP reads 0. -/
def State.blockWrite (s : State) (foreman : Bool) (b op : Nat) : State :=
  if !listedBlock b ∨ (b = 0x16 ∧ !foreman) then s.bump Reg.lmpBadAccessCnt
  else
    let s := s.setReg Reg.rstBlkCtrl b
    if op = 0 then s else s.blockOp b op

/-- BLOCK_RESET (R487, R489). -/
def execBlockReset (foreman : Bool) (block : Nat) (s : State) : Host.Outcome State Fault Refusal :=
  .next (s.blockWrite foreman block 1)

/-- BLOCK_OFF (R487, R489). -/
def execBlockOff (foreman : Bool) (block : Nat) (s : State) : Host.Outcome State Fault Refusal :=
  .next (s.blockWrite foreman block 2)

/-- BLOCK_ON (R487, R489). -/
def execBlockOn (foreman : Bool) (block : Nat) (s : State) : Host.Outcome State Fault Refusal :=
  .next (s.blockWrite foreman block 3)

/-! ## Idle and forced resets (R488, 16 R453) -/

/-- Has a block nothing in progress. -/
def State.blockIdle (s : State) (b : Nat) : Bool :=
  let tags := s.skips.flatMap fun e => e.2.streams.flatMap fun (x : Stream) => x.tags
  match b with
  | 0 => s.buckets.isEmpty && s.xfers.all fun x => x.engine ≠ 1
  | 1 => s.riffles.isEmpty && s.xfers.all fun x => x.engine ≠ 2
  | 2 => s.smelts.isEmpty
  | 3 => s.snapshot.isNone
  | 0x14 => !tags.any fun t => s.atPort 0 (t.src ++ t.dst)
  | 0x15 => !tags.any fun t => s.atPort 1 (t.src ++ t.dst)
  | 0x16 => !tags.any fun t => s.hostRun (t.src ++ t.dst)
  | _ =>
    if b < 0x100 then (s.skip (140 + b)).streams.isEmpty
    else
      let n := b - 0x100
      s.crews.all (fun e => e.1 / 16 ≠ n || e.2.inst.isNone) && s.saved.all (fun (x : SavedCtx) => x.stope ≠ n) &&
        (s.skip n).streams.isEmpty

/-- The reason code of a forced block reset in an ENGINE item. -/
def reasonBlockReset : Nat := 20

/-- The tickets of an engine's open transfers resolve BAD, with a cause that Table 15.4 does not give (16 R453). -/
def State.failXfers (s : State) (engine : Nat) : State :=
  let f := s.freeVal
  let hit := (s.xfers.filter fun (x : Xfer) => x.engine = engine).map fun (x : Xfer) => x.ticket
  ({ f.2 with xfers := s.xfers.filter fun (x : Xfer) => x.engine ≠ engine }).setOutcome hit (some (f.1 % 256))

/-- Poison the steps of failed operations, with a cause that Table 15.4 does not give (16 R453). -/
def State.poisonSteps (s : State) (l : List StepId) : State :=
  l.foldl (fun s id =>
    if id.seq = s.seqNo then
      let f := s.freeVal
      f.2.poisonStep id.num (f.1 % 256) 0 s.node
    else s) s

/-- Every stream of a skip ends with cause 6 (16 R453, 10 R288). (DESIGN CHOICE: notes/assumptions/92) -/
def State.abortStreams (s : State) (k : Nat) : State :=
  (s.skip k).streams.foldl (fun s x =>
    let y := { x with tags := [] }
    let va := match x.desc with
      | some d => (d.tagAt x.next (tagSize k)).1
      | none => x.at_
    (s.modStream k x.id fun _ => y).stopStream k y 6 va false) s

/-- What a block has in progress ends at a forced reset (16 R453). -/
def State.forceBlock (s : State) (b : Nat) : State :=
  match b with
  | 0 =>
    let steps := (s.buckets.map (·.step)).eraseDups
    let s := s.buckets.foldl (fun s x => s.failBucket x.num reasonBlockReset) s
    ((s.setBuckets []).failXfers 1).poisonSteps steps
  | 1 =>
    let steps := (s.riffles.map (·.step)).eraseDups
    let s := s.riffles.foldl (fun s x => s.failRfl x.id reasonBlockReset) s
    ((s.setRiffles []).failXfers 2).poisonSteps steps
  | 2 =>
    let steps := (s.smelts.map (·.step)).eraseDups
    (s.smelts.foldl (fun s x => s.failSmelt x reasonBlockReset) s).poisonSteps steps
  | 3 => match s.snapshot with
    | some x => (s.endSnapshot x 3).poisonSteps [x.step]
    | none => s
  | 0x14 => s.failCxl 0
  | 0x15 => s.failCxl 1
  | 0x16 => s.failPort s.hostRun
  | _ => if b < 0x100 then s.abortStreams (140 + b) else (s.loseStope (b - 0x100) true).abortStreams (b - 0x100)

/-- A block enters RESETTING; a stope shows fenced with FCAUSE 3 from then until it returns. -/
def State.startReset (s : State) (b : Nat) : State :=
  let s := (s.setBlock b 0 (s.blockPend b) 2).modBlock b fun c => { c with since := s.cycle }
  if b < 0x100 then s else s.setStope (b - 0x100) 4 3

/-- The instant at which RST_IDLE_TIMEOUT elapses for a block (R488): 10 ns ticks, 0 taken as 1. -/
def State.idleDeadline (s : State) (asked : Nat) : Nat :=
  asked + max 1 (s.fld Reg.rstIdleTimeout Fld.rstIdleTimeoutTicks) * 10000 * subUnit

/-- Has a draining block been asked, and is its deadline cycle not over (R488). -/
def State.idleInTime (s : State) (b : Nat) : Bool :=
  (s.blockCtl b).asked.any fun a => a ≤ s.now && s.now ≤ s.idleDeadline a

/-- At the end of a cycle up to the deadline cycle, a draining block that is idle has reported in time (R231, R488). -/
def State.judgeIdle (s : State) : State :=
  s.lamp.blocks.foldl (fun s e =>
    if s.blockState e.1 = 1 && s.idleInTime e.1 && s.blockIdle e.1 then s.modBlock e.1 fun c => { c with idle := true } else s) s

/-- BLOCK_IDLE_REPORT (R488): a draining block that was asked and is idle; a report in the deadline cycle counts. -/
def execBlockIdleReport (block : Nat) (s : State) : Host.Outcome State Fault Refusal :=
  if s.blockState block = 1 && s.blockIdle block && (s.idleInTime block || (s.blockCtl block).idle) then
    .next (s.startReset block)
  else .next s

/-- BLOCK_IDLE_TIMEOUT (R488, 16 R453): a block that was not idle at the end of its deadline cycle is reset by force. -/
def execBlockIdleTimeout (block : Nat) (s : State) : Host.Outcome State Fault Refusal :=
  if s.blockState block = 1 && (s.blockCtl block).asked.any (fun a => s.idleDeadline a < s.now) &&
      !(s.blockCtl block).idle then
    let s := ((s.bump Reg.rstForceCnt).forceBlock block).startReset block
    .next s.resetEvent
  else .next s

/-- Has a block a locked sequence in progress (09 R247): a stope's by its crews and units, an engine's on port 1. -/
def State.blockLocked (s : State) (b : Nat) : Bool :=
  (s.locks.filter fun l => s.holds l).any fun (l : LockedSeq) =>
    if b < 0x100 then
      (match l.mem with
       | .stockpile _ => l.port = 1
       | _ => false)
    else
      (match l.mem with
       | .face n => n = b - 0x100 && l.port ≠ 0
       | _ => false) || l.crew.any fun c => c.stope = b - 0x100

/-- BLOCK_RESET_HOLD_END (R488): reset held for 256 cycles and no locked sequence of the block left. -/
def execBlockResetHoldEnd (block : Nat) (s : State) : Host.Outcome State Fault Refusal :=
  if s.blockState block = 2 && decide ((s.blockCtl block).since + 256 ≤ s.cycle) && !s.blockLocked block then
    .next ((s.setBlock block 0 (s.blockPend block) 3).modBlock block fun c => { c with since := s.cycle })
  else .next s

/-- A block is ON again: a stope that was active or gated waits for a canary, another shows what it did before (R488, 16
R453). -/
def State.blockBack (s : State) (b : Nat) : State :=
  let prior := (s.blockCtl b).prior
  let s := (s.setBlock b 0 0 0).modLamp fun l => { l with blocks := Store.erase l.blocks b }
  let cause := Store.get 0 s.lamp.fences (b - 0x100)
  if b < 0x100 then s
  else if cause ≠ 0 then s.setStope (b - 0x100) 4 cause
  else if bits prior 31 28 = 1 ∨ bits prior 31 28 = 3 then
    s.modStope (b - 0x100) fun c => { c with returning := true, passed := false, canaryBusy := false }
  else s.setStope (b - 0x100) (bits prior 31 28) (bits prior 27 24)

/-- BLOCK_RELEASE_END (R488, R489): after 256 cycles; AFTER decides what follows. -/
def execBlockReleaseEnd (block : Nat) (s : State) : Host.Outcome State Fault Refusal :=
  if s.blockState block = 4 && decide ((s.blockCtl block).since + 256 ≤ s.cycle) then
    match s.blockAfter block with
    | 0 => .next (s.blockBack block)
    | 1 =>
      let prior := (s.blockCtl block).prior
      .next ((s.drainBlock block 0).modBlock block fun c => { c with prior })
    | _ =>
      let prior := (s.blockCtl block).prior
      .next ((s.drainBlock block 1).modBlock block fun c => { c with prior })
  else .next s

/-- The cycle after a block became OFF with PEND = 1: PEND is taken (Table 18.5). -/
def State.takePends (s : State) : State :=
  s.lamp.blocks.foldl (fun s e => if s.blockState e.1 = 3 && s.blockPend e.1 = 1 then s.startRelease e.1 else s) s

/-- The idle requests of draining stopes at a frame boundary (R488). (DESIGN CHOICE: notes/assumptions/77) -/
def State.askStopes (s : State) : State :=
  s.lamp.blocks.foldl (fun s e =>
    if 0x100 ≤ e.1 && s.blockState e.1 = 1 && e.2.asked.isNone then s.modBlock e.1 fun c => { c with asked := some s.now }
    else s) s

end Sys2Proof.Machine
end

