-- ==== Sys2Proof/Machine/Boundary.lean ====
section
/-!
DEFINITION. What takes force at a frame boundary (01 R27, Table 1.6), one operation each.
-/
namespace Sys2Proof.Machine

/-! ## Waits, commands and commits grow older (07 R200; 08 R232; 15 R415) -/

/-- A wait passes a boundary. -/
def CrewWait.older (w : CrewWait) : CrewWait := { w with age := w.age + 1, left := w.left - 1 }

/-- The first decoded command of a shaft and the started ones pass a boundary. -/
def State.olderShaft (s : State) (h : Shaft) : Shaft :=
  { h with
    decoded := match h.decoded with
      | c :: l => { c with age := if c.waitOn.isSome && !c.met then c.age + 1 else c.age } :: l
      | [] => []
    started := h.started.map fun c => if s.commitWaits c then { c with stallAge := c.stallAge + 1 } else c }

/-- Every wait, command and commit passes a boundary. (DEDUCED: notes/assumptions/70) -/
def State.olderAll (s : State) : State :=
  { s with crews := s.crews.map fun e => (e.1, { e.2 with wait := e.2.wait.map CrewWait.older })
           saved := s.saved.map fun (x : SavedCtx) => { x with wait := x.wait.map CrewWait.older }
           shafts := s.shafts.map fun e => (e.1, s.olderShaft e.2) }

/-! ## What takes force at a boundary -/

/-- The tally epoch takes the value of NEXT (08 R215, R230; 11 R325; 15 R408): a new step sequence. -/
def State.changeEpoch (s : State) : State :=
  let next := s.fld Reg.tlyEpoch Fld.tlyEpochNext
  if next = s.epoch then s
  else
    let s := s.setFld Reg.tlyEpoch Fld.tlyEpochCurrent next
    let s := ({ s with seqNo := s.seqNo + 1, cpl := [] }).discardOldTickets.countSteps
    s.setFld Reg.plgStat Fld.plgStatBlocked 0

/-- A written check level takes effect (15 R404). -/
def State.changeLevel (s : State) : State :=
  match s.levelNext with
  | some l => ({ s with levelNext := none }).setFld Reg.dptCtrl Fld.dptCtrlLevel l
  | none => s

/-- A verified test pack takes force (15 R425, 18 R495, 19 R516). -/
def State.changePack (s : State) : State :=
  match s.packNext with
  | some p =>
    let s := ({ s with pack := some p, packNext := none }).setReg Reg.dptPackStat
      (p.version % 2 ^ 16 * 2 ^ 16 + p.entries.length)
    (s.measurePack p).lampCause Fld.lmpLampCausePack
  | none => s

/-- The engines of Table 18.7 by number: hoist, riffle, smelter, strongroom, deputy; has one no open operation. -/
def State.engineQuiet (s : State) (e : Nat) : Bool :=
  match e with
  | 4 => s.tickets.isEmpty
  | _ => s.blockIdle e

/-- OPC of FW_ACTIVATE. -/
def opcActivate : Nat := 0x000B

/-- An activation that waits for no other long command switches the foreman and the tables, and each engine that has no open
operation (19 R518); the switches of a type end with an entry in the measurement log (18 R495). -/
def State.switchFirmware (s : State) : State :=
  match s.foreman.longs with
  | [c] =>
    if c.opc ≠ opcActivate then s
    else
      let bank := 1 - s.runBank
      let f := s.foreman
      let now := (List.range 5).filter fun e => !f.engines.contains e && s.engineQuiet e
      let s := s.modForeman fun f => { f with handed := true, tables := true, engines := f.engines ++ now }
      let s := if f.handed then s else s.measureImage bank 1
      let s := if f.engines.length < 5 && f.engines.length + now.length = 5 then s.measureImage bank 2 else s
      if f.tables then s else s.measureImage bank 4
  | _ => s

/-- The foreman retrains CXL ports that are down, at most three times (10 R292); `ups` has a bit per port that trains. -/
def State.retrainCxl (s : State) (ups : Nat) : State :=
  [0, 1].foldl (fun s p =>
    let tries := Store.get 0 s.port.cxlTries p
    if s.fld (Reg.cxlPortStat p) Fld.cxlPortStatState ≠ 3 ∨ 3 ≤ tries then s
    else
      let s := s.bump (Reg.cxlRetrainCnt p)
      if ups.testBit p then
        (s.setFld (Reg.cxlPortStat p) Fld.cxlPortStatState 2).modPort fun h =>
          { h with cxlTries := Store.set 0 h.cxlTries p 0 }
      else s.modPort fun h => { h with cxlTries := Store.set 0 h.cxlTries p (tries + 1) }) s

/-- The background window opens (09 R256, R264): a length above half the frame is taken as half.
(DESIGN CHOICE: notes/assumptions/40) -/
def State.openWindow (s : State) : State :=
  let half := s.fld Reg.whsPeriod Fld.whsPeriodTicks * clockMHz s.freqCode / 200
  { s with window := true, bgWin := min (s.fld Reg.memBgWin Fld.memBgWinCycles) half }

end Sys2Proof.Machine
end

