-- ==== Sys2Proof/Machine/Registers.lean ====
section
/-!
DEFINITION. Accesses to the control space (00 R8, R10; 18 R486; 19 R501, R502), to BAR2 (R503), interrupts (R505-R507),
address translation services (R504), configuration requests (R499) and the completion of tags (10 R277).
-/
namespace Sys2Proof.Machine

/-- The state that a command leads to. -/
def after (o : Host.Outcome State Fault Refusal) (s : State) : State :=
  match o with
  | .next t => t
  | _ => s

/-! ## Interrupts (19 R505-R507) -/

/-- Has an event source raised in this cycle while its bit was 1, so that no message has gone out for it yet (R506). -/
def State.raisedUnsent (s : State) (e : Nat) : Bool :=
  let mine := s.raised.filter fun x => x.1 = Reg.lmpEventStat ∧ x.2.1 = 2 ^ e
  !mine.isEmpty && mine.all fun x => x.2.2

/-- A clear of an event bit meets a raise of the same cycle (R506): the bit stands at 1, and the message that it held back
while the bit was 1 is sent. -/
def State.clearMeetsRaise (s : State) (e : Nat) : State :=
  if !s.raisedUnsent e then s
  else
    let t := { s with raised := s.raised ++ [(Reg.lmpEventStat, 2 ^ e, false)] }
    if (s.reg Reg.lmpEventEn).testBit e then t.msix (s.fld (Reg.lmpEventVec e) Fld.lmpEventVecVec) else t

/-- EVENT_STAT_CLEAR (R506, 00 R10): bits written 1 clear; a source that raises in the same cycle, in an earlier command of the
cycle or in this one (`raised`), leaves its bit at 1 and sends a message. -/
def execEventStatClear (val raised : Nat) (s : State) : Host.Outcome State Fault Refusal :=
  let s := (s.noteReserved Reg.lmpEventStat val).storeFields Reg.lmpEventStat val
  .next ((List.range 18).foldl (fun s e =>
    (if val.testBit e then s.clearMeetsRaise e else s).raiseIf (raised.testBit e) e) s)

/-- EVENT_ENABLE_WRITE (R506): a source whose EN becomes 1 while its bit is 1 sends one message. -/
def execEventEnableWrite (val : Nat) (s : State) : Host.Outcome State Fault Refusal :=
  let s := s.noteReserved Reg.lmpEventEn val
  let old := s.reg Reg.lmpEventEn
  let stat := s.reg Reg.lmpEventStat
  let s := s.storeFields Reg.lmpEventEn val
  .next ((List.range 18).foldl (fun s e =>
    if val.testBit e && !old.testBit e && stat.testBit e then s.msix (s.fld (Reg.lmpEventVec e) Fld.lmpEventVecVec) else s) s)

/-- VECTOR_UNMASK (R507): the host writes the mask of an MSI-X vector; unmasking sends one message for any number that came
while it was masked. -/
def execVectorUnmask (vec : Nat) (mask : Bool) (s : State) : Host.Outcome State Fault Refusal :=
  if 2048 ≤ vec then .next s
  else
    let due := !mask && Store.get false s.port.waiting vec
    let s := s.modPort fun h =>
      { h with open_ := Store.set false h.open_ vec (!mask)
               waiting := if due then Store.set false h.waiting vec false else h.waiting }
    .next (if due then s.emit (.msix vec) else s)

/-- CAGE_DOORBELL (R511): rings every IDLE or DONE cage whose bit is set; a bit for a cage in RUNG or ACK is discarded and
counts. -/
def execCageDoorbell (val : Nat) (s : State) : Host.Outcome State Fault Refusal :=
  let s := s.noteReserved Reg.lmpCageDb val
  .next ((List.range 16).foldl (fun s c =>
    if !val.testBit c then s
    else if s.reg (Reg.lmpCageStat c) = 0 ∨ s.reg (Reg.lmpCageStat c) = 3 then s.setReg (Reg.lmpCageStat c) 1
    else s.bump Reg.lmpCageBusyCnt) s)

/-! ## Writes with an effect of their own -/

/-- A write to SFT_SHAFT_CTRL (08 R205, R235, Table 8.8): SIZE_LOG2 is discarded while EN = 1; ABORT, RESUME and a change
of EN act. (DEDUCED: notes/assumptions/33) -/
def State.writeShaftCtrl (s : State) (n val : Nat) : State :=
  let on := s.shaftOn n
  let size := if on then s.fld (Reg.sftShaftCtrl n) Fld.sftShaftCtrlSizeLog2 else bits val 19 16
  let s := (s.setFld (Reg.sftShaftCtrl n) Fld.sftShaftCtrlSizeLog2 size).setFld (Reg.sftShaftCtrl n) Fld.sftShaftCtrlPrio
    (bits val 5 4)
  let s := if val.testBit 3 then after (execShaftAbort n s) s else s
  let s := if val.testBit 2 then after (execShaftResume n s) s else s
  if val.testBit 0 && !on then after (execShaftEnable n s) s
  else if !val.testBit 0 && on then after (execShaftDisable n s) s
  else s

/-- A write to a register of the SFT block. -/
def State.writeShaft (s : State) (off val : Nat) : State :=
  if off < Reg.sftRingLo 0 then s.storeFields off val
  else
    let n := (off - Reg.sftRingLo 0) / 0x40
    if off = Reg.sftShaftCtrl n then s.writeShaftCtrl n val
    else if off = Reg.sftDoorbell n then after (execShaftDoorbell n val s) s
    else if (off = Reg.sftRingLo n ∨ off = Reg.sftRingHi n) ∧ s.shaftOn n then s
    else s.storeFields off val

/-- A write to a register of the SKP block (10 R284, R287, R293). -/
def State.writeSkp (s : State) (off val : Nat) : State :=
  if off = Reg.skpShare then after (execSkpShareWrite val s) s
  else if off = Reg.skpInvCtrl then
    if val.testBit 1 then s.invalidateAll (val.testBit 0) else after (execTlbInvalidatePage (val.testBit 0) s) s
  else if off = Reg.skpResume then
    after (if val.testBit 16 then execStreamResumeAbort (val % 2 ^ 16) s else execStreamResume (val % 2 ^ 16) s) s
  else s.storeFields off val

/-- A write to BNL_CTRL (11 Table 11.7): with EN set, the adits of used dimensions begin to train; with EN cleared they are
out of service. (DEDUCED: notes/assumptions/83) -/
def State.writeBnlCtrl (s : State) (val : Nat) : State :=
  let old := s.flag Reg.bnlCtrl Fld.bnlCtrlEn
  let s := s.storeFields Reg.bnlCtrl val
  if val.testBit 0 = old then s
  else (List.range 24).foldl (fun s a =>
    if val.testBit 0 then (if s.ring (aditDim a) = 1 then s else s.setPort a 1 0) else s.setPort a 0 0) s

/-- A write to a register of the BNL block (11 R310, R316, R326). (DEDUCED: notes/assumptions/83) -/
def State.writeBnl (s : State) (off val : Nat) : State :=
  if off = Reg.bnlCtrl then s.writeBnlCtrl val
  else if off = Reg.bnlRouteCtrl then (if val.testBit 0 then after (execRouteArm s) s else s)
  else if off = Reg.bnlHeadroom then after (execHeadroomWrite val s) s
  else if Reg.bnlGalMark 0 ≤ off ∧ off < Reg.bnlGalMark 16 then
    after (execGalMarkWrite ((off - Reg.bnlGalMark 0) / 4) val s) s
  else if (entryBank off).isSome then after (execRouteEntryWrite off val s) s
  else s.storeFields off val

/-- A write to a register of the DPT block (15 R404, R426). -/
def State.writeDpt (s : State) (off val : Nat) : State :=
  if off = Reg.dptCtrl then after (execDptCtrlWrite val s) s
  else if off = Reg.dptCanaryFace then after (execCanaryFaceWrite val s) s
  else if Reg.dptPackPa0 ≤ off ∧ off ≤ Reg.dptPackVa1 then after (execPackAddressWrite ((off - Reg.dptPackPa0) / 4) val s) s
  else s.storeFields off val

/-- A write to a register of the PWR block (17 R473, R477): a value outside its stated range is discarded. -/
def State.writePwr (s : State) (off val : Nat) : State :=
  let w := val % 2 ^ 11
  if off = Reg.pwrSetpoint then after (execSetpointWrite val s) s
  else if off = Reg.pwrEnvelope then (if 900 ≤ w ∧ w ≤ 1500 then s.storeFields off val else s)
  else if off = Reg.pwrCap then (if 300 ≤ w ∧ w ≤ 1500 then s.storeFields off val else s)
  else if off = Reg.pwrFlimit then
    (if bits val 4 0 ≤ bits val 12 8 ∧ bits val 12 8 ≤ 16 then s.storeFields off val else s)
  else s.storeFields off val

/-- A write to a register of the WHS block (17 R456, R476, Table 17.4). -/
def State.writeWhs (s : State) (off val : Nat) : State :=
  let on := s.flag Reg.whsCtrl Fld.whsCtrlEn
  if off = Reg.whsCtrl then
    if !on && val.testBit 0 then after (execWhistleEnable val s.whistle.root s) s
    else s.storeFields off (if on then putBits val 2 1 (s.fld Reg.whsCtrl Fld.whsCtrlRole) else val)
  else if off = Reg.whsPeriod then
    (if on ∨ bits val 16 0 < 10000 ∨ 80000 < bits val 16 0 then s else s.storeFields off val)
  else if off = Reg.whsFrame0 ∨ off = Reg.whsFrame1 then
    (if on ∧ s.whsRole ≠ 2 then s else s.storeFields off val)
  else s.storeFields off val

/-- A write to a register of the RST block (18 R479, R482, R487). -/
def State.writeRst (s : State) (who : Writer) (off val : Nat) : State :=
  if off = Reg.rstBlkCtrl then s.blockWrite (who = .foreman) (bits val 8 0) (bits val 17 16)
  else if off = Reg.rstWdt then (if who = .host then s else s.storeFields off val)
  else if off = Reg.rstWdtKick then (if who = .host || !val.testBit 0 then s else after (execWatchdogKick s) s)
  else s.storeFields off val

/-- A write to a register of the LMP block (19 R506, R511). -/
def State.writeLmp (s : State) (off val : Nat) : State :=
  if off = Reg.lmpEventEn then after (execEventEnableWrite val s) s
  else if off = Reg.lmpEventStat then after (execEventStatClear val 0 s) s
  else if off = Reg.lmpCageDb then after (execCageDoorbell val s) s
  else s.storeFields off val

/-- What a write to an assigned register does. (DEDUCED: notes/assumptions/82) -/
def State.writeEffect (s : State) (who : Writer) (off val : Nat) : State :=
  match off / 0x100000 with
  | 0 => s.writeRst who off val
  | 1 => s.writeLmp off val
  | 3 => s.writeShaft off val
  | 4 =>
    if off = Reg.tlyHostOp then after (if val.testBit 16 then execTlyHostSet (val % 2 ^ 16) s else execTlyHostAdd (val % 2 ^ 16) s) s
    else s.storeFields off val
  | 10 => if off = Reg.hbmCtrl then after (execInterleaveWrite val s) s else s.storeFields off val
  | 11 => s.writeSkp off val
  | 13 => s.writeBnl off val
  | 14 =>
    if off = Reg.hstBtabBase0 ∨ off = Reg.hstBtabBase1 then after (execBtabBaseWrite (off = Reg.hstBtabBase1) val s) s
    else s.storeFields off val
  | 15 =>
    if off = Reg.rflTabBase0 ∨ off = Reg.rflTabBase1 then after (execRflTabBaseWrite (off = Reg.rflTabBase1) val s) s
    else s.storeFields off val
  | 17 => s.writeDpt off val
  | 18 =>
    if off = Reg.plgResolve then
      (match bits val 1 0 with
       | 1 => after (execResolveRelease s) s
       | 2 => after (execResolveAbort s) s
       | _ => s)
    else s.storeFields off val
  | 20 => s.writePwr off val
  | 21 => s.writeWhs off val
  | _ => s.storeFields off val

/-- A write of an aligned word (00 R8, 18 R486): discarded by a block that is not released; to an unassigned offset,
discarded and counted; a non-zero value in reserved bits counts, once. (DEDUCED: notes/assumptions/9) -/
def State.writeWord (s : State) (who : Writer) (off val : Nat) : State :=
  if !s.blockUp off then s
  else match regSpecOf off with
    | none => s.bump Reg.lmpBadAccessCnt
    | some r =>
      let t := s.writeEffect who off (val % 2 ^ 32)
      t.bumpIf (r.reservedHit val && decide (t.reg Reg.lmpBadAccessCnt = s.reg Reg.lmpBadAccessCnt)) Reg.lmpBadAccessCnt

/-- A write of `n` bytes at an offset of the control space (19 R501, R502): the cages take any size with byte enables. -/
def State.ctlWrite (s : State) (who : Writer) (off n val en : Nat) : State :=
  if cageBase ≤ off ∧ off + n ≤ cageEnd then s.writeMem (controlBase + off) n val en
  else if !s.blockUp off then s
  else if n = 4 ∧ off % 4 = 0 then s.writeWord who off val
  else if n = 8 ∧ off % 8 = 0 then (s.writeWord who off (val % 2 ^ 32)).writeWord who (off + 4) (val / 2 ^ 32)
  else s.bump Reg.lmpBadAccessCnt

/-- Does the function decode its BARs: the host link is up and it is not in D3hot (19 R499). -/
def State.barsOpen (s : State) : Bool := s.hostUp && !s.port.d3

/-- Can an access of a writer arrive. -/
def State.arrives (s : State) (who : Writer) : Bool :=
  match who with
  | .host => s.barsOpen
  | .foreman => s.foremanUp
  | .engine => s.up 1

/-- REGISTER_WRITE (00 R8, 19 R501, R502): a write of `size` bytes; one to a register that has a row of its own does what
that row does. (DEDUCED: notes/assumptions/82) -/
def execRegisterWrite (who : Writer) (off size val en : Nat) (s : State) : Host.Outcome State Fault Refusal :=
  .next (if s.arrives who && decide (off + size ≤ 0x4000000) then s.ctlWrite who off size val en else s)

/-- UNASSIGNED_OFFSET_READ (00 R8, 18 R486, 19 R502): a read of the control space; an unassigned or malformed one reads 0
and counts. -/
def execUnassignedOffsetRead (who : Writer) (off size : Nat) (s : State) : Host.Outcome State Fault Refusal :=
  if s.arrives who && decide (off + size ≤ 0x4000000) then
    let r := s.ctlRead off size
    .next (r.1.emit (.readData r.2))
  else .next s

/-! ## BAR2 (19 R503) -/

/-- The device physical address of a BAR2 offset: base bits below the size are taken as 0. -/
def State.bar2Addr (s : State) (off : Nat) : Nat :=
  (s.fld Reg.pciBar2Base0 Fld.pciBar2BaseBaseLo * 2 ^ 30 + s.fld Reg.pciBar2Base1 Fld.pciBar2BaseBaseHi * 2 ^ 32)
    / 2 ^ s.port.bar2 * 2 ^ s.port.bar2 + off

/-- How BAR2 reaches an address: its memory, nothing (refused), or memory that is not released yet, for which it waits. -/
inductive Bar2 where
  | reach
  | refuse
  | wait
deriving DecidableEq, Repr

/-- How BAR2 reaches one address: only HBM, the stockpiles and the CXL windows are reachable. -/
def State.bar2Kind (s : State) (pa : Nat) : Bar2 :=
  match s.paKind pa with
  | .hbm _ => if s.up 3 then .reach else .wait
  | .stockpile _ => if s.up 4 then .reach else .wait
  | .cxl p => if s.fld (Reg.cxlPortStat p) Fld.cxlPortStatState ≠ 2 then .refuse
    else if s.blockOn (0x14 + p) then .reach else .wait
  | _ => .refuse

/-- How BAR2 reaches `n` bytes. -/
def State.bar2Span (s : State) (pa n : Nat) : Bar2 :=
  match s.bar2Kind pa, s.bar2Kind (pa + n - 1) with
  | .reach, .reach => .reach
  | .refuse, _ => .refuse
  | _, .refuse => .refuse
  | _, _ => .wait

/-- BAR2_READ (R503): refused with Completer Abort; a word marked poisoned returns a poisoned completion. -/
def execBar2Read (off n : Nat) (s : State) : Host.Outcome State Fault Refusal :=
  if !s.barsOpen ∨ n = 0 ∨ 2 ^ s.port.bar2 < off + n then .next s
  else
    let pa := s.bar2Addr off
    match s.bar2Span pa n with
    | .wait => .next s
    | .refuse => .next (s.refuse.emit .abort)
    | .reach =>
      if s.heldAt pa n then .next s else
      let r := s.readMem pa n
      let s := r.1.touch pa
      .next (if r.2.2 then (s.bump Reg.pciPoisonCnt).emit (.poisonedData r.2.1) else s.emit (.readData r.2.1))

/-- BAR2_WRITE (R503): in the order received; a refused one is discarded. -/
def execBar2Write (off n val en : Nat) (s : State) : Host.Outcome State Fault Refusal :=
  if !s.barsOpen ∨ n = 0 ∨ 2 ^ s.port.bar2 < off + n then .next s
  else
    let pa := s.bar2Addr off
    match s.bar2Span pa n with
    | .wait => .next s
    | .refuse => .next s.refuse
    | .reach => .next (if s.heldAt pa n then s else (s.writeMem pa n val en).touch pa)

/-! ## Address translation, configuration, time-outs (19 R499, R504, R525) -/

/-- ATS_INVALIDATION (R504): the pages of 4 KiB in a range of PCIe addresses leave the translation cache; the Invalidation
Completion is sent once no request that used them is outstanding. -/
def execAtsInvalidation (addr n : Nat) (s : State) : Host.Outcome State Fault Refusal :=
  if !s.hostUp ∨ !s.port.atsOn then .next s
  else
    let page := fun (p : Nat) => 0x100000000 + addr / 4096 ≤ p && p * 4096 < 0x100000000000 + addr + n
    let busy := s.skips.any fun e => e.2.streams.any fun (x : Stream) => x.tags.any fun t =>
      (s.hostPages (t.src ++ t.dst)).any page
    let s := s.modPort fun h => { h with ats := h.ats.filter fun p => !page p }
    .next (if busy then s else (s.bump Reg.pciAtsInvCnt).emit (.response 0 [addr, n]))

/-- CONFIGURATION_REQUEST (R499, R500, R504): into or out of D3hot, a size of BAR2 (log2, 1 GiB to 512 GiB), ATS on or off;
answered once RST_OUT# has deasserted. -/
def execConfigurationRequest (w : ConfigWrite) (s : State) : Host.Outcome State Fault Refusal :=
  if s.lamp.rstOut ∨ !s.hostUp then .next s
  else match w with
    | .power d3hot => .next (s.modPort fun h => { h with d3 := d3hot })
    | .bar2Size log2 => .next (if 30 ≤ log2 ∧ log2 ≤ 39 then s.modPort fun h => { h with bar2 := log2 } else s)
    | .ats on => .next (s.modPort fun h => { h with atsOn := on, ats := if on then h.ats else [] })

/-- The tag of a stream. -/
def State.tag? (s : State) (skip stream tag : Nat) : Option (Stream × Tag) :=
  (s.stream? skip stream).bind fun x => (x.tags.find? fun (t : Tag) => t.id = tag).map fun t => (x, t)

/-- HOST_COMPLETION_TIMEOUT (R525, 10 R285): a request to the host ends and its stream stops with cause 6.
(DESIGN CHOICE: notes/assumptions/48) -/
def execHostCompletionTimeout (skip stream tag : Nat) (s : State) : Host.Outcome State Fault Refusal :=
  match s.tag? skip stream tag with
  | some (x, t) =>
    .next (if s.hostRun (t.src ++ t.dst) then (s.bump Reg.pciCplErrCnt).failTag skip x t (!s.hostRun t.src) else s)
  | none => .next s

/-- TAG_COMPLETE (10 R277, R285, R289; 19 R504, R525): a tag's data are written at its destination, or its request ends in error. -/
def execTagComplete (skip stream tag : Nat) (result : TagResult) (s : State) : Host.Outcome State Fault Refusal :=
  let host := fun (side : Bool) => (s.tag? skip stream tag).any fun e => s.hostRun (if side then e.2.dst else e.2.src)
  let done := fun (s : State) => Host.Outcome.next (s.completeTag (fun s off n v => s.ctlWrite .engine off n v (allBytes n)) skip stream tag result)
  match result with
  | .ok _ => done s
  | .portError side => done (s.bumpIf (host side) Reg.pciCplErrCnt)
  | .aborted side => done (s.bumpIf (host side) Reg.pciCplErrCnt)
  | .denied side => if s.port.atsOn && host side then done s else .next s

end Sys2Proof.Machine
end

