-- ==== Sys2Proof/Machine/Foreman.lean ====
section
/-!
DEFINITION. The foreman: cages, the Lyselm command set, long commands and their completion ring, firmware update, takeover
and the sideband (15 R425, R426; 18 R494; 19 R508-R523).
-/
namespace Sys2Proof.Machine

/-! ## Status codes (Table 19.7) and OPCs (Table 19.8) -/

/-- OK. -/
def stOk : Nat := 0
/-- ACCEPTED. -/
def stAccepted : Nat := 1
/-- BAD_OPC. -/
def stBadOpc : Nat := 2
/-- BAD_PARAM. -/
def stBadParam : Nat := 3
/-- BUSY. -/
def stBusy : Nat := 4
/-- CONFLICT. -/
def stConflict : Nat := 5
/-- REFUSED. -/
def stRefused : Nat := 6
/-- AUTH. -/
def stAuth : Nat := 7
/-- TAKEOVER. -/
def stTakeover : Nat := 8
/-- NOT_READY. -/
def stNotReady : Nat := 9
/-- FAILED. -/
def stFailed : Nat := 10

/-- The firmware commands. -/
def fwCommands : List Nat := [0x000A, 0x000B, 0x000C]

/-- The commands whose running ends a command with CONFLICT (Table 19.8). -/
def conflictsOf (opc : Nat) : List Nat :=
  match opc with
  | 0x0003 => [0x000B, 0x000D, 0x000E]
  | 0x0008 | 0x0009 => [0x0008, 0x0009]
  | 0x000A | 0x000B | 0x000C => fwCommands
  | 0x000D | 0x000E => [0x000D, 0x000E] ++ fwCommands
  | _ => []

/-! ## Cages (R510-R512) -/

/-- The device physical address of a cage. -/
def cageAddr (c : Nat) : Nat := controlBase + cageBase + 0x1000 * c

/-- The foreman acknowledges the next rung cage, in ascending number after the last one served (R512): header and request
are copied. (DESIGN CHOICE: notes/assumptions/79) -/
def State.ackCage (s : State) : State :=
  if !s.foremanUp || s.foreman.acked.isSome then s
  else
    match ((List.range 16).map fun k => (s.foreman.lastCage + 1 + k) % 16).find? fun c => s.reg (Reg.lmpCageStat c) = 1 with
    | none => s
    | some c =>
      let head := s.readLE (cageAddr c) 16
      let req := s.readLE (cageAddr c + 64) (min (getBytes head 8 2) 2048)
      (s.setReg (Reg.lmpCageStat c) 2).modForeman fun f => { f with acked := some ⟨c, head, req⟩, lastCage := c }

/-- What a command answers: STATUS, DETAIL, LONGID and the values of its response. -/
structure Reply where
  status : Nat
  detail : Nat
  longId : Nat
  vals : List Nat

/-- A reply of a status alone. -/
def Reply.only (status : Nat) : Reply := ⟨status, 0, 0, []⟩

/-- The foreman completes the acknowledged cage (R510, R512): response, STATUS, DETAIL, LONGID; DONE; source 16 when EVENT
asks for it. -/
def State.cageDone (s : State) (a : CageCopy) (r : Reply) : State :=
  let opc := getBytes a.head 0 2
  let n := if r.vals.isEmpty then 0 else min (Config.answerLength opc r.vals) 1984
  let ans := if r.vals.isEmpty then 0 else (Config.answer opc r.vals).toNat
  let s := s.writeMem (cageAddr a.cage + 2112) n ans (allBytes n)
  let s := s.writeMem (cageAddr a.cage + 16) 48
    (packFields [(2, r.status), (2, n), (4, r.detail), (4, r.longId), (36, 0)]) (allBytes 48)
  let s := (s.setReg (Reg.lmpCageStat a.cage) 3).modForeman fun f => { f with acked := none }
  s.raiseIf (a.head.testBit 16) 16

/-- A request as its command sees it: TAG, REQLEN, bytes, and whether it came by the sideband. -/
structure Request where
  tag : Nat
  reqlen : Nat
  req : Nat
  side : Bool

/-- The OPCs of Table 19.8. -/
def lyselmOpcs : List Nat := (List.range 14).map (· + 1)

/-- Are the reserved fields of a cage's header 0 and REQLEN in range (Table 19.5). -/
def CageCopy.headerOk (a : CageCopy) : Bool :=
  getBytes a.head 2 1 / 2 = 0 && getBytes a.head 3 1 = 0 && getBytes a.head 8 2 ≤ 2048 && getBytes a.head 10 6 = 0

/-- Serve a request whose OPC is `opc` (R512, R523): from the acknowledged cage, or by the sideband, which runs one command
at a time. The row of GET_INFO answers reserved OPCs too. (DESIGN CHOICE: notes/assumptions/79) -/
def State.serve (s : State) (ask : Ask) (opc : Nat) (f : State → Request → State × Reply) : State :=
  let mine := fun (o : Nat) => o = opc || (opc = 1 && !lyselmOpcs.contains o)
  let run := fun (s : State) (o : Nat) (q : Request) => if o = opc then f s q else (s, Reply.only stBadOpc)
  match ask with
  | .cage =>
    let s := s.ackCage
    match s.foreman.acked with
    | none => s
    | some a =>
      let o := getBytes a.head 0 2
      if !s.foremanUp || !mine o then s
      else
        let r := if !a.headerOk && lyselmOpcs.contains o then (s, Reply.only stBadParam)
          else run s o ⟨getBytes a.head 4 4, getBytes a.head 8 2, a.req, false⟩
        r.1.cageDone a r.2
  | .sideband o n q =>
    let recovery := s.flag Reg.rstStat Fld.rstStatRecovery && s.lamp.standby
    if !mine o || !(s.foremanUp || (recovery && opc = 3)) then s
    else if s.foreman.longs.any fun c => c.via = 1 then s.emit (.response 1 [stBusy, 0])
    else
      let r := run s o ⟨0, n, q, true⟩
      if r.2.status = stAccepted then r.1 else r.1.emit (.response 1 ([r.2.status, r.2.detail] ++ r.2.vals))

/-! ## Simple commands (R516) -/

/-- GET_INFO (R516): ordering code, serial number, versions of the running images, LMP_FW_STAT, RST_STRAP, command-set
version, version of the active pack, enterprise number. -/
def execGetInfo (ask : Ask) (s : State) : Host.Outcome State Fault Refusal :=
  .next (s.serve ask 0x0001 fun s _ =>
    (s, ⟨stOk, 0, 0, [Config.orderingCode, Config.serialNumber.toNat] ++
      ([1, 2, 3, 4].map fun t => getBytes (s.imageHeader s.runBank t) 8 8) ++
      [s.reg Reg.lmpFwStat, s.reg Reg.rstStrap, 0x0204, (s.pack.map (·.version)).getD 0, Config.enterprise]⟩))

/-- GET_SENSORS (R516, 20 R533): `temps` is what the HBM stacks and the headframe junctions report. -/
def execGetSensors (ask : Ask) (temps : List Nat) (s : State) : Host.Outcome State Fault Refusal :=
  .next (s.serve ask 0x0002 fun s _ =>
    (s, ⟨stOk, 0, 0, [s.reg Reg.pwrTemp, s.reg Reg.pwrTj, s.reg Reg.pwrFlow, s.reg Reg.pwrHeat, s.reg Reg.pwrDraw] ++ temps⟩))

/-- Does a running command conflict (R513). -/
def State.conflicts (s : State) (opc : Nat) : Bool := s.foreman.longs.any fun c => (conflictsOf opc).contains c.opc

/-- RESET (R516, R523): SCOPE 0 module domains, 1 lamp room; the reset begins 100 µs after DONE, with cause Mailbox, or
Sideband from the sideband. -/
def execReset (ask : Ask) (s : State) : Host.Outcome State Fault Refusal :=
  .next (s.serve ask 0x0003 fun s q =>
    let scope := getBytes q.req 0 1
    if q.reqlen = 0 ∨ 1 < scope then (s, Reply.only stBadParam)
    else if s.conflicts 0x0003 then (s, Reply.only stConflict)
    else (s.modLamp fun l => { l with due := l.due ++ [⟨if q.side then 6 else 5, scope, s.ps + 10 ^ 8⟩] }, Reply.only stOk))

/-- Would a level keep an active stope without one (R516): another that is in service, or a spare that comes in for it. -/
def State.levelKeeps (s : State) (n : Nat) : Bool :=
  let l := ((List.range 72).map fun k => n / 72 * 72 + k).filter (· ≠ n)
  let serves := s.stopeState n = 1 || s.stopeState n = 3
  (l.any fun m => (s.stopeState m = 1 || s.stopeState m = 3) && (s.stope m).fence = 0) ||
    (serves && l.any fun m => s.stopeState m = 2)

/-- FENCE (R516): fence a stope at the next boundary with FCAUSE 3, or return one fenced with FCAUSE 3 to service after a
canary. -/
def execFence (ask : Ask) (s : State) : Host.Outcome State Fault Refusal :=
  .next (s.serve ask 0x0007 fun s q =>
    let n := getBytes q.req 0 2
    let op := getBytes q.req 2 1
    if q.reqlen < 3 ∨ 144 ≤ n ∨ 1 < op then (s, Reply.only stBadParam)
    else if !s.flag Reg.rstStat Fld.rstStatReady then (s, Reply.only stNotReady)
    else if op = 0 then
      if s.levelKeeps n then (s.requestFence n 3, Reply.only stOk) else (s, Reply.only stRefused)
    else if s.stopeState n = 4 ∧ s.fld (Reg.dptStopeStat n) Fld.dptStopeStatFcause = 3 ∧ s.blockOn (0x100 + n) then
      (s.modStope n fun c => { c with returning := true, passed := false, canaryBusy := false }, Reply.only stOk)
    else (s, Reply.only stRefused))

/-! ## Long commands (R512-R514) -/

/-- Begin a long command: refused with BAD_PARAM, NOT_READY, BUSY or CONFLICT, else ACCEPTED with a LONGID. -/
def State.beginLong (s : State) (opc : Nat) (q : Request) (bad : Bool) (needsReady : Bool) (data : Nat)
    (start : State → State) : State × Reply :=
  let longs := s.foreman.longs
  if bad then (s, Reply.only stBadParam)
  else if needsReady && !s.flag Reg.rstStat Fld.rstStatReady then (s, Reply.only stNotReady)
  else if 4 ≤ longs.length || longs.any (fun c => c.opc = opcActivate) then (s, Reply.only stBusy)
  else if s.conflicts opc || (opc = opcActivate && !s.lamp.due.isEmpty) then (s, Reply.only stConflict)
  else
    let id := s.foreman.nextId
    let c : LongCmd := ⟨id, opc, q.tag, if q.side then 1 else 0, q.req, q.reqlen, data⟩
    let s := s.modForeman fun f => { f with longs := f.longs ++ [c], nextId := (id + 1) % 2 ^ 32 }
    (start s, ⟨stAccepted, 0, id, []⟩)

/-- BUF and BUFLEN of a request (R513). -/
def LongCmd.buf (c : LongCmd) : Nat := getBytes c.req 0 8
/-- BUFLEN of a request. -/
def LongCmd.buflen (c : LongCmd) : Nat := getBytes c.req 8 4

/-- Is BUF missing from the request of a command with output; the sideband ignores BUF (R523). -/
def Request.badBuf (q : Request) : Bool := !q.side && decide (q.reqlen < 12)

/-- Is BUF missing from the request of a command that reads BUF, or BUFLEN above 64 MiB. -/
def Request.badInput (q : Request) : Bool := decide (q.reqlen < 12) || decide (bankSize < getBytes q.req 8 4)

/-- GET_WAIT_GRAPH (R516, 08 R234). -/
def execGetWaitGraph (ask : Ask) (s : State) : Host.Outcome State Fault Refusal :=
  .next (s.serve ask 0x0004 fun s q => s.beginLong 0x0004 q q.badBuf true 0 id)

/-- GET_HEALTH (R516). -/
def execGetHealth (ask : Ask) (s : State) : Host.Outcome State Fault Refusal :=
  .next (s.serve ask 0x0005 fun s q => s.beginLong 0x0005 q q.badBuf false 0 id)

/-- GET_MEAS_LOG (R516, 18 R495). -/
def execGetMeasLog (ask : Ask) (s : State) : Host.Outcome State Fault Refusal :=
  .next (s.serve ask 0x0006 fun s q => s.beginLong 0x0006 q q.badBuf false 0 id)

/-- LOAD_PACK (R516, 15 R425). -/
def execLoadPack (ask : Ask) (s : State) : Host.Outcome State Fault Refusal :=
  .next (s.serve ask 0x0008 fun s q => s.beginLong 0x0008 q q.badInput false 0 id)

/-- SET_PACK_KEY (R516). -/
def execSetPackKey (ask : Ask) (s : State) : Host.Outcome State Fault Refusal :=
  .next (s.serve ask 0x0009 fun s q => s.beginLong 0x0009 q (q.reqlen < 96) false 0 id)

/-- A bank begins to be overwritten (R517): until that succeeds it is not a valid boot bank. -/
def State.openBank (s : State) (bank : Nat) : State :=
  s.modLamp fun l => { l with badBanks := if l.badBanks.contains bank then l.badBanks else l.badBanks ++ [bank] }

/-- A bank has been written and verified. -/
def State.closeBank (s : State) (bank : Nat) : State :=
  s.modLamp fun l => { l with badBanks := l.badBanks.filter (· ≠ bank) }

/-- A staging begins (R517, Table 19.10). -/
def State.startStaging (s : State) (bank : Nat) : State :=
  ((s.setFld Reg.lmpFwStat Fld.lmpFwStatStaging 1).setFld Reg.lmpFwStat Fld.lmpFwStatStaged 0).openBank bank

/-- FW_STAGE (R517): refused on the sideband with BAD_OPC (R523). -/
def execFwStage (ask : Ask) (s : State) : Host.Outcome State Fault Refusal :=
  .next (s.serve ask 0x000A fun s q =>
    if q.side then (s, Reply.only stBadOpc)
    else s.beginLong 0x000A q q.badInput false 0 fun s => s.startStaging (1 - s.runBank))

/-- An activation begins with nothing switched (R518). -/
def State.startActivation (s : State) : State :=
  s.modForeman fun f => { f with handed := false, engines := [], tables := false }

/-- FW_ACTIVATE (R518): requires STAGED = 1. -/
def execFwActivate (ask : Ask) (s : State) : Host.Outcome State Fault Refusal :=
  .next (s.serve ask 0x000B fun s q =>
    s.beginLong 0x000B q (!s.flag Reg.lmpFwStat Fld.lmpFwStatStaged) false 0 State.startActivation)

/-- FW_COMMIT (R519). -/
def execFwCommit (ask : Ask) (s : State) : Host.Outcome State Fault Refusal :=
  .next (s.serve ask 0x000C fun s q => s.beginLong 0x000C q false false 0 fun s => s.openBank (1 - s.runBank))

/-- REVOKE_SLOT (R516, 18 R494). -/
def execRevokeSlot (ask : Ask) (s : State) : Host.Outcome State Fault Refusal :=
  .next (s.serve ask 0x000D fun s q =>
    s.beginLong 0x000D q (decide (q.reqlen < 1) || decide (3 < getBytes q.req 0 1)) false 0 id)

/-- RAISE_SVN (R516, 18 R494). -/
def execRaiseSvn (ask : Ask) (s : State) : Host.Outcome State Fault Refusal :=
  .next (s.serve ask 0x000E fun s q =>
    s.beginLong 0x000E q (decide (q.reqlen < 1) || decide (63 < getBytes q.req 0 1)) false 0 id)

/-! ## Their outcomes -/

/-- Base of host memory in the device physical address map (Table 9.1). -/
def hostBase : Nat := 0x100000000000

/-- The lamp room writes to host memory through the host port; false when it cannot. -/
def State.hostWrite (s : State) (a n v : Nat) : State × Bool :=
  if s.hostUp && decide (a + n ≤ hostBase) then (s.writeMem (hostBase + a) n v (allBytes n), true) else (s, n = 0)

/-- What a long command has done: STATUS, DETAIL, its records and their size, and the bytes written to BUF. -/
structure LongEnd where
  status : Nat
  detail : Nat
  records : List Nat
  size : Nat

/-- An outcome without output. -/
def LongEnd.only (status detail : Nat) : LongEnd := ⟨status, detail, [], 1⟩

/-- A GET_HEALTH record of a kind (Table 19.8). -/
def healthRecord (l : List Nat) : Nat := (Config.record 0x0005 l).toNat

/-- The records of GET_HEALTH (R516): 1 retired pages, 2 row-cache use, 3 spare rows, 4 lane spares, 5 fenced stopes, 6
spares left per level, 7 CXL ports down. -/
def State.healthRecords (s : State) : List Nat :=
  (s.retired.map fun p => healthRecord [1, p]) ++
  ((List.range 8).map fun k => healthRecord [2, k, s.fld (Reg.hbmStat k) Fld.hbmStatCacheRows]) ++
  (s.spareRows.map fun e => healthRecord [3, e.1, e.2.length]) ++
  (s.spareLanes.map fun e => healthRecord [4, e.1, e.2]) ++
  (((List.range 144).filter fun n => s.stopeState n = 4).map fun n =>
    healthRecord [5, n, s.fld (Reg.dptStopeStat n) Fld.dptStopeStatFcause]) ++
  ([0, 1].map fun l => healthRecord [6, l, ((List.range 72).filter fun k => s.stopeState (72 * l + k) = 2).length]) ++
  (([0, 1].filter fun p => s.fld (Reg.cxlPortStat p) Fld.cxlPortStatState = 3).map fun p => healthRecord [7, p])

/-- An entry of a test pack (15 Table 15.5). (DESIGN CHOICE: notes/assumptions/80) -/
def packEntry (w e : Nat) : PackEntry :=
  let g := fun (lo n : Nat) => getBytes w (64 + 64 * e + lo) n
  { koff := g 0 8, klen := g 8 4, entry := g 12 4, seed := g 16 8, step := g 24 8, expect := g 32 8, runlimit := g 40 4,
    argoff := g 44 4, foff := g 48 4, flen := g 52 4 }

/-- Verify and place a test pack of `n` bytes (15 R425, R426): the signature is the pack's last 64 bytes.
(DESIGN CHOICE: notes/assumptions/80) -/
def State.loadPack (s : State) (n w : Nat) : State × LongEnd :=
  let count := getBytes w 4 2
  let l := (List.range count).map (packEntry w)
  let signed := 64 + 64 * count
  let window := s.fld Reg.dptCanaryFace Fld.dptCanaryFaceLenKib * 1024
  let version := getBytes w 0 4
  let active := max ((s.pack.map (·.version)).getD 0) ((s.packNext.map (·.version)).getD 0)
  let first := s.pack.isNone && s.packNext.isNone
  if !s.up 3 then (s, LongEnd.only stNotReady 0)
  else if count = 0 ∨ 4096 < count ∨ n < signed + 64 ∨ getBytes w 6 58 ≠ 0
      ∨ (List.range count).any (fun e => getBytes w (64 + 64 * e + 56) 8 ≠ 0)
      ∨ l.any (fun e => decide (e.flen < e.klen) || decide (window < e.foff + e.flen)) then
    (s, LongEnd.only stBadParam 0)
  else if s.lamp.packKey = 0 ∨ (!first ∧ version ≤ active)
      ∨ verifyDigest s.lamp.packKey (bytesOf signed w) (getBytes w (n - 64) 64) = false then
    (s, LongEnd.only stAuth 0)
  else
    let half := (s.pack.map fun p => 1 - p.half).getD 0
    let pa := s.fld Reg.dptPackPa0 Fld.dptPackPaPaLo * 2 ^ 16 + s.fld Reg.dptPackPa1 Fld.dptPackPaPaHi * 2 ^ 32 + half * 0x4000000
    if !s.reachable none pa n then (s.refuse, LongEnd.only stBadParam 0) else
    let s := (s.writeMem pa n w (allBytes n)).touch pa
    ({ s with packNext := some ⟨version, half, l, (Config.sha512 (bytesOf signed w)).toNat⟩ }, LongEnd.only stOk 0)

/-- Store a new pack key (R516): signed by the current one, or with a signature of 0 when none is installed. -/
def State.setPackKey (s : State) (req : Nat) : State × LongEnd :=
  let key := getBytes req 0 32
  let sig := getBytes req 32 64
  let ok := if s.lamp.packKey = 0 then decide (sig = 0)
    else Config.verifyEd25519 (BitVec.ofNat 256 s.lamp.packKey) (bytesOf 32 key) (BitVec.ofNat 512 sig)
  if ok then (s.modLamp fun l => { l with packKey := key }, LongEnd.only stOk 0) else (s, LongEnd.only stAuth 0)

/-- Write a bank set and verify every image of it (R517). -/
def State.stageBank (s : State) (bank n w : Nat) : State × LongEnd :=
  let s := s.setFld Reg.lmpFwStat Fld.lmpFwStatStaging 0
  let s := s.modLamp fun l => { l with flash := flashWrite l.flash (bank * bankSize) n w }
  match (s.closeBank bank).firstInvalid bank with
  | none => ((s.closeBank bank).setFld Reg.lmpFwStat Fld.lmpFwStatStaged (if s.lamp.booted then 1 else 0), LongEnd.only stOk 0)
  | some t => (s, LongEnd.only stAuth t)

/-- The activation has switched every type (R518, 18 R495); RST_BOOT.SLOT is the key slot of the running images (18 Table 18.10). -/
def State.endActivation (s : State) : State × LongEnd :=
  let bank := 1 - s.runBank
  let s := ((s.setFld Reg.lmpFwStat Fld.lmpFwStatRunning bank).setFld Reg.lmpFwStat Fld.lmpFwStatStaged 0).setFld
    Reg.lmpFwStat Fld.lmpFwStatUncommitted 1
  let s := s.setFld Reg.rstBoot Fld.rstBootSlot ((s.imageSlot s.lamp.revoked s.lamp.svn bank 1).getD 0)
  let s := s.measure 2 [s.reg Reg.rstStrap, s.reg Reg.rstBoot]
  ((s.measureImage bank 3).lampCause Fld.lmpLampCauseSwap, LongEnd.only stOk 0)

/-- Copy the running bank over the other and verify the copy (R519). -/
def State.commitBank (s : State) : State × LongEnd :=
  let run := s.runBank
  let w := s.flashLE (run * bankSize) bankSize
  let s := s.modLamp fun l => { l with flash := flashWrite l.flash ((1 - run) * bankSize) bankSize w }
  match (s.closeBank (1 - run)).firstInvalid (1 - run) with
  | none =>
    (((s.closeBank (1 - run)).setFld Reg.lmpFwStat Fld.lmpFwStatUncommitted 0).setFld Reg.lmpFwStat Fld.lmpFwStatStaged 0,
      LongEnd.only stOk 0)
  | some t => (s, LongEnd.only stFailed t)

/-- Revoke a key slot (18 R494). -/
def State.revokeSlot (s : State) (k : Nat) : State × LongEnd :=
  let revoked := s.lamp.revoked ||| 2 ^ k
  let left := (List.range 4).any fun j => Config.fuseProgrammed.getLsbD j && !revoked.testBit j
  let other := 1 - s.runBank
  let spare := !s.lamp.badBanks.contains other && [1, 2, 3, 4].any fun t =>
    (s.imageSlot s.lamp.revoked s.lamp.svn other t).any fun j => j ≠ k
  if !left || (decide (s.fld Reg.rstBoot Fld.rstBootSlot = k) && !spare) then (s, LongEnd.only stRefused 0)
  else ((s.modLamp fun l => { l with revoked }).showFuses.measureFuses, LongEnd.only stOk 0)

/-- Raise the fused version (18 R494): no higher than the SVN of every running image. -/
def State.raiseSvn (s : State) (v : Nat) : State × LongEnd :=
  if [1, 2, 3, 4].any (fun t => getBytes (s.imageHeader s.runBank t) 16 1 < v) ∨ v < s.lamp.svn then
    (s, LongEnd.only stRefused 0)
  else ((s.modLamp fun l => { l with svn := v }).showFuses.measureFuses, LongEnd.only stOk 0)

/-- Run a long command on its input: BUF in host memory, read through the host port, or the data of a PLDM update. A BUF that cannot
be read ends the command with FAILED. (DESIGN CHOICE: notes/assumptions/80) -/
def State.onInput (s : State) (c : LongCmd) (f : State → Nat → Nat → State × LongEnd) : State × LongEnd :=
  if c.via = 2 then f s c.reqlen c.data
  else if !s.hostUp || decide (hostBase < c.buf + c.buflen) then (s, LongEnd.only stFailed 0)
  else
    let r := s.readMem (hostBase + c.buf) c.buflen
    if r.2.2 then (r.1, LongEnd.only stAuth 0) else f r.1 c.buflen r.2.1

/-- The work of a long command; none while it cannot end yet. -/
def State.doLong (s : State) (c : LongCmd) : Option (State × LongEnd) :=
  match c.opc with
  | 0x0004 => some (s, ⟨stOk, s.waitGraph.length, s.waitGraph, 32⟩)
  | 0x0005 =>
    let l := s.healthRecords
    some (if s.retired.isEmpty then s else s.lampCause Fld.lmpLampCauseRetire, ⟨stOk, l.length, l, 32⟩)
  | 0x0006 =>
    let l := s.foreman.log.map fun e => (Config.record 0x0006 [e.index, e.digest, e.frame]).toNat
    some (s, ⟨stOk, l.length, l, max 1 Config.measureRecordBytes⟩)
  | 0x0008 => some (s.onInput c fun s n w => s.loadPack n w)
  | 0x0009 => some (s.setPackKey c.req)
  | 0x000A =>
    let r := s.onInput c fun t n w => t.stageBank (if c.via = 2 then c.req else 1 - s.runBank) n w
    some (r.1.setFld Reg.lmpFwStat Fld.lmpFwStatStaging 0, r.2)
  | 0x000B => if s.foreman.handed && s.foreman.tables && s.foreman.engines.length = 5 then some s.endActivation else none
  | 0x000C => some s.commitBank
  | 0x000D => some (s.revokeSlot (getBytes c.req 0 1))
  | 0x000E => some (s.raiseSvn (getBytes c.req 0 1))
  | _ => some (s, LongEnd.only stBadOpc 0)

/-- Write a completion record (R514, Table 19.6): head, tail, size and drop rules of 04 R117, in host memory. -/
def State.completionRecord (s : State) (c : LongCmd) (status detail outlen : Nat) : State :=
  let size := s.reg Reg.lmpCplqSize
  let head := s.reg Reg.lmpCplqHead
  let v := packFields [(4, c.tag), (2, c.opc), (2, status), (4, detail), (4, c.id), (4, outlen), (12, 0)]
  if size ≤ 1 ∨ (head + 1) % size = s.reg Reg.lmpCplqTail % size then s.bump Reg.lmpCplqDropCnt
  else
    let r := s.hostWrite (s.reg64 Reg.lmpCplqBase0 Reg.lmpCplqBase1 + 32 * head) 32 v
    if r.2 then (r.1.setReg Reg.lmpCplqHead ((head + 1) % size)).lampCause Fld.lmpLampCauseCpl
    else s.bump Reg.lmpCplqDropCnt

/-- A long command ends and leaves the list. -/
def State.dropLong (s : State) (id : Nat) : State :=
  s.modForeman fun f => { f with longs := f.longs.filter fun c => c.id ≠ id }

/-- The outcome of a long command goes out (R513, R514, R523): whole records to BUF and then a completion record; by the
sideband the first whole records in at most 1,024 bytes; for PLDM its status. -/
def State.endLong (s : State) (c : LongCmd) (e : LongEnd) : State :=
  let s := s.dropLong c.id
  match c.via with
  | 0 =>
    let l := e.records.take (c.buflen / e.size)
    let r := s.hostWrite c.buf (l.length * e.size) (packElems (8 * e.size) l)
    r.1.completionRecord c e.status e.detail (if r.2 then l.length * e.size else 0)
  | 1 => s.emit (.response 1 ([e.status, e.detail] ++ e.records.take (1024 / e.size)))
  | _ => s.emit (.response 1 [e.status, e.detail])

/-- Does the lamp room serve long commands: a foreman is in service, or recovery takes an update (18 R493). -/
def State.lampServes (s : State) : Bool :=
  s.foremanUp || (s.lamp.standby && s.flag Reg.rstStat Fld.rstStatRecovery)

/-- LONG_COMMAND_COMPLETE (R514). -/
def execLongCommandComplete (longId : Nat) (s : State) : Host.Outcome State Fault Refusal :=
  match s.foreman.longs.find? fun c => c.id = longId with
  | none => .next s
  | some c =>
    if !s.lampServes then .next s
    else match s.doLong c with
      | none => .next s
      | some (t, e) => .next (t.endLong c e)

/-! ## Takeover (R509) -/

/-- A long command ends with TAKEOVER; what came by the sideband is dropped. Fuse programming is atomic: whether it was done
is open. -/
def State.takeLong (s : State) (c : LongCmd) : State :=
  let s := if c.opc = 0x000D ∨ c.opc = 0x000E then
      let f := s.freeVal
      if f.1 % 2 = 1 then
        (if c.opc = 0x000D then f.2.revokeSlot (getBytes c.req 0 1) else f.2.raiseSvn (getBytes c.req 0 1)).1
      else f.2
    else s
  if c.via = 0 then (s.dropLong c.id).completionRecord c stTakeover 0 0 else s.dropLong c.id

/-- FOREMAN_TAKEOVER (R482, R509): the standby foreman verifies the running TYPE 1 image and enters service. -/
def execForemanTakeover (s : State) : Host.Outcome State Fault Refusal :=
  if !s.lamp.takeover ∨ (s.imageSlot s.lamp.revoked s.lamp.svn s.runBank 1).isNone then .next s
  else
    let s := s.modLamp fun l => { l with takeover := false, watchAt := s.ps }
    let s := s.foreman.longs.foldl (fun s c => s.takeLong c) s
    let s := s.setFld Reg.lmpFwStat Fld.lmpFwStatStaging 0
    let s := match s.foreman.acked with
      | some a => s.cageDone a (Reply.only stTakeover)
      | none => s
    .next ((s.setFld Reg.rstStat Fld.rstStatStandby 1).lampCause Fld.lmpLampCauseTakeover)

/-! ## Sideband (R521-R523) -/

/-- I3C_ADDRESS_ASSIGN (R521): ENTDAA gives a dynamic address; SETDASA gives one from the static address 0x60 + slot. -/
def execI3cAddressAssign (setdasa : Bool) (static addr : Nat) (s : State) : Host.Outcome State Fault Refusal :=
  if !s.lamp.standby then .next s
  else
    let mine := !setdasa || (decide (static = 0x60 + s.fld Reg.rstStrap Fld.rstStrapCode / 2) && s.foreman.i3c.isNone)
    .next (s.modForeman fun f => { f with ccc := true, i3c := if mine then some (addr % 128) else f.i3c })

/-- Answer an MCTP control request on a path: 0 PCIe, 1 I3C, 2 SMBus (R521, R522).
(DESIGN CHOICE: notes/assumptions/81) -/
def State.mctp (s : State) (via : Nat) (words : List Nat) : State := s.spdm via true words

/-- SET_ENDPOINT_ID (R522): the sideband and the PCIe endpoint hold one each. -/
def execSetEndpointId (via eid : Nat) (s : State) : Host.Outcome State Fault Refusal :=
  if !s.spdmUp via then .next s
  else
    let s := s.modForeman fun f =>
      { f with eidPcie := if via = 0 then eid % 256 else f.eidPcie, eidSide := if via = 0 then f.eidSide else eid % 256 }
    .next (s.mctp via [eid % 256])

/-- GET_ENDPOINT_ID (R522). -/
def execGetEndpointId (via : Nat) (s : State) : Host.Outcome State Fault Refusal :=
  .next (s.mctp via [if via = 0 then s.foreman.eidPcie else s.foreman.eidSide])

/-- The message types of a path (Table 19.9): PCIe carries MCTP control and SPDM only. -/
def messageTypes (via : Nat) : List Nat := if via = 0 then [0x00, 0x05] else [0x00, 0x01, 0x05, 0x7F]

/-- GET_MCTP_VERSION_SUPPORT (R522), for a supported message type. -/
def execGetMctpVersionSupport (via type : Nat) (s : State) : Host.Outcome State Fault Refusal :=
  .next (s.spdm via ((messageTypes via).contains type) [Config.mctpVersion type])

/-- GET_MESSAGE_TYPE_SUPPORT (R522). -/
def execGetMessageTypeSupport (via : Nat) (s : State) : Host.Outcome State Fault Refusal :=
  .next (s.mctp via (messageTypes via))

/-- GET_VENDOR_MESSAGE_SUPPORT (R522): the Ternearis enterprise number, on the sideband. -/
def execGetVendorMessageSupport (via : Nat) (s : State) : Host.Outcome State Fault Refusal :=
  .next (s.spdm via (via ≠ 0) [Config.enterprise])

/-- PLDM_BASE_REQUEST (R522): types 0, 2 and 5. -/
def execPldmBaseRequest (s : State) : Host.Outcome State Fault Refusal := .next (s.mctp 1 [0, 2, 5])

/-- PLDM_MONITORING_REQUEST (R522): the sensors of Table 19.9 in its order: inlet, outlet, junctions of levels 0 and 1, flow,
measured draw, delivered heat, thermal trip. -/
def execPldmMonitoringRequest (sensor : Nat) (s : State) : Host.Outcome State Fault Refusal :=
  let v := match sensor with
    | 0 => bits (s.reg Reg.pwrTemp) 15 0
    | 1 => bits (s.reg Reg.pwrTemp) 31 16
    | 2 => bits (s.reg Reg.pwrTj) 15 0
    | 3 => bits (s.reg Reg.pwrTj) 31 16
    | 4 => s.fld Reg.pwrFlow Fld.pwrFlowMlMin
    | 5 => bits (s.reg Reg.pwrDraw) 31 16
    | 6 => s.fld Reg.pwrHeat Fld.pwrHeatWatts
    | _ => s.lamp.tripPin.toNat
  .next (s.spdm 1 (sensor < 8) [v])

/-- Begin a PLDM operation as a long command of its kind (R513, R522). -/
def State.beginPldm (s : State) (opc bank len data : Nat) (bad : Bool) (start : State → State) : State :=
  let q : Request := ⟨0, len, bank, true⟩
  let r := s.beginLong opc q bad false data start
  if r.2.status = stAccepted then
    r.1.modForeman fun f => { f with longs := f.longs.map fun c => if c.id = r.2.longId then { c with via := 2 } else c }
  else r.1.emit (.response 1 [r.2.status, 0])

/-- PLDM_FIRMWARE_UPDATE (R517, R522, R523): a bank set into the bank that is not running; in recovery into either bank. -/
def execPldmFirmwareUpdate (bank len data : Nat) (s : State) : Host.Outcome State Fault Refusal :=
  if !s.lampServes then .next s
  else
    let b := if s.lamp.booted then 1 - s.runBank else bank % 2
    .next (s.beginPldm 0x000A b len data (decide (bankSize < len)) fun s => s.startStaging b)

/-- ACTIVATE_FIRMWARE (R518, R522). -/
def execActivateFirmware (s : State) : Host.Outcome State Fault Refusal :=
  if !s.foremanUp then .next s
  else .next (s.beginPldm 0x000B 0 0 0 (!s.flag Reg.lmpFwStat Fld.lmpFwStatStaged) State.startActivation)

end Sys2Proof.Machine
end

