-- ==== Sys2Proof/Machine/Tick.lean ====
section
/-!
DEFINITION. What a core cycle does of itself (00 R2): with no command waiting, what is judged at the end of a cycle is
judged, the cycles of waiting count, time advances by one cycle, and the effects that need no command of the table are made: the
engines' posted writes to the control space, the pending operations of blocks, the departure of stopes that are cleared, the
acknowledgment of a rung cage and the packets of TEACH operations.
-/
namespace Sys2Proof.Machine

/-- The engines' posted writes to the control space arrive, in the order posted (10 R280).
(DEDUCED: notes/assumptions/8) -/
def State.takePosted (s : State) : State :=
  let posted := s.port.posted
  posted.foldl (fun (s : State) (w : Nat × Nat × Nat) => s.ctlWrite .engine w.1 w.2.1 w.2.2 (allBytes w.2.1))
    { s with port := { s.port with posted := [] } }

/-- The counter of a kind of waiting. -/
def WaitFor.counter : WaitFor → Nat
  | .completion => Reg.bnlCplFullCnt
  | .ticket => Reg.dptTicketWaitCnt
  | .copies _ => Reg.strCowWaitCnt
  | .bucketPlace => Reg.hstOpenWaitCnt
  | .rifflePlace => Reg.rflOpenWaitCnt

/-- Is there still something that waits under a key. -/
def State.waiterThere (s : State) : WaitKey → Bool
  | .packet p => s.arrived.any fun q => q.pkt = p
  | .entry d n => s.dispatches.any fun x => x.id = d && x.next = n
  | .again t => s.requeued.any fun i => i.ticket = t
  | .stream k id => (s.stream? k id).isSome
  | .bucket n _ => (s.bucket? n).any fun b => !b.failed
  | .riffle id _ => (s.rfl? id).any fun o => !o.failed
  | .smelt tag => s.smelts.any fun x => x.id = tag

/-- Is what is waited for still not there. -/
def State.lacks (s : State) (w : WaitKey) : WaitFor → Bool
  | .completion => 4096 ≤ s.cpl.length && (match w with
    | .packet p => (s.cpl? p).isNone
    | _ => false)
  | .ticket => !s.ticketRoom
  | .copies l => l.any fun x => s.cowWaits x.1 x.2
  | .bucketPlace => 64 ≤ s.buckets.length
  | .rifflePlace => 16 ≤ s.riffles.length

/-- Each cycle of waiting counts (11 R321, 12 R336, 13 R364, 15 R410, R434); a bucket or a riffle operation that finds room for its
ticket goes on. (DESIGN CHOICE: notes/assumptions/52) -/
def State.countWaits (s : State) : State :=
  let l := s.waits.filter fun x => s.waiterThere x.1 && s.lacks x.1 x.2
  let free := s.waits.filter fun x => s.waiterThere x.1 && !s.lacks x.1 x.2
  let s := l.foldl (fun s x => s.bump x.2.counter) { s with waits := l }
  free.foldl (fun s x => match x.1 with
    | .bucket n 0 => s.pumpHoist n
    | .riffle id 0 => s.pumpRfl id
    | _ => s) s

/-- Time advances by one cycle of the arithmetic clock (00 R13): its period is 40,000 / (32 + code) ps, kept without rounding in
a fraction of a ps. The cycle's signals, issues, writes and sets are done.
(DESIGN CHOICE: notes/assumptions/2; DESIGN CHOICE: notes/assumptions/4; DESIGN CHOICE: notes/assumptions/87) -/
def State.advance (s : State) : State :=
  let n := s.sub + s.cycleSub
  { s with cycle := s.cycle + 1, ps := s.ps + n / subUnit, sub := n % subUnit, sums := [], turns := [], wrote := [],
           raised := [] }

/-- A cycle ends, in which no command is waiting: what is judged at its end is judged, time advances, and the next begins.
(DESIGN CHOICE: notes/assumptions/2) -/
def State.tick (s : State) : State := s.judgeWaits.judgeIdle.countLodeWaits.countThrottle.countWaits.advance.takePosted.takePends.leaveStopes.ackCage.pumpTeach

end Sys2Proof.Machine
end

