-- ==== Sys2Proof/Machine/Frame.lean ====
section
/-!
DEFINITION. The frame boundary (01 R27, R28, Table 1.6).
-/
namespace Sys2Proof.Machine

/-- FRAME_BOUNDARY (01 R27, R28, Table 1.6): the cycle before ends, and the boundary is the first event of its own, so that what is
asked for in the boundary cycle waits for the next one. `b` is what the sensors and the pins give. Telemetry is sampled; steps seal; fences,
gating, returns and idle requests take effect, with the epoch, the check level, the pack, firmware and links; the routing
banks swap; the frequency word applies; the background window opens. (DEDUCED: notes/assumptions/70; DESIGN CHOICE: notes/assumptions/90) -/
def execFrameBoundary (b : Boundary) (s : State) : Host.Outcome State Fault Refusal :=
  if !s.up 1 || !s.flag Reg.whsCtrl Fld.whsCtrlEn then .next s
  else
    let s := s.tick
    let ended := s.frame
    let frame := (ended + 1) % 2 ^ 64
    let s := { s.setReg64 Reg.whsFrame0 Reg.whsFrame1 frame with bcycle := s.cycle }
    -- 1: telemetry of the frame that has ended
    let s := (s.frameTiming b.edge).sampleHeat b
    let head := s.headroomW
    let gated := s.fld Reg.pwrStat Fld.pwrStatGated
    let s := head.1.samplePower
    -- 2: seals
    let s := s.sealSteps (s.steps.length + 1)
    -- 3: fences and what else takes effect with them
    let s := s.chooseUngates.applyFences.askStopes
    let s := (s.changeEpoch.changeLevel.changePack.switchFirmware.spareSwitch).retrainCxl b.cxlUp
    -- 4: routing banks
    let s := s.routeSwap
    -- 5: the fleet frequency word
    let s := s.applyWords frame
    -- what follows from the ended frame and the new one
    let s := (s.banksman frame).frameReport ended gated head.2 s.power.deferW
    let s := s.sendTimes.rampTarget.countPower.ageCanaries.olderAll
    -- 6: the background window
    .next s.openWindow

end Sys2Proof.Machine
end

