-- ==== Sys2Proof/Machine/Dispatch.lean ====
section
/-!
DEFINITION. The meaning of each command: one arm per constructor of Instr, in the order of spec/opcode_table.json.
-/
namespace Sys2Proof.Machine

def exec (i : Instr) (s : State) : Host.Outcome State Fault Refusal :=
  match i with
  | .registerWrite who off size val en => Sys2Proof.Machine.execRegisterWrite who off size val en s
  | .unassignedOffsetRead who off size => Sys2Proof.Machine.execUnassignedOffsetRead who off size s
  | .frameBoundary b => Sys2Proof.Machine.execFrameBoundary b s
  | .whistleOutEdge => Sys2Proof.Machine.execWhistleOutEdge s
  | .canaryForce stope => Sys2Proof.Machine.execCanaryForce stope s
  | .canaryLate stope => Sys2Proof.Machine.execCanaryLate stope s
  | .mtZc c slot => Sys2Proof.Machine.execMtZc c slot s
  | .mtZl c slot => Sys2Proof.Machine.execMtZl c slot s
  | .mtZr c slot => Sys2Proof.Machine.execMtZr c slot s
  | .mtIc c slot => Sys2Proof.Machine.execMtIc c slot s
  | .mtIl c slot => Sys2Proof.Machine.execMtIl c slot s
  | .mtIr c slot => Sys2Proof.Machine.execMtIr c slot s
  | .mtHc c slot => Sys2Proof.Machine.execMtHc c slot s
  | .mtHl c slot => Sys2Proof.Machine.execMtHl c slot s
  | .mtHr c slot => Sys2Proof.Machine.execMtHr c slot s
  | .mfree c slot => Sys2Proof.Machine.execMfree c slot s
  | .mwait c slot => Sys2Proof.Machine.execMwait c slot s
  | .drillPassStart stope => Sys2Proof.Machine.execDrillPassStart stope s
  | .drillArrayCycle stope place conflict => Sys2Proof.Machine.execDrillArrayCycle stope place conflict s
  | .drillPassEnd stope place => Sys2Proof.Machine.execDrillPassEnd stope place s
  | .tileWidenRerun stope ctx => Sys2Proof.Machine.execTileWidenRerun stope ctx s
  | .tileCheckComplete stope ctx residueBad => Sys2Proof.Machine.execTileCheckComplete stope ctx residueBad s
  | .tileCommit stope ctx => Sys2Proof.Machine.execTileCommit stope ctx s
  | .tileContextSave stope ctx => Sys2Proof.Machine.execTileContextSave stope ctx s
  | .vadd c slot => Sys2Proof.Machine.execVadd c slot s
  | .vsub c slot => Sys2Proof.Machine.execVsub c slot s
  | .vmul c slot => Sys2Proof.Machine.execVmul c slot s
  | .vfma c slot => Sys2Proof.Machine.execVfma c slot s
  | .vmin c slot => Sys2Proof.Machine.execVmin c slot s
  | .vmax c slot => Sys2Proof.Machine.execVmax c slot s
  | .vabs c slot => Sys2Proof.Machine.execVabs c slot s
  | .vneg c slot => Sys2Proof.Machine.execVneg c slot s
  | .vcmp c slot => Sys2Proof.Machine.execVcmp c slot s
  | .vsel c slot => Sys2Proof.Machine.execVsel c slot s
  | .vcvt c slot => Sys2Proof.Machine.execVcvt c slot s
  | .vtr c slot => Sys2Proof.Machine.execVtr c slot s
  | .viadd c slot => Sys2Proof.Machine.execViadd c slot s
  | .visub c slot => Sys2Proof.Machine.execVisub c slot s
  | .vimul c slot => Sys2Proof.Machine.execVimul c slot s
  | .vand c slot => Sys2Proof.Machine.execVand c slot s
  | .vor c slot => Sys2Proof.Machine.execVor c slot s
  | .vxor c slot => Sys2Proof.Machine.execVxor c slot s
  | .vshl c slot => Sys2Proof.Machine.execVshl c slot s
  | .vshr c slot => Sys2Proof.Machine.execVshr c slot s
  | .vsar c slot => Sys2Proof.Machine.execVsar c slot s
  | .vicmp c slot => Sys2Proof.Machine.execVicmp c slot s
  | .pand c slot => Sys2Proof.Machine.execPand c slot s
  | .por c slot => Sys2Proof.Machine.execPor c slot s
  | .pxor c slot => Sys2Proof.Machine.execPxor c slot s
  | .pnot c slot => Sys2Proof.Machine.execPnot c slot s
  | .vbcst c slot => Sys2Proof.Machine.execVbcst c slot s
  | .viota c slot => Sys2Proof.Machine.execViota c slot s
  | .vdrop c slot => Sys2Proof.Machine.execVdrop c slot s
  | .vrand c slot => Sys2Proof.Machine.execVrand c slot s
  | .vred c red => Sys2Proof.Machine.execVred c red s
  | .duplicateIssue stope crew => Sys2Proof.Machine.execDuplicateIssue stope crew s
  | .duplicateComplete c mismatch => Sys2Proof.Machine.execDuplicateComplete c mismatch s
  | .onsetterDispatch level => Sys2Proof.Machine.execOnsetterDispatch level s
  | .bundleFetch c => Sys2Proof.Machine.execBundleFetch c s
  | .add c slot => Sys2Proof.Machine.execAdd c slot s
  | .sub c slot => Sys2Proof.Machine.execSub c slot s
  | .mul c slot => Sys2Proof.Machine.execMul c slot s
  | .mulhu c slot => Sys2Proof.Machine.execMulhu c slot s
  | .and c slot => Sys2Proof.Machine.execAnd c slot s
  | .or c slot => Sys2Proof.Machine.execOr c slot s
  | .xor c slot => Sys2Proof.Machine.execXor c slot s
  | .shl c slot => Sys2Proof.Machine.execShl c slot s
  | .shr c slot => Sys2Proof.Machine.execShr c slot s
  | .sar c slot => Sys2Proof.Machine.execSar c slot s
  | .min c slot => Sys2Proof.Machine.execMin c slot s
  | .max c slot => Sys2Proof.Machine.execMax c slot s
  | .minu c slot => Sys2Proof.Machine.execMinu c slot s
  | .maxu c slot => Sys2Proof.Machine.execMaxu c slot s
  | .slt c slot => Sys2Proof.Machine.execSlt c slot s
  | .sltu c slot => Sys2Proof.Machine.execSltu c slot s
  | .seq c slot => Sys2Proof.Machine.execSeq c slot s
  | .movi c slot => Sys2Proof.Machine.execMovi c slot s
  | .addi c slot => Sys2Proof.Machine.execAddi c slot s
  | .andi c slot => Sys2Proof.Machine.execAndi c slot s
  | .ori c slot => Sys2Proof.Machine.execOri c slot s
  | .xori c slot => Sys2Proof.Machine.execXori c slot s
  | .shli c slot => Sys2Proof.Machine.execShli c slot s
  | .shri c slot => Sys2Proof.Machine.execShri c slot s
  | .sari c slot => Sys2Proof.Machine.execSari c slot s
  | .insi c slot => Sys2Proof.Machine.execInsi c slot s
  | .beq c slot => Sys2Proof.Machine.execBeq c slot s
  | .bne c slot => Sys2Proof.Machine.execBne c slot s
  | .blt c slot => Sys2Proof.Machine.execBlt c slot s
  | .bge c slot => Sys2Proof.Machine.execBge c slot s
  | .bltu c slot => Sys2Proof.Machine.execBltu c slot s
  | .bgeu c slot => Sys2Proof.Machine.execBgeu c slot s
  | .jmp c slot => Sys2Proof.Machine.execJmp c slot s
  | .loop c slot => Sys2Proof.Machine.execLoop c slot s
  | .lds c slot => Sys2Proof.Machine.execLds c slot s
  | .ldv c slot => Sys2Proof.Machine.execLdv c slot s
  | .ldvw c slot => Sys2Proof.Machine.execLdvw c slot s
  | .ldp c slot => Sys2Proof.Machine.execLdp c slot s
  | .ldxch c slot => Sys2Proof.Machine.execLdxch c slot s
  | .ldlc c slot => Sys2Proof.Machine.execLdlc c slot s
  | .sts c slot => Sys2Proof.Machine.execSts c slot s
  | .stv c slot => Sys2Proof.Machine.execStv c slot s
  | .stp c slot => Sys2Proof.Machine.execStp c slot s
  | .stadd c slot => Sys2Proof.Machine.execStadd c slot s
  | .stladd c slot => Sys2Proof.Machine.execStladd c slot s
  | .tadd c slot => Sys2Proof.Machine.execTadd c slot s
  | .tset c slot => Sys2Proof.Machine.execTset c slot s
  | .twait c slot => Sys2Proof.Machine.execTwait c slot s
  | .tread c slot => Sys2Proof.Machine.execTread c slot s
  | .taddx c slot => Sys2Proof.Machine.execTaddx c slot s
  | .tsetx c slot => Sys2Proof.Machine.execTsetx c slot s
  | .endOp c slot => Sys2Proof.Machine.execEndOp c slot s
  | .twaitSatisfied w => Sys2Proof.Machine.execTwaitSatisfied w s
  | .twaitTimeout c => Sys2Proof.Machine.execTwaitTimeout c s
  | .instanceCommit c => Sys2Proof.Machine.execInstanceCommit c s
  | .switchWaitExpiry c => Sys2Proof.Machine.execSwitchWaitExpiry c s
  | .preemptRequest level => Sys2Proof.Machine.execPreemptRequest level s
  | .crewSave c => Sys2Proof.Machine.execCrewSave c s
  | .crewResume stope => Sys2Proof.Machine.execCrewResume stope s
  | .shaftDoorbell shaft val => Sys2Proof.Machine.execShaftDoorbell shaft val s
  | .shaftEnable shaft => Sys2Proof.Machine.execShaftEnable shaft s
  | .shaftDisable shaft => Sys2Proof.Machine.execShaftDisable shaft s
  | .shaftResume shaft => Sys2Proof.Machine.execShaftResume shaft s
  | .shaftAbort shaft => Sys2Proof.Machine.execShaftAbort shaft s
  | .nop shaft => Sys2Proof.Machine.execNop shaft s
  | .stepBegin shaft => Sys2Proof.Machine.execStepBegin shaft s
  | .dispatch shaft => Sys2Proof.Machine.execDispatch shaft s
  | .assayClear shaft => Sys2Proof.Machine.execAssayClear shaft s
  | .tally shaft => Sys2Proof.Machine.execTally shaft s
  | .phase shaft => Sys2Proof.Machine.execPhase shaft s
  | .stepEnd shaft => Sys2Proof.Machine.execStepEnd shaft s
  | .copy shaft => Sys2Proof.Machine.execCopy shaft s
  | .collective shaft => Sys2Proof.Machine.execCollective shaft s
  | .riffleDispatch shaft => Sys2Proof.Machine.execRiffleDispatch shaft s
  | .riffleCombine shaft => Sys2Proof.Machine.execRiffleCombine shaft s
  | .riffleTeach shaft => Sys2Proof.Machine.execRiffleTeach shaft s
  | .smeltUpdate shaft => Sys2Proof.Machine.execSmeltUpdate shaft s
  | .smeltInit shaft => Sys2Proof.Machine.execSmeltInit shaft s
  | .smeltRebase shaft => Sys2Proof.Machine.execSmeltRebase shaft s
  | .snapshot shaft => Sys2Proof.Machine.execSnapshot shaft s
  | .commandComplete shaft => Sys2Proof.Machine.execCommandComplete shaft s
  | .tlyHostSet tally => Sys2Proof.Machine.execTlyHostSet tally s
  | .tlyHostAdd tally => Sys2Proof.Machine.execTlyHostAdd tally s
  | .remoteSignalArrive m => Sys2Proof.Machine.execRemoteSignalArrive m s
  | .stallDeclare => Sys2Proof.Machine.execStallDeclare s
  | .bankGrant m reqs => Sys2Proof.Machine.execBankGrant m reqs s
  | .portPromote m bank port => Sys2Proof.Machine.execPortPromote m bank port s
  | .bankAtomicComplete id => Sys2Proof.Machine.execBankAtomicComplete id s
  | .correctionWriteback m bank => Sys2Proof.Machine.execCorrectionWriteback m bank s
  | .backgroundWindowClose => Sys2Proof.Machine.execBackgroundWindowClose s
  | .sramRegionTest m region fails => Sys2Proof.Machine.execSramRegionTest m region fails s
  | .patrolScrub stack found => Sys2Proof.Machine.execPatrolScrub stack found s
  | .hbmRowSpare stack found resource => Sys2Proof.Machine.execHbmRowSpare stack found resource s
  | .hbmRecalibrate level controller => Sys2Proof.Machine.execHbmRecalibrate level controller s
  | .interleaveWrite val => Sys2Proof.Machine.execInterleaveWrite val s
  | .hbmUeAddrRead stack => Sys2Proof.Machine.execHbmUeAddrRead stack s
  | .streamAccept skip => Sys2Proof.Machine.execStreamAccept skip s
  | .tagIssue skip => Sys2Proof.Machine.execTagIssue skip s
  | .tagComplete skip stream tag r => Sys2Proof.Machine.execTagComplete skip stream tag r s
  | .streamComplete skip stream => Sys2Proof.Machine.execStreamComplete skip stream s
  | .streamResume fid => Sys2Proof.Machine.execStreamResume fid s
  | .streamResumeAbort fid => Sys2Proof.Machine.execStreamResumeAbort fid s
  | .tlbInvalidatePage big => Sys2Proof.Machine.execTlbInvalidatePage big s
  | .tlbInvalidateAll => Sys2Proof.Machine.execTlbInvalidateAll s
  | .tlbInvalidateDone => Sys2Proof.Machine.execTlbInvalidateDone s
  | .skpShareWrite val => Sys2Proof.Machine.execSkpShareWrite val s
  | .cxlRequestTimeout port skip stream => Sys2Proof.Machine.execCxlRequestTimeout port skip stream s
  | .cxlLinkDown port => Sys2Proof.Machine.execCxlLinkDown port s
  | .aditTrain adit peerNode peerAdit rtt lanes => Sys2Proof.Machine.execAditTrain adit peerNode peerAdit rtt lanes s
  | .linkBlockSend adit => Sys2Proof.Machine.execLinkBlockSend adit s
  | .linkBlockReceive adit block corrected fecOk => Sys2Proof.Machine.execLinkBlockReceive adit block corrected fecOk s
  | .aditRetrain adit => Sys2Proof.Machine.execAditRetrain adit s
  | .retrainAttemptEnd adit ok => Sys2Proof.Machine.execRetrainAttemptEnd adit ok s
  | .laneFail adit lane => Sys2Proof.Machine.execLaneFail adit lane s
  | .laneSpareTrained adit ok => Sys2Proof.Machine.execLaneSpareTrained adit ok s
  | .packetRoute port gal esc => Sys2Proof.Machine.execPacketRoute port gal esc s
  | .escWaitExpiry port gal => Sys2Proof.Machine.execEscWaitExpiry port gal s
  | .routeArm => Sys2Proof.Machine.execRouteArm s
  | .routeEntryWrite off val => Sys2Proof.Machine.execRouteEntryWrite off val s
  | .routeBankDrainEnd => Sys2Proof.Machine.execRouteBankDrainEnd s
  | .galMarkWrite gal val => Sys2Proof.Machine.execGalMarkWrite gal val s
  | .headroomWrite val => Sys2Proof.Machine.execHeadroomWrite val s
  | .countedPacketArrive p => Sys2Proof.Machine.execCountedPacketArrive p s
  | .xackArrive p => Sys2Proof.Machine.execXackArrive p s
  | .xnakArrive p => Sys2Proof.Machine.execXnakArrive p s
  | .bucketDeadline bucket => Sys2Proof.Machine.execBucketDeadline bucket s
  | .bucketDeliver bucket => Sys2Proof.Machine.execBucketDeliver bucket s
  | .btabBaseWrite hi val => Sys2Proof.Machine.execBtabBaseWrite hi val s
  | .capacityDecide entry => Sys2Proof.Machine.execCapacityDecide entry s
  | .riffleRowsSend entry => Sys2Proof.Machine.execRiffleRowsSend entry s
  | .returnAccumulate entry => Sys2Proof.Machine.execReturnAccumulate entry s
  | .combineConvert entry => Sys2Proof.Machine.execCombineConvert entry s
  | .rflTabBaseWrite hi val => Sys2Proof.Machine.execRflTabBaseWrite hi val s
  | .smeltChunk smelt mismatch => Sys2Proof.Machine.execSmeltChunk smelt mismatch s
  | .smeltFinish smelt => Sys2Proof.Machine.execSmeltFinish smelt s
  | .dptCtrlWrite val => Sys2Proof.Machine.execDptCtrlWrite val s
  | .ticketResolve ticket => Sys2Proof.Machine.execTicketResolve ticket s
  | .verdictArrive p => Sys2Proof.Machine.execVerdictArrive p s
  | .poisonArrive p => Sys2Proof.Machine.execPoisonArrive p s
  | .verdictStall shaft => Sys2Proof.Machine.execVerdictStall shaft s
  | .canaryFaceWrite val => Sys2Proof.Machine.execCanaryFaceWrite val s
  | .packAddressWrite idx val => Sys2Proof.Machine.execPackAddressWrite idx val s
  | .resolveRelease => Sys2Proof.Machine.execResolveRelease s
  | .resolveAbort => Sys2Proof.Machine.execResolveAbort s
  | .cowCopy granule => Sys2Proof.Machine.execCowCopy granule s
  | .snapshotRegionCopy => Sys2Proof.Machine.execSnapshotRegionCopy s
  | .snapshotSeal => Sys2Proof.Machine.execSnapshotSeal s
  | .droopEvent stope cycles => Sys2Proof.Machine.execDroopEvent stope cycles s
  | .powerEstimateTick e => Sys2Proof.Machine.execPowerEstimateTick e s
  | .powerMeasurementSample mw => Sys2Proof.Machine.execPowerMeasurementSample mw s
  | .capControlTick => Sys2Proof.Machine.execCapControlTick s
  | .deferLimitExpiry => Sys2Proof.Machine.execDeferLimitExpiry s
  | .protectionTick => Sys2Proof.Machine.execProtectionTick s
  | .disagreeDeclare => Sys2Proof.Machine.execDisagreeDeclare s
  | .recalibrationEnd => Sys2Proof.Machine.execRecalibrationEnd s
  | .distrustDeclare => Sys2Proof.Machine.execDistrustDeclare s
  | .distrustClear => Sys2Proof.Machine.execDistrustClear s
  | .levelDrawWindow => Sys2Proof.Machine.execLevelDrawWindow s
  | .setpointWrite val => Sys2Proof.Machine.execSetpointWrite val s
  | .wordReceive p => Sys2Proof.Machine.execWordReceive p s
  | .reportReceive p => Sys2Proof.Machine.execReportReceive p s
  | .timeReceive p at_ => Sys2Proof.Machine.execTimeReceive p at_ s
  | .framenoReceive p => Sys2Proof.Machine.execFramenoReceive p s
  | .timingLocked => Sys2Proof.Machine.execTimingLocked s
  | .holdoverEnter => Sys2Proof.Machine.execHoldoverEnter s
  | .unalignedSet => Sys2Proof.Machine.execUnalignedSet s
  | .whistleEnable val root => Sys2Proof.Machine.execWhistleEnable val root s
  | .powerOnReset => Sys2Proof.Machine.execPowerOnReset s
  | .perstAssert => Sys2Proof.Machine.execPerstAssert s
  | .perstDeassert => Sys2Proof.Machine.execPerstDeassert s
  | .hotReset => Sys2Proof.Machine.execHotReset s
  | .linkDownReset => Sys2Proof.Machine.execLinkDownReset s
  | .functionLevelReset => Sys2Proof.Machine.execFunctionLevelReset s
  | .mailboxReset => Sys2Proof.Machine.execMailboxReset s
  | .sidebandReset => Sys2Proof.Machine.execSidebandReset s
  | .watchdogExpiry => Sys2Proof.Machine.execWatchdogExpiry s
  | .foremanTakeover => Sys2Proof.Machine.execForemanTakeover s
  | .thermalTrip junction => Sys2Proof.Machine.execThermalTrip junction s
  | .regulatorFault input => Sys2Proof.Machine.execRegulatorFault input s
  | .standbyLoss => Sys2Proof.Machine.execStandbyLoss s
  | .rstOutDeassert stable => Sys2Proof.Machine.execRstOutDeassert stable s
  | .domainRelease trained link devs => Sys2Proof.Machine.execDomainRelease trained link devs s
  | .resetCauseClear val => Sys2Proof.Machine.execResetCauseClear val s
  | .tripRailRestore tOut => Sys2Proof.Machine.execTripRailRestore tOut s
  | .regulatorRailRestore => Sys2Proof.Machine.execRegulatorRailRestore s
  | .watchdogKick => Sys2Proof.Machine.execWatchdogKick s
  | .blockReset foreman block => Sys2Proof.Machine.execBlockReset foreman block s
  | .blockOff foreman block => Sys2Proof.Machine.execBlockOff foreman block s
  | .blockOn foreman block => Sys2Proof.Machine.execBlockOn foreman block s
  | .blockIdleReport block => Sys2Proof.Machine.execBlockIdleReport block s
  | .blockIdleTimeout block => Sys2Proof.Machine.execBlockIdleTimeout block s
  | .blockResetHoldEnd block => Sys2Proof.Machine.execBlockResetHoldEnd block s
  | .blockReleaseEnd block => Sys2Proof.Machine.execBlockReleaseEnd block s
  | .strapSample ratio => Sys2Proof.Machine.execStrapSample ratio s
  | .bootVerify => Sys2Proof.Machine.execBootVerify s
  | .inputPowerApply => Sys2Proof.Machine.execInputPowerApply s
  | .packageRailsUp => Sys2Proof.Machine.execPackageRailsUp s
  | .moduleRemove => Sys2Proof.Machine.execModuleRemove s
  | .getVersion via => Sys2Proof.Machine.execGetVersion via s
  | .getCapabilities via version => Sys2Proof.Machine.execGetCapabilities via version s
  | .negotiateAlgorithms via ed25519 sha512 => Sys2Proof.Machine.execNegotiateAlgorithms via ed25519 sha512 s
  | .getDigests via => Sys2Proof.Machine.execGetDigests via s
  | .getCertificate via slot offset length => Sys2Proof.Machine.execGetCertificate via slot offset length s
  | .challenge via slot nonce => Sys2Proof.Machine.execChallenge via slot nonce s
  | .getMeasurements via index signed nonce => Sys2Proof.Machine.execGetMeasurements via index signed nonce s
  | .bar2Read off n => Sys2Proof.Machine.execBar2Read off n s
  | .bar2Write off n val en => Sys2Proof.Machine.execBar2Write off n val en s
  | .atsInvalidation addr n => Sys2Proof.Machine.execAtsInvalidation addr n s
  | .eventStatClear val raised => Sys2Proof.Machine.execEventStatClear val raised s
  | .eventEnableWrite val => Sys2Proof.Machine.execEventEnableWrite val s
  | .vectorUnmask vec mask => Sys2Proof.Machine.execVectorUnmask vec mask s
  | .getInfo ask => Sys2Proof.Machine.execGetInfo ask s
  | .getSensors ask temps => Sys2Proof.Machine.execGetSensors ask temps s
  | .reset ask => Sys2Proof.Machine.execReset ask s
  | .getWaitGraph ask => Sys2Proof.Machine.execGetWaitGraph ask s
  | .getHealth ask => Sys2Proof.Machine.execGetHealth ask s
  | .getMeasLog ask => Sys2Proof.Machine.execGetMeasLog ask s
  | .fence ask => Sys2Proof.Machine.execFence ask s
  | .loadPack ask => Sys2Proof.Machine.execLoadPack ask s
  | .setPackKey ask => Sys2Proof.Machine.execSetPackKey ask s
  | .fwStage ask => Sys2Proof.Machine.execFwStage ask s
  | .fwActivate ask => Sys2Proof.Machine.execFwActivate ask s
  | .fwCommit ask => Sys2Proof.Machine.execFwCommit ask s
  | .revokeSlot ask => Sys2Proof.Machine.execRevokeSlot ask s
  | .raiseSvn ask => Sys2Proof.Machine.execRaiseSvn ask s
  | .longCommandComplete longId => Sys2Proof.Machine.execLongCommandComplete longId s
  | .i3cAddressAssign setdasa static addr => Sys2Proof.Machine.execI3cAddressAssign setdasa static addr s
  | .setEndpointId via eid => Sys2Proof.Machine.execSetEndpointId via eid s
  | .getEndpointId via => Sys2Proof.Machine.execGetEndpointId via s
  | .getMctpVersionSupport via type => Sys2Proof.Machine.execGetMctpVersionSupport via type s
  | .getMessageTypeSupport via => Sys2Proof.Machine.execGetMessageTypeSupport via s
  | .getVendorMessageSupport via => Sys2Proof.Machine.execGetVendorMessageSupport via s
  | .pldmBaseRequest => Sys2Proof.Machine.execPldmBaseRequest s
  | .pldmMonitoringRequest sensor => Sys2Proof.Machine.execPldmMonitoringRequest sensor s
  | .pldmFirmwareUpdate bank len data => Sys2Proof.Machine.execPldmFirmwareUpdate bank len data s
  | .activateFirmware => Sys2Proof.Machine.execActivateFirmware s
  | .cageDoorbell val => Sys2Proof.Machine.execCageDoorbell val s
  | .hostCompletionTimeout skip stream tag => Sys2Proof.Machine.execHostCompletionTimeout skip stream tag s
  | .configurationRequest w => Sys2Proof.Machine.execConfigurationRequest w s

end Sys2Proof.Machine
end

