-- ==== Sys2Proof/Safety.lean ====
section
/-!
DEFINITION. What every state of a run keeps, and the words in which statements say what a command changes.
-/
namespace Sys2Proof.Machine

/-- The canonical form of memory: addresses strictly rising, no entry that an unlisted address reads as. -/
abbrev State.memWf (s : State) : Prop := Store.wf memDefault s.mem = true

/-- The canonical form of the registers: offsets strictly rising, no entry equal to the register's reset value. -/
abbrev State.regsWf (s : State) : Prop :=
  Store.keysFrom none s.regs = true ∧ s.regs.all (fun e => decide (e.2 ≠ regReset e.1)) = true

/-- What every step keeps. -/
abbrev State.Inv (s : State) : Prop := s.memWf ∧ s.regsWf

/-- Only crew `c` differs from `s` to `t`. -/
def onlyCrew (c : CrewRef) (s t : State) : Prop := t = s.setCrew c (t.crew c)

/-- Every register of the control space but those listed reads the same in `s` and `t`. -/
def regsBut (offs : List Nat) (s t : State) : Prop := ∀ off, off ∉ offs → t.reg off = s.reg off

/-- From `x` to `y` a crew has written `v` to scalar register `d` and nothing else. -/
def Crew.wroteS (d : Nat) (v : Dword) (x y : Crew) : Prop :=
  y = { x with regs := { x.regs with s := y.regs.s }, written := .s d :: x.written } ∧
  ∀ r, Store.get 0 y.regs.s r = if r = d then v else Store.get 0 x.regs.s r

/-- From `x` to `y` a crew has changed vector register `d` alone. -/
def Crew.wroteV (d : Nat) (x y : Crew) : Prop :=
  y = { x with regs := { x.regs with v := y.regs.v }, written := .v d :: x.written } ∧
  ∀ r, r ≠ d → Store.get 0 y.regs.v r = Store.get 0 x.regs.v r

/-- Element `e` of a crew's vector register as it stands now, in a lane mode. -/
def Crew.elem (c : Crew) (mode r e : Nat) : Nat := elemAt mode (Store.get 0 c.regs.v r).toNat e

/-- Bit `e` of a crew's predicate register as it stands now; p[0] is all ones. -/
def Crew.predBit (c : Crew) (r e : Nat) : Bool := if r = 0 then true else (Store.get 0 c.regs.p r).getLsbD e

/-- Table 7.2, formats SR and SI: opcode, command, reserved bits that must be 0, result from s[A], s[B] and the slot's bits. -/
def scalarRows : List (Nat × (CrewRef → Slot40 → Instr) × (Slot40 → Slot40) × (Dword → Dword → Slot40 → Dword)) :=
  let low : Slot40 → Slot40 := fun w => w &&& 0x7FFFF
  let none : Slot40 → Slot40 := fun _ => 0
  let sext : Slot40 → Dword := fun w => (w.extractLsb' 0 24).signExtend 64
  let zext : Slot40 → Dword := fun w => (w.extractLsb' 0 24).setWidth 64
  let sh : Slot40 → Nat := fun w => (w.extractLsb' 0 6).toNat
  let shBits : Slot40 → Slot40 := fun w => w &&& 0xFFFFC0
  [(0x01, .add, low, fun a b _ => a + b), (0x02, .sub, low, fun a b _ => a - b), (0x03, .mul, low, fun a b _ => a * b),
   (0x04, .mulhu, low, fun a b _ => (a.setWidth 128 * b.setWidth 128).extractLsb' 64 64),
   (0x05, .and, low, fun a b _ => a &&& b), (0x06, .or, low, fun a b _ => a ||| b), (0x07, .xor, low, fun a b _ => a ^^^ b),
   (0x08, .shl, low, fun a b _ => a <<< (b.toNat % 64)), (0x09, .shr, low, fun a b _ => a >>> (b.toNat % 64)),
   (0x0A, .sar, low, fun a b _ => a.sshiftRight (b.toNat % 64)),
   (0x0B, .min, low, fun a b _ => if a.toInt < b.toInt then a else b),
   (0x0C, .max, low, fun a b _ => if a.toInt < b.toInt then b else a),
   (0x0D, .minu, low, fun a b _ => if a.toNat < b.toNat then a else b),
   (0x0E, .maxu, low, fun a b _ => if a.toNat < b.toNat then b else a),
   (0x0F, .slt, low, fun a b _ => if a.toInt < b.toInt then 1 else 0),
   (0x10, .sltu, low, fun a b _ => if a.toNat < b.toNat then 1 else 0),
   (0x11, .seq, low, fun a b _ => if a = b then 1 else 0),
   (0x17, .movi, fun w => w &&& 0x1F000000, fun _ _ w => sext w), (0x18, .addi, none, fun a _ w => a + sext w),
   (0x19, .andi, none, fun a _ w => a &&& zext w), (0x1A, .ori, none, fun a _ w => a ||| zext w),
   (0x1B, .xori, none, fun a _ w => a ^^^ zext w), (0x1C, .shli, shBits, fun a _ w => a <<< sh w),
   (0x1D, .shri, shBits, fun a _ w => a >>> sh w), (0x1E, .sari, shBits, fun a _ w => a.sshiftRight (sh w)),
   (0x1F, .insi, none, fun a _ w => (a <<< 24) ||| zext w)]

/-- Table 7.2, format SB: opcode, command, when it branches on s[A] and s[B]. -/
def branchRows : List (Nat × (CrewRef → Slot40 → Instr) × (Dword → Dword → Bool)) :=
  [(0x20, .beq, fun a b => a = b), (0x21, .bne, fun a b => a ≠ b), (0x22, .blt, fun a b => a.toInt < b.toInt),
   (0x23, .bge, fun a b => b.toInt ≤ a.toInt), (0x24, .bltu, fun a b => a.toNat < b.toNat),
   (0x25, .bgeu, fun a b => b.toNat ≤ a.toNat), (0x26, .jmp, fun _ _ => true)]

/-- The registers that an operation of the vector slot may count in. -/
def vectorCounters (n : Nat) : List Nat :=
  [Reg.slcInexactCnt n, Reg.slcOvfCnt n, Reg.slcInvalidCnt n, Reg.slcOpCnt n, Reg.slcTransCnt n, Reg.slcRedCnt n]

/-- Table 7.4: opcode, command, and what element `e` of VD takes from the elements of VA, VB and VC. -/
def vectorRows :
    List (Nat × (CrewRef → Slot48 → Instr) × (VecSlot → Crew → Nat → Nat → Nat → Nat → Nat)) :=
  let round := fun (f : VecSlot) (c : Crew) (e : Nat) (v : Val) =>
    ((modeFmt f.mode).convert (Ncb.ofNat f.ncb).sat (Ncb.ofNat f.ncb).rnd
      (if (Ncb.ofNat f.ncb).rnd = 2 then c.draw f.kb 0 e else 0) v).1
  let val := fun (f : VecSlot) (x : Nat) => (modeFmt f.mode).decode x
  let int := fun (g : BitVec 32 → BitVec 32 → BitVec 32) (_ : VecSlot) (_ : Crew) (_ a b _ : Nat) =>
    (g (BitVec.ofNat 32 a) (BitVec.ofNat 32 b)).toNat
  [(0x01, .vadd, fun f c e a b _ => round f c e ((val f a).add (val f b))),
   (0x02, .vsub, fun f c e a b _ => round f c e ((val f a).add (val f b).neg)),
   (0x03, .vmul, fun f c e a b _ => round f c e ((val f a).mul (val f b))),
   (0x04, .vfma, fun f c e a b d => round f c e (((val f a).mul (val f b)).add (val f d))),
   (0x05, .vmin, fun f _ _ a b _ => (minMax (modeFmt f.mode) false a b).1),
   (0x06, .vmax, fun f _ _ a b _ => (minMax (modeFmt f.mode) true a b).1),
   (0x07, .vabs, fun f _ _ a _ _ => signOp false (modeFmt f.mode) a),
   (0x08, .vneg, fun f _ _ a _ _ => signOp true (modeFmt f.mode) a),
   (0x0A, .vsel, fun f c e a b _ => if c.enabled f.mode f.vc e then a else b),
   (0x10, .viadd, int fun a b => a + b), (0x11, .visub, int fun a b => a - b), (0x12, .vimul, int fun a b => a * b),
   (0x13, .vand, int fun a b => a &&& b), (0x14, .vor, int fun a b => a ||| b), (0x15, .vxor, int fun a b => a ^^^ b),
   (0x16, .vshl, int fun a b => a <<< (b.toNat % 32)), (0x17, .vshr, int fun a b => a >>> (b.toNat % 32)),
   (0x18, .vsar, int fun a b => a.sshiftRight (b.toNat % 32)),
   (0x20, .vbcst, fun f c _ _ _ _ => c.sr f.sx), (0x21, .viota, fun f c e _ _ _ => c.sr f.sx + e),
   (0x25, .vrand, fun f c e _ _ _ => c.draw f.kb 2 e),
   (0x0C, .vtr, fun f c e a b _ => ((modeFmt f.mode).transcend (Ncb.ofNat f.ncb).sat (Ncb.ofNat f.ncb).rnd
      (if (Ncb.ofNat f.ncb).rnd = 2 then c.draw f.kb 0 e else 0) f.aux (val f a) (val f b)).1)]

/-- The bytes of `n` bytes at a face offset, little-endian. -/
def faceBytes (s : State) (c : CrewRef) (ea n : Nat) : Nat := s.readLE (faceBase c.stope + ea) n

/-- An access of `n` bytes at `ea` of a crew's face that lies below the post row, meets no marked word and waits for no locked
sequence. -/
def plainAccess (s : State) (c : CrewRef) (ea n : Nat) : Prop :=
  c.stope < 144 ∧ ea + n ≤ postRow ∧ s.marked (faceBase c.stope + ea) n = false ∧ s.heldAt (faceBase c.stope + ea) n = false

/-- A crew whose bundle's load slot has been at the bank (06 R147). -/
def Crew.loaded (c : Crew) : Crew := { c with loadDue := false }

/-- The signal of a sync slot that a restart record does not hold and no pair compares (R447, R405). -/
def plainSignal (cr : Crew) : Prop :=
  ∃ i, cr.inst = some i ∧ i.restart.signals = [] ∧ i.pair = 0 ∧ i.shadow = false

/-- From `s` to `t` the head command of a shaft has left the decoded ones and is its last started one, with its work done; the
commands decoded behind it and HEAD stand (08 R208, R210). -/
def startsDone (n : Nat) (c : Command) (s t : State) : Prop :=
  ∃ x, x.cmd = c ∧ x.state = .done ∧ (t.shaft n).started = (s.shaft n).started ++ [x] ∧
    (t.shaft n).decoded = (s.shaft n).decoded.drop 1 ∧ t.reg (Reg.sftHead n) = s.reg (Reg.sftHead n)

/-- The head command of a shaft is one of an engine that takes commands, readable and with a sound header (08 R210, R213). -/
def State.engineHead (s : State) (n op : Nat) (c : Command) : Prop :=
  s.headCommand n = some c ∧ c.unread = false ∧ c.badHeader = false ∧ c.op = op ∧ s.engineShut c = false

/-- A DISPATCH (`o` = 1) or COMBINE (2) at the head of a shaft that breaks no rule of 13 R363, with no operation open: its entry `e`,
read in `s1`, and its output `t0`, read in `s2`. -/
def rflSound (n o : Nat) (s s1 s2 : State) (c : Command) (e : Nat) (t0 : TensorDesc) : Prop :=
  s.engineHead n 0x12 c ∧ c.get 18 1 = o ∧ c.get 19 1 = 0 ∧ c.get 20 44 = 0 ∧ c.get 16 2 < 1024 ∧
  s.readRflEntry (c.get 16 2) = (s1, .ok (e, false)) ∧ s1.rflEntryOk e = true ∧
  s1.readDescs [getBytes e 64 8] = (s2, [t0], []) ∧ s2.rflEntryOk e = true ∧ outdFits e t0 = true ∧ s2.riffles = [] ∧
  s2.anyFrozen (rflSpans e o t0) = false

/-- One operation of the riffle is open under the command (13 R363, R364, R376). -/
def rflOpened (n o : Nat) (c : Command) (e : Nat) (t : State) : Prop :=
  ∃ x y, t.riffles = [x] ∧ x.num = c.get 16 2 ∧ x.entry = e ∧ x.oper = o ∧ x.cmd = some (n, c.id) ∧
    y ∈ (t.shaft n).started ∧ y.cmd = c ∧ t.fld Reg.rflOpen Fld.rflOpenOps = 1

/-- An UPDATE (`o` = 1), INIT (2) or REBASE (3) at the head of a shaft that breaks no rule of 14 R381, with no SMELT in progress: its
block, program and header, read in `s1`, the tensors it names, read in `s2`, and its operands, read in `s3`. -/
def smeltSound (n o : Nat) (s s1 s2 s3 : State) (c : Command) (b p h : Nat) (ts : List TensorDesc) (d : SmeltDescs) : Prop :=
  let delta := sext 16 (c.get 26 2)
  s.engineHead n 0x13 c ∧ c.get 24 1 = o ∧ c.get 25 1 = 0 ∧ c.get 28 36 = 0 ∧ delta ≤ 63 ∧ -63 ≤ delta ∧ (o ≠ 3 → delta = 0) ∧
  s.readSmelt c o = (s1, some (b, p, h, false)) ∧ s1.smelts = [] ∧
  (if o = 3 then (s1, [], []) else s1.readDescs (namedDescs b o)) = (s2, ts, []) ∧ plainOk b o ts = true ∧
  blockFieldsOk b = true ∧ (∀ t ∈ ts, t.count = getBytes h 8 8) ∧ s2.anyFrozen (smeltSpans b (getBytes h 8 8) o ts) = false ∧
  (o ≠ 2 → (getBytes h 2 1).testBit 0 = true) ∧
  (o = 1 → ncbCauses b ts (decide (getBytes b 65 1 % 4 = 0)) = [] ∧ 1 ≤ getBytes b 64 1 ∧ getBytes b 64 1 ≤ 32 ∧
    progOk (progOps p (getBytes b 64 1)) (fun k => getBytes b (16 + 8 * k) 8 = 0) = true ∧ oreStartOk b = true) ∧
  s2.smeltDescs b o = (s3, .ok d) ∧ s3.smelts = []

/-- One SMELT is in progress under the command, at the anchor that its header gives it (14 R381, R394-R396). -/
def smeltOpened (n o : Nat) (c : Command) (b h : Nat) (d : SmeltDescs) (t : State) : Prop :=
  ∃ x y, t.smelts = [x] ∧ x.oper = o ∧ x.cmd = c.id ∧ x.block = b ∧ x.hdr = h ∧ x.descs = d ∧ x.chunk = 0 ∧
    x.anchor = sext 16 (getBytes h 0 2) + (if o = 1 then -(getBytes h 3 1 : Int) else sext 16 (c.get 26 2)) ∧
    x.shift = (if o = 1 then getBytes h 3 1 else 0) ∧ t.fld Reg.smlInflight Fld.smlInflightCmds = 1 ∧
    y ∈ (t.shaft n).started ∧ y.cmd = c

/-- Table 7.8: opcode and command of the tile starts. -/
def tileStartRows : List (Nat × (CrewRef → Slot48 → Instr)) :=
  [(0x10, .mtZc), (0x11, .mtZl), (0x12, .mtZr), (0x14, .mtIc), (0x15, .mtIl), (0x16, .mtIr), (0x18, .mtHc),
   (0x19, .mtHl), (0x1A, .mtHr)]

end Sys2Proof.Machine
end

