-- ==== Sys2Proof/Certificates/Slice0/Obligations.lean ====
section
/-!
DEFINITION. The statements for the provers: what the commands of the module do, by the numbered rules of the spec.
-/
open Sys2Proof Sys2Proof.Machine

/-! ## The queue, the tick, reset, the invariant -/

/-- For every command and state, a step with the command at the front of the queue performs it with the queue's rest. -/
def Obligations.StepRunsFrontCommand : Prop :=
  ∀ (c : Instr) (rest : List Instr) (s : State),
    step { s with pending := c :: rest } = exec c { s with pending := rest }

/-- With no command waiting a core cycle ends (notes/assumptions/2: DESIGN CHOICE): where no write of an engine is posted, no
block is being reset, no stope leaves service, no riffle operation is open, nothing waits for room and the foreman serves no cage,
every wait on a tally is judged, time advances by one period of the clock, the cycles of waiting for the lode store and for tokens
are counted, and what belongs to the past cycle alone is dropped; nothing else changes. -/
def Obligations.EmptyQueueTicks : Prop :=
  ∀ s : State, s.pending = [] → s.port.posted = [] → s.lamp.blocks = [] → s.riffles = [] → s.foremanUp = false → s.waits = [] →
    (∀ e ∈ s.stopes, e.2.leaving = 0) → (∀ e ∈ s.skips, e.1 < 160) →
    ∃ t, step s = .next t ∧
      t = { s with cycle := s.cycle + 1, ps := t.ps, sub := t.sub, sums := [], turns := [], wrote := [], raised := []
                   crews := s.crews.map fun e => (e.1, s.judgeCrew e.2)
                   shafts := s.shafts.map fun e => (e.1, s.judgeShaft e.2)
                   saved := s.saved.map fun x => s.judgeSaved x, regs := t.regs } ∧
      t.ps * subUnit + t.sub = s.ps * subUnit + s.sub + 10 ^ 6 * subUnit / (800 + 25 * s.freqCode) ∧ t.sub < subUnit ∧
      regsBut ((List.range 144).map Reg.drlLodeWaitCnt ++ s.skips.map fun e => Reg.skpThrottleCnt e.1) s t

/-- R10, R11: right after reset every control register holds the reset value of its table. -/
def Obligations.ResetRegisterValues : Prop :=
  (∀ off, State.reset.reg off = (regReset off).toNat) ∧
  State.reset.reg Reg.sftStallLimit = 2500 ∧ State.reset.reg (Reg.sftShaftCtrl 7) = 0x60000 ∧
  State.reset.fld Reg.bnlHeadroom Fld.bnlHeadroomKib = 192 ∧ State.reset.reg (Reg.tlyCount 5) = 0 ∧
  State.reset.pending = [] ∧ State.reset.mem = []

/-- The canonical forms hold at reset. -/
def Obligations.ResetInvariant : Prop := State.reset.Inv

/-- Every step keeps the canonical forms of memory and of the registers. -/
def Obligations.StepKeepsInvariant : Prop := ∀ s t : State, s.Inv → step s = .next t → t.Inv

/-! ## Bundles and packets as words -/

/-- R143, Table 6.2: reading a written bundle gives its slots, HOLD bit and header bit 7 back. -/
def Obligations.BundleRoundTrip : Prop := ∀ b : Bundle, decodeBundle (encodeBundle b) = b

/-- Tables 7.2, 7.4, 7.8, 7.10, 7.12, 7.14: every slot command whose bits carry its opcode is what its slot's decoder reads
from those bits, for the crew it names, with every operand bit at every value. -/
def Obligations.SlotCommandRoundTrip : Prop :=
  ∀ (i : Instr) (slot : Nat) (c : CrewRef) (op w : Nat),
    slotOf i = some (slot, c, op, w) → w >>> slotOpBit slot = op → slotCommand slot c w = some i


/-! ## Scalar slot (07 R176-R178) -/

/-- R176: a scalar operation of an active crew whose reserved bits are 0, and whose s[D] no slot of the bundle has written,
writes its result of the registers before the bundle to s[D] and changes nothing else. -/
def Obligations.ScalarOperationsWriteResult : Prop :=
  ∀ row ∈ scalarRows, ∀ (c : CrewRef) (w : Slot40) (s : State),
    (s.crew c).active = true → w.extractLsb' 34 6 = BitVec.ofNat 6 row.1 → row.2.2.1 w = 0 →
    RegRef.s (w.extractLsb' 29 5).toNat ∉ (s.crew c).written →
    ∃ t, exec (row.2.1 c w) s = .next t ∧ onlyCrew c s t ∧
      Crew.wroteS (w.extractLsb' 29 5).toNat
        (row.2.2.2 (Store.get 0 (s.crew c).snap.s (w.extractLsb' 24 5).toNat)
          (Store.get 0 (s.crew c).snap.s (w.extractLsb' 19 5).toNat) w)
        (s.crew c) (t.crew c)

/-- R177: a branch judges the registers before its bundle; taken, the crew's next bundle is at (offset + 32 × OFF) mod 2^22
and the loops that do not hold the target are left; not taken, nothing changes. -/
def Obligations.BranchesGoToTarget : Prop :=
  ∀ row ∈ branchRows, ∀ (c : CrewRef) (w : Slot40) (s : State),
    (s.crew c).active = true → w.extractLsb' 34 6 = BitVec.ofNat 6 row.1 → (row.1 = 0x26 → w.extractLsb' 24 10 = 0) →
    ∃ t, exec (row.2.1 c w) s = .next t ∧
      if row.2.2 (Store.get 0 (s.crew c).snap.s (w.extractLsb' 29 5).toNat)
          (Store.get 0 (s.crew c).snap.s (w.extractLsb' 24 5).toNat) then
        t = { s with crews := t.crews, regs := t.regs } ∧ regsBut [Reg.crwLoopExitCnt c.stope] s t ∧
        ((t.crew c).pc : Int) = (((s.crew c).curFoff : Int) + 32 * (w.extractLsb' 0 24).toInt) % 2 ^ 22 ∧
        (t.crew c).regs = (s.crew c).regs ∧ (t.crew c).loops = closeLoops (t.crew c).pc (s.crew c).curLoops
      else t = s

/-- R178 (and R151, R153, R155 in part): with CSRC = 0 the count is s[A][31:0] and IMM must be 0, with CSRC = 1 it is IMM and A
must be 0; a slot that breaks this is skipped, performs nothing and counts in CRW_SKIP_CNT. A loop entry within the limits of R155
opens a level over the LEN bundles that follow, from 1 to 4,096; a count of 0 opens none, counts in CRW_LOOP_ZERO_CNT and, where no
open level ends with that body, goes on behind it. -/
def Obligations.LoopEntryOpensLevel : Prop :=
  (∀ (c : CrewRef) (w : Slot40) (s : State), c.stope < 144 → (s.crew c).active = true → w.extractLsb' 34 6 = 0x28 →
    (if w.getLsbD 33 then w.extractLsb' 28 5 ≠ 0 else w.extractLsb' 0 16 ≠ 0) →
    ∃ t, exec (.loop c w) s = .next t ∧
      t.reg (Reg.crwSkipCnt c.stope) = (s.reg (Reg.crwSkipCnt c.stope) + 1) % 2 ^ 32 ∧
      (t.crew c).regs = (s.crew c).regs ∧ (t.crew c).pc = (s.crew c).pc ∧ (t.crew c).loops = (s.crew c).loops) ∧
  (∀ (c : CrewRef) (w : Slot40) (s : State) (n body : Nat),
    (s.crew c).active = true → w.extractLsb' 34 6 = 0x28 → body = (w.extractLsb' 16 12).toNat + 1 →
    (if w.getLsbD 33 then w.extractLsb' 28 5 = 0 ∧ n = (w.extractLsb' 0 16).toNat
     else w.extractLsb' 0 16 = 0 ∧
       n = (Store.get 0 (s.crew c).snap.s (w.extractLsb' 28 5).toNat).toNat % 2 ^ 32) →
    (s.crew c).curLoops.length < 4 →
    (∀ l ∈ (s.crew c).curLoops.head?, (s.crew c).curFoff + 32 * body ≤ l.last) →
    ∃ t, exec (.loop c w) s = .next t ∧
      if n = 0 then
        t.reg (Reg.crwLoopZeroCnt c.stope) = (s.reg (Reg.crwLoopZeroCnt c.stope) + 1) % 2 ^ 32 ∧
        ((∀ l ∈ (s.crew c).curLoops.head?, (s.crew c).curFoff + 32 * body ≠ l.last) →
          (t.crew c).pc = (s.crew c).curFoff + 32 * body + 32 ∧ (t.crew c).loops = (s.crew c).curLoops)
      else
        onlyCrew c s t ∧ (t.crew c).pc = (s.crew c).curFoff + 32 ∧
        (t.crew c).loops = ⟨(s.crew c).curFoff + 32, (s.crew c).curFoff + 32 * body, n⟩ :: (s.crew c).curLoops)

/-! ## Vector slot (05, 07 R179-R184) -/

/-- R122-R126, R181, R183: an elementwise vector operation that no cause of Table 6.4 skips writes to every enabled element of
VD its result of the registers before the bundle, keeps the others, and counts; no other vector register, no scalar or
predicate register, no memory and no other crew changes. -/
def Obligations.VectorElementwise : Prop :=
  ∀ row ∈ vectorRows, ∀ (c : CrewRef) (w : Slot48) (s : State) (f : VecSlot),
    f = VecSlot.ofNat w.toNat → (s.crew c).active = true → f.op = row.1 → f.check (s.crew c) w.toNat false = none →
    ∃ t, exec (row.2.1 c w) s = .next t ∧
      t = { s with crews := t.crews, regs := t.regs, stopes := t.stopes } ∧
      (∀ c', crewKey c' ≠ crewKey c → t.crew c' = s.crew c') ∧
      regsBut (vectorCounters c.stope) s t ∧
      t.reg (Reg.slcOpCnt c.stope) = (s.reg (Reg.slcOpCnt c.stope) + 1) % 2 ^ 32 ∧
      (t.crew c).regs.s = (s.crew c).regs.s ∧ (t.crew c).regs.p = (s.crew c).regs.p ∧
      (∀ r, r ≠ f.vd → Store.get 0 (t.crew c).regs.v r = Store.get 0 (s.crew c).regs.v r) ∧
      ∀ e, e < elemCount f.mode →
        (t.crew c).elem f.mode f.vd e =
          if (s.crew c).enabled f.mode f.q e then
            row.2.2 f (s.crew c) e (elemAt f.mode ((s.crew c).vr f.va) e) (elemAt f.mode ((s.crew c).vr f.vb) e)
              (elemAt f.mode ((s.crew c).vr f.vc) e) % 2 ^ elemWidth f.mode
          else elemAt f.mode ((s.crew c).vr f.vd) e

/-- R125, R181, Tables 7.4, 7.5: a compare sets the bit of every enabled element in p[VC] (and p[VC + 1] for 16-bit elements) and
keeps the others; PAND, POR, PXOR and PNOT write all 512 bits of p[VD], and nothing to p[0]. The scalar and vector registers
stand, and so does memory. -/
def Obligations.ComparesAndPredicateOperations : Prop :=
  (∀ row ∈ ([(0x09, .vcmp, fun f a b => fcmp (f.aux % 8) ((modeFmt f.mode).decode a) ((modeFmt f.mode).decode b)),
      (0x19, .vicmp, fun f a b => icmp f.aux a b)] :
      List (Nat × (CrewRef → Slot48 → Instr) × (VecSlot → Nat → Nat → Bool))),
    ∀ (c : CrewRef) (w : Slot48) (s : State) (f : VecSlot),
    f = VecSlot.ofNat w.toNat → (s.crew c).active = true → f.op = row.1 → f.check (s.crew c) w.toNat false = none →
    ∃ t, exec (row.2.1 c w) s = .next t ∧
      t = { s with crews := t.crews, regs := t.regs, stopes := t.stopes } ∧
      (t.crew c).regs.s = (s.crew c).regs.s ∧ (t.crew c).regs.v = (s.crew c).regs.v ∧
      ∀ e, e < elemCount f.mode →
        let r := if half f.mode then f.vc + e % 2 else f.vc
        let b := if half f.mode then e / 2 else e
        r ≠ 0 → (t.crew c).predBit r b =
          if (s.crew c).enabled f.mode f.q e then
            row.2.2 f (elemAt f.mode ((s.crew c).vr f.va) e) (elemAt f.mode ((s.crew c).vr f.vb) e)
          else ((s.crew c).pr r).testBit b) ∧
  (∀ row ∈ ([(0x1C, .pand, fun a b => a && b), (0x1D, .por, fun a b => a || b), (0x1E, .pxor, fun a b => a != b),
      (0x1F, .pnot, fun a _ => !a)] : List (Nat × (CrewRef → Slot48 → Instr) × (Bool → Bool → Bool))),
    ∀ (c : CrewRef) (w : Slot48) (s : State) (f : VecSlot),
    f = VecSlot.ofNat w.toNat → (s.crew c).active = true → f.op = row.1 → f.check (s.crew c) w.toNat false = none →
    ∃ t, exec (row.2.1 c w) s = .next t ∧
      t = { s with crews := t.crews, regs := t.regs, stopes := t.stopes } ∧
      (t.crew c).regs.s = (s.crew c).regs.s ∧ (t.crew c).regs.v = (s.crew c).regs.v ∧
      (f.vd = 0 → (t.crew c).regs.p = (s.crew c).regs.p) ∧
      ∀ i, i < 512 → f.vd ≠ 0 →
        (t.crew c).predBit f.vd i = row.2.2 (((s.crew c).pr f.va).testBit i) (((s.crew c).pr f.vb).testBit i))

/-- R127, R182, R183: VCVT and VDROP, where no cause of Table 6.4 skips them: a conversion changes VD alone and writes each enabled
element converted; dropout writes no scalar register and leaves 0 in every enabled element whose threshold exceeds its draw. -/
def Obligations.ConversionsAndDropout : Prop :=
  (∀ (c : CrewRef) (w : Slot48) (s : State) (f : VecSlot),
    f = VecSlot.ofNat w.toNat → (s.crew c).active = true → f.op = 0x0B → f.check (s.crew c) w.toNat false = none →
    ∃ t, exec (.vcvt c w) s = .next t ∧ t = { s with crews := t.crews, regs := t.regs, stopes := t.stopes } ∧
      (t.crew c).regs.s = (s.crew c).regs.s ∧ (t.crew c).regs.p = (s.crew c).regs.p ∧
      (∀ r, r ≠ f.vd → Store.get 0 (t.crew c).regs.v r = Store.get 0 (s.crew c).regs.v r) ∧
      (f.cvtWide = false → ∀ e, e < elemCount f.mode → (s.crew c).enabled f.mode f.q e = true →
        (t.crew c).elem f.mode f.vd e =
          (cvtOne f (s.crew c) 0 e (cvtSource f ((s.crew c).vr f.va) e)).1 % 2 ^ elemWidth f.mode)) ∧
  (∀ (c : CrewRef) (w : Slot48) (s : State) (f : VecSlot),
    f = VecSlot.ofNat w.toNat → (s.crew c).active = true → f.op = 0x24 → f.check (s.crew c) w.toNat false = none →
    ∃ t, exec (.vdrop c w) s = .next t ∧ t = { s with crews := t.crews, regs := t.regs, stopes := t.stopes } ∧
      (t.crew c).regs.s = (s.crew c).regs.s ∧
      ∀ e, e < elemCount f.mode → (s.crew c).enabled f.mode f.q e = true →
        bits ((s.crew c).sr f.kb) 55 40 > (s.crew c).draw f.kb 1 e → (t.crew c).elem f.mode f.vd e = 0)

/-- R128-R133, Table 7.6: a reduction that no cause skips counts in SLC_RED_CNT; a summing kind adds its exact partial to the
merge-buffer entry of its target and writes no register, kinds 3 to 6 write s[SX] alone, kinds 7 and 8 VD alone.
R134, R137: where the comparator trees or the residue disagree, it does the same, its instance's outcome becomes bad with cause 2
and SLC_DUP_FAIL_CNT counts. -/
def Obligations.ReductionsWriteTheirTarget : Prop :=
  ∀ (c : CrewRef) (w : Slot48) (s : State) (f : VecSlot),
    f = VecSlot.ofNat w.toNat → (s.crew c).active = true → f.op = 0x28 →
    f.check (s.crew c) w.toNat (redLimit f (s.crew c)) = none →
    ∃ t, exec (.vred c ⟨w, false⟩) s = .next t ∧ t = { s with crews := t.crews, regs := t.regs, stopes := t.stopes } ∧
      t.reg (Reg.slcRedCnt c.stope) = (s.reg (Reg.slcRedCnt c.stope) + 1) % 2 ^ 32 ∧
      (f.kind ≤ 2 → (t.crew c).regs = (s.crew c).regs ∧
        (t.crew c).merge = mergeAdd (s.crew c).site ((s.crew c).sr f.sx) (redPartial f (s.crew c)) (s.crew c).merge) ∧
      (3 ≤ f.kind → f.kind ≤ 6 → (t.crew c).merge = (s.crew c).merge ∧ (t.crew c).regs.v = (s.crew c).regs.v ∧
        ∀ r, r ≠ f.sx → Store.get 0 (t.crew c).regs.s r = Store.get 0 (s.crew c).regs.s r) ∧
      (7 ≤ f.kind → (t.crew c).merge = (s.crew c).merge ∧ (t.crew c).regs.s = (s.crew c).regs.s ∧
        ∀ r, r ≠ f.vd → Store.get 0 (t.crew c).regs.v r = Store.get 0 (s.crew c).regs.v r) ∧
      ∀ i, (s.crew c).inst = some i → c.stope < 144 →
        ∃ u j, exec (.vred c ⟨w, true⟩) s = .next u ∧ (u.crew c).regs = (t.crew c).regs ∧ (u.crew c).merge = (t.crew c).merge ∧
          (u.crew c).inst = some j ∧ j.bad = i.bad.orElse (fun _ => some 2) ∧
          u.reg (Reg.slcDupFailCnt c.stope) = (s.reg (Reg.slcDupFailCnt c.stope) + 1) % 2 ^ 32 ∧ u.mem = s.mem

/-- R136, R137: the oldest unissued duplicate of a crew issues in a cycle after its original's in which no vector operation of the
stope does; in the 64th cycle and after, it holds back the stope, and counts in SLC_DUP_STEAL_CNT where a crew was ready. The oldest
issued one completes and counts, and a mismatch with its original makes the outcome of the instance bad and counts in
SLC_DUP_FAIL_CNT. -/
def Obligations.DuplicatesIssueAndComplete : Prop :=
  (∀ (c : CrewRef) (s : State) (d : Duplicate), (s.crew c).dups.find? (!·.issued) = some d → d.at_ < s.cycle →
    (s.stope c.stope).vecNext ≤ s.cycle →
    ∃ t, exec (.duplicateIssue c.stope c.crew) s = .next t ∧ t = { s with crews := t.crews, regs := t.regs, stopes := t.stopes } ∧
      (t.crew c).dups = (s.crew c).dups.map (fun x => if x = d then { x with issued := true } else x) ∧
      (t.crew c).regs = (s.crew c).regs ∧ (t.stope c.stope).vecNext = s.cycle + 1 ∧
      (d.at_ + 64 ≤ s.cycle → t.issuer c.stope = none) ∧
      t.reg (Reg.slcDupStealCnt c.stope) = (s.reg (Reg.slcDupStealCnt c.stope) +
        (d.at_ + 64 ≤ s.cycle && !(s.turns.contains c.stope) && !(s.readyCrews c.stope).isEmpty).toNat) % 2 ^ 32) ∧
  (∀ (c : CrewRef) (s : State) (d : Duplicate) (i : Instance) (mismatch : Bool), c.stope < 144 →
    (s.crew c).dups.find? (·.issued) = some d → (s.crew c).inst = some i →
    ∃ t, exec (.duplicateComplete c mismatch) s = .next t ∧ t.mem = s.mem ∧
      (t.crew c).dups = (s.crew c).dups.erase d ∧ (t.crew c).regs = (s.crew c).regs ∧
      t.reg (Reg.slcDupCnt c.stope) = (s.reg (Reg.slcDupCnt c.stope) + 1) % 2 ^ 32 ∧
      t.reg (Reg.slcDupFailCnt c.stope) = (s.reg (Reg.slcDupFailCnt c.stope) + mismatch.toNat) % 2 ^ 32 ∧
      (mismatch = true → ∃ j, (t.crew c).inst = some j ∧ j.bad = i.bad.orElse fun _ => some 2))

/-! ## Load and store slots (07 R189-R196) -/

/-- R189, R196, Table 7.10: LDS, LDV and LDP of an aligned range of the crew's own face below the post row, which meets no
marked word and no bank that a locked sequence holds, write it to their register: LDS zero-extended or, with MOD[2], sign-extended. The bundle's store slot may follow (R147);
nothing else changes.
R120, R190, R191: the widening load writes binary16 elements exactly, and the lode conversion the bits of R130, where no
cause of Table 6.4 skips them and no marked word is met: memory stands. -/
def Obligations.LoadsWriteTheirRegister : Prop :=
  (∀ (c : CrewRef) (w : Slot40) (s : State) (ea : Nat),
    (s.crew c).active = true → w.extractLsb' 34 6 = 0x01 → w.extractLsb' 19 5 = 0 →
    ea = ((s.crew c).sr (w.extractLsb' 24 5).toNat + ((w.extractLsb' 0 16).signExtend 64).toNat) % 2 ^ 64 →
    ea % 2 ^ (w.extractLsb' 16 2).toNat = 0 → plainAccess s c ea (2 ^ (w.extractLsb' 16 2).toNat) →
    RegRef.s (w.extractLsb' 29 5).toNat ∉ (s.crew c).written →
    ∃ t, exec (.lds c w) s = .next t ∧ onlyCrew c s t ∧
      Crew.wroteS (w.extractLsb' 29 5).toNat
        (let n := 2 ^ (w.extractLsb' 16 2).toNat
         let v := BitVec.ofNat (8 * n) (faceBytes s c ea n)
         if w.getLsbD 18 then v.signExtend 64 else v.setWidth 64) (s.crew c).loaded (t.crew c)) ∧
  (∀ (c : CrewRef) (w : Slot40) (s : State) (ea : Nat),
    (s.crew c).active = true → w.extractLsb' 34 6 = 0x02 → w.extractLsb' 16 8 = 0 → (w.extractLsb' 29 5).toNat < 8 →
    ea = ((s.crew c).sr (w.extractLsb' 24 5).toNat + ((w.extractLsb' 0 16).signExtend 64).toNat) % 2 ^ 64 →
    ea % 64 = 0 → plainAccess s c ea 2048 → RegRef.v (w.extractLsb' 29 5).toNat ∉ (s.crew c).written →
    ∃ t, exec (.ldv c w) s = .next t ∧ onlyCrew c s t ∧
      Crew.wroteV (w.extractLsb' 29 5).toNat (s.crew c).loaded (t.crew c) ∧
      (Store.get 0 (t.crew c).regs.v (w.extractLsb' 29 5).toNat).toNat = faceBytes s c ea 2048) ∧
  (∀ (c : CrewRef) (w : Slot40) (s : State) (ea : Nat),
    (s.crew c).active = true → w.extractLsb' 34 6 = 0x04 → w.extractLsb' 16 8 = 0 → (w.extractLsb' 29 5).toNat < 8 →
    ea = ((s.crew c).sr (w.extractLsb' 24 5).toNat + ((w.extractLsb' 0 16).signExtend 64).toNat) % 2 ^ 64 →
    ea % 64 = 0 → plainAccess s c ea 64 → RegRef.p (w.extractLsb' 29 5).toNat ∉ (s.crew c).written →
    ∃ t, exec (.ldp c w) s = .next t ∧ onlyCrew c s t ∧ (t.crew c).regs.s = (s.crew c).regs.s ∧
      (t.crew c).regs.v = (s.crew c).regs.v ∧
      if (w.extractLsb' 29 5).toNat = 0 then (t.crew c) = (s.crew c).loaded
      else (Store.get 0 (t.crew c).regs.p (w.extractLsb' 29 5).toNat).toNat = faceBytes s c ea 64) ∧
  (∀ (c : CrewRef) (w : Slot40) (s : State) (ea code : Nat),
    (s.crew c).active = true → w.extractLsb' 34 6 = 0x03 → w.extractLsb' 19 5 = 0 → code = (w.extractLsb' 16 3).toNat →
    3 ≤ code → (w.extractLsb' 29 5).toNat < 8 →
    ea = ((s.crew c).sr (w.extractLsb' 24 5).toNat + ((w.extractLsb' 0 16).signExtend 64).toNat) % 2 ^ 64 →
    ea % 64 = 0 → plainAccess s c ea (packedBytes code 1024) →
    RegRef.v (w.extractLsb' 29 5).toNat ∉ (s.crew c).written →
    ∃ t, exec (.ldvw c w) s = .next t ∧ onlyCrew c s t ∧
      Crew.wroteV (w.extractLsb' 29 5).toNat (s.crew c).loaded (t.crew c) ∧
      ∀ e, e < 1024 → (t.crew c).elem 2 (w.extractLsb' 29 5).toNat e =
        ((Fmt.ofCode 2).convert false 0 0 ((Fmt.ofCode code).decode
          (packedElem code (faceBytes s c ea (packedBytes code 1024)) e))).1 % 2 ^ 16) ∧
  (∀ (c : CrewRef) (w : Slot40) (s : State) (ea : Nat) (l : LodeAcc),
    (s.crew c).active = true → w.extractLsb' 34 6 = 0x06 → loadBadField 6 w.toNat = false → loadBadNcb 6 w.toNat = false →
    ea = (s.crew c).sr (w.extractLsb' 24 5).toNat → loadBadReg 6 w.toNat (s.crew c) = false →
    plainAccess s c ea 96 → fullImageKind (faceBytes s c ea 96) = 2 →
    l = (LodeAcc.ofImage 2 (faceBytes s c ea 96)).1 → RegRef.s (w.extractLsb' 29 5).toNat ∉ (s.crew c).written →
    ∃ t, exec (.ldlc c w) s = .next t ∧ t = { s with crews := t.crews, regs := t.regs } ∧
      regsBut [Reg.slcInexactCnt c.stope, Reg.slcOvfCnt c.stope, Reg.slcInvalidCnt c.stope] s t ∧
      Crew.wroteS (w.extractLsb' 29 5).toNat
        (BitVec.ofNat 64 (lodeConv (Fmt.ofCode (Ncb.ofNat (bits w.toNat 15 8)).fmt) (Ncb.ofNat (bits w.toNat 15 8)).sat
          (Ncb.ofNat (bits w.toNat 15 8)).rnd
          (if (Ncb.ofNat (bits w.toNat 15 8)).rnd = 2 then (s.crew c).draw (w.extractLsb' 16 5).toNat 0 0 else 0)
          (w.extractLsb' 5 3).toNat (l.source 2 0) l.terms
          ((Fmt.ofCode 0).decode ((s.crew c).sr (w.extractLsb' 0 5).toNat % 2 ^ 32))).1) (s.crew c).loaded (t.crew c))

/-- R193, R196, Table 7.12: after the load slot of the bundle (R147) STS, STV and STP write the bytes they enable at
(s[A] + OFF) mod 2^64 of the crew's face; every other byte reads as before, and no register changes. -/
def Obligations.StoresWriteFace : Prop :=
  ∀ row ∈ ([(0x01, .sts, fun w => 2 ^ (w.extractLsb' 16 2).toNat, fun w => w.extractLsb' 18 6 = 0,
        fun c w => c.sr (w.extractLsb' 29 5).toNat, fun _ w => 2 ^ 2 ^ (w.extractLsb' 16 2).toNat - 1),
      (0x02, .stv, fun _ => 2048,
        fun w => w.extractLsb' 20 4 = 0 ∧ (w.extractLsb' 29 5).toNat < 8 ∧ (w.getLsbD 19 = true → w.getLsbD 16 = false),
        fun c w => c.vr (w.extractLsb' 29 5).toNat, fun c w => stvEnables c w.toNat),
      (0x03, .stp, fun _ => 64, fun w => w.extractLsb' 16 8 = 0 ∧ (w.extractLsb' 29 5).toNat < 8,
        fun c w => c.pr (w.extractLsb' 29 5).toNat, fun _ _ => 2 ^ 64 - 1)] :
      List (Nat × (CrewRef → Slot40 → Instr) × (Slot40 → Nat) × (Slot40 → Prop) × (Crew → Slot40 → Nat) ×
        (Crew → Slot40 → Nat))),
    ∀ (c : CrewRef) (w : Slot40) (s : State) (ea n : Nat),
    (s.crew c).active = true → w.extractLsb' 34 6 = BitVec.ofNat 6 row.1 → n = row.2.2.1 w → row.2.2.2.1 w →
    ea = ((s.crew c).sr (w.extractLsb' 24 5).toNat + ((w.extractLsb' 0 16).signExtend 64).toNat) % 2 ^ 64 →
    ea % min n 64 = 0 → plainAccess s c ea n → (s.crew c).loadDue = false →
    ∃ t, exec (row.2.1 c w) s = .next t ∧ t = { s with mem := t.mem } ∧
      ∀ a, t.byte a =
        if faceBase c.stope + ea ≤ a ∧ a < faceBase c.stope + ea + n ∧
            (row.2.2.2.2.2 (s.crew c) w).testBit (a - (faceBase c.stope + ea)) = true
        then BitVec.ofNat 8 (row.2.2.2.2.1 (s.crew c) w / 256 ^ (a - (faceBase c.stope + ea))) else s.byte a

/-- R192, R194, Table 7.12: LDXCH, STADD and STLADD act at the bank: the swap's register takes the old word and memory the new,
the add and the lode-add rewrite their operand; every byte outside it reads as before, and every other access to the banks waits
for the locked sequence (09 R247). -/
def Obligations.AtomicsActAtBank : Prop :=
  (∀ (c : CrewRef) (w : Slot40) (s : State) (ea n : Nat),
    (s.crew c).active = true → w.extractLsb' 34 6 = 0x05 → w.getLsbD 23 = false → w.getLsbD 22 = true →
    n = 2 ^ (w.extractLsb' 21 2).toNat →
    ea = ((s.crew c).sr (w.extractLsb' 24 5).toNat + ((w.extractLsb' 0 16).signExtend 64).toNat) % 2 ^ 64 →
    ea % n = 0 → plainAccess s c ea n → RegRef.s (w.extractLsb' 29 5).toNat ∉ (s.crew c).written →
    ∃ t, exec (.ldxch c w) s = .next t ∧
      t = { s with mem := t.mem, crews := t.crews, locks := t.locks, fresh := t.fresh } ∧
      t.heldAt (faceBase c.stope + ea) n = true ∧
      Crew.wroteS (w.extractLsb' 29 5).toNat (BitVec.ofNat 64 (faceBytes s c ea n)) (s.crew c).loaded (t.crew c) ∧
      faceBytes t c ea n = (s.crew c).sr (w.extractLsb' 16 5).toNat % 2 ^ (8 * n) ∧
      ∀ a, ¬(faceBase c.stope + ea ≤ a ∧ a < faceBase c.stope + ea + n) → t.byte a = s.byte a) ∧
  (∀ (c : CrewRef) (w : Slot40) (s : State) (ea n : Nat),
    (s.crew c).active = true → w.extractLsb' 34 6 = 0x04 → w.extractLsb' 18 6 = 0 → w.getLsbD 17 = true →
    n = 2 ^ (w.extractLsb' 16 2).toNat →
    ea = ((s.crew c).sr (w.extractLsb' 24 5).toNat + ((w.extractLsb' 0 16).signExtend 64).toNat) % 2 ^ 64 →
    ea % n = 0 → plainAccess s c ea n → (s.crew c).loadDue = false →
    ∃ t, exec (.stadd c w) s = .next t ∧ t = { s with mem := t.mem, locks := t.locks, fresh := t.fresh } ∧
      t.heldAt (faceBase c.stope + ea) n = true ∧
      faceBytes t c ea n =
        (faceBytes s c ea n + (s.crew c).sr (w.extractLsb' 29 5).toNat) % 2 ^ (8 * n) ∧
      ∀ a, ¬(faceBase c.stope + ea ≤ a ∧ a < faceBase c.stope + ea + n) → t.byte a = s.byte a) ∧
  (∀ (c : CrewRef) (w : Slot40) (s : State) (ea : Nat) (l : LodeAcc),
    (s.crew c).active = true → w.extractLsb' 34 6 = 0x05 → w.extractLsb' 20 4 = 0 →
    (w.getLsbD 19 = true → 3 ≤ (w.extractLsb' 16 3).toNat) →
    ea = ((s.crew c).sr (w.extractLsb' 24 5).toNat + ((w.extractLsb' 0 16).signExtend 64).toNat) % 2 ^ 64 →
    ea % 16 = 0 → plainAccess s c ea 96 → fullImageKind (faceBytes s c ea 96) = 2 →
    l = (LodeAcc.ofImage 2 (faceBytes s c ea 96)).1 → (s.crew c).loadDue = false →
    ∃ t, exec (.stladd c w) s = .next t ∧ t = { s with mem := t.mem, locks := t.locks, fresh := t.fresh } ∧
      t.heldAt (faceBase c.stope + ea) 96 = true ∧
      faceBytes t c ea 96 =
        (l.addFull ((Fmt.ofCode (w.extractLsb' 16 3).toNat).elemLode (w.getLsbD 19)
          (bits ((s.crew c).sr (w.extractLsb' 29 5).toNat) 39 32)
          ((s.crew c).sr (w.extractLsb' 29 5).toNat % 2 ^ (Fmt.ofCode (w.extractLsb' 16 3).toNat).width))).image 2 0 0 ∧
      ∀ a, ¬(faceBase c.stope + ea ≤ a ∧ a < faceBase c.stope + ea + 96) → t.byte a = s.byte a)

/-! ## Sync slot (07 R197-R204; 08 R225-R227) -/

/-- R197, R226, Table 7.14: TADD and TSET, and TADDX and TSETX of a local tally, add to or set the tally they name, modulo 2^32,
a set standing above what the cycle's earlier signals give: the largest set, and every add upon it; no other register and no memory
changes. -/
def Obligations.SignalsChangeTally : Prop :=
  ∀ row ∈ ([(0x01, .tadd, false, false), (0x02, .tset, true, false), (0x08, .taddx, false, true), (0x09, .tsetx, true, true)] :
      List (Nat × (CrewRef → Slot32 → Instr) × Bool × Bool)),
    ∀ (c : CrewRef) (w : Slot32) (s : State) (n v : Nat),
    (s.crew c).active = true → w.extractLsb' 26 6 = BitVec.ofNat 6 row.1 → plainSignal (s.crew c) →
    (if row.2.2.2 then
      w.extractLsb' 0 16 = 0 ∧ ((s.crew c).sr (w.extractLsb' 21 5).toNat).testBit 34 = false ∧
      n = (s.crew c).sr (w.extractLsb' 21 5).toNat % 2 ^ 16 ∧ v = (s.crew c).sr (w.extractLsb' 16 5).toNat % 2 ^ 32
     else
      w.extractLsb' 0 5 = 0 ∧ n = (w.extractLsb' 10 16).toNat ∧ v = (s.crew c).sr (w.extractLsb' 5 5).toNat % 2 ^ 32) →
    ∃ t, exec (row.2.1 c w) s = .next t ∧
      t = { s with crews := t.crews, regs := t.regs, sums := t.sums } ∧
      regsBut [Reg.tlyCount n] s t ∧
      t.tally n = (if row.2.2.1 then (max (s.sumOf n).top v + (s.sumOf n).sum) % 2 ^ 32 else (s.tally n + v) % 2 ^ 32) ∧
      (t.crew c).regs = (s.crew c).regs

/-- R197, R199, R204: TREAD writes the count of its tally to s[D]; TWAIT leaves the crew waiting on its tally with threshold,
timeout and unit from s[S]; END ends the instance with s[31] as its result.
R200, R227, R231: a wait is judged at the end of each cycle: a sufficient count satisfies it, and in its deadline cycle it times out
otherwise. A crew whose wait is satisfied resumes with the count observed in s[D]; one that has timed out resumes with the count
and bit 63 set, and counts in TLY_TIMEOUT_CNT. The first command of a shaft whose wait was satisfied may start. -/
def Obligations.WaitsBeginAndEnd : Prop :=
  (∀ (c : CrewRef) (w : Slot32) (s : State), (s.crew c).active = true → w.extractLsb' 26 6 = 0x04 → w.extractLsb' 5 5 = 0 →
    RegRef.s (w.extractLsb' 0 5).toNat ∉ (s.crew c).written →
    ∃ t, exec (.tread c w) s = .next t ∧ onlyCrew c s t ∧
      Crew.wroteS (w.extractLsb' 0 5).toNat (BitVec.ofNat 64 (s.tally (w.extractLsb' 10 16).toNat)) (s.crew c) (t.crew c)) ∧
  (∀ (c : CrewRef) (w : Slot32) (s : State) (v : Nat), c.stope < 144 → (s.crew c).active = true → w.extractLsb' 26 6 = 0x03 →
    RegRef.s (w.extractLsb' 0 5).toNat ∉ (s.crew c).written → v = (s.crew c).sr (w.extractLsb' 5 5).toNat →
    ∃ t wt, exec (.twait c w) s = .next t ∧
      t = { s with crews := t.crews, regs := t.regs } ∧
      regsBut [Reg.crwState c.stope] s t ∧ (t.crew c).phase = .waiting ∧ (t.crew c).regs = (s.crew c).regs ∧
      (t.crew c).wait = some wt ∧ wt.tally = (w.extractLsb' 10 16).toNat ∧ wt.thresh = v % 2 ^ 32 ∧
      wt.timeout = v / 2 ^ 32 % 2 ^ 31 ∧ wt.frames = v.testBit 63 ∧ wt.dst = (w.extractLsb' 0 5).toNat ∧
      wt.since = s.cycle ∧ wt.left = wt.timeout ∧ wt.sat = none ∧ wt.late = none) ∧
  (∀ (c : CrewRef) (s : State) (wt : CrewWait), (s.crew c).wait = some wt → wt.sat = none → wt.late = none →
    (s.judgeWaits.crew c).wait = some (
      if wt.thresh ≤ s.tally wt.tally then { wt with sat := some (s.tally wt.tally) }
      else if wt.timeout ≠ 0 ∧ (if wt.frames then wt.left = 0 else wt.since + wt.timeout ≤ s.cycle) then
        { wt with late := some (s.tally wt.tally, s.flagWas Reg.crwCtrl Fld.crwCtrlSkipSeal) }
      else wt)) ∧
  (∀ (n : Nat) (s : State) (h : Shaft) (c : Command) (l : List Command) (tl th : Nat),
    Store.get Shaft.idle s.shafts n = h → h.decoded = c :: l → c.waitOn = some (tl, th) →
    Store.get Shaft.idle s.judgeWaits.shafts n =
      { h with decoded := { c with met := c.met || decide (th ≤ s.tally tl) } :: l }) ∧
  (∀ (c : CrewRef) (w : Slot32) (s : State) (i : Instance), (s.crew c).active = true → w.extractLsb' 26 6 = 0x10 →
    w.extractLsb' 0 26 = 0 → (s.crew c).inst = some i →
    ∃ t, exec (.endOp c w) s = .next t ∧ onlyCrew c s t ∧
      t.crew c = { s.crew c with inst := some { i with ended := true, result := (s.crew c).liveS 31 } }) ∧
  (∀ (c : CrewRef) (s : State) (wt : CrewWait) (n : Nat),
    (s.crew c).phase = .waiting → (s.crew c).wait = some wt → wt.sat = some n →
    ∃ t, exec (.twaitSatisfied (.crew c)) s = .next t ∧ t = { s with crews := t.crews, regs := t.regs } ∧
      (t.crew c).phase = .running ∧ (t.crew c).wait = none ∧
      Store.get 0 (t.crew c).regs.s wt.dst = BitVec.ofNat 64 n ∧
      ∀ r, r ≠ wt.dst → Store.get 0 (t.crew c).regs.s r = Store.get 0 (s.crew c).regs.s r) ∧
  (∀ (n : Nat) (s : State) (h : Shaft) (c : Command) (l : List Command),
    Store.get Shaft.idle s.shafts n = h → h.decoded = c :: l → c.met = true →
    ∃ t, exec (.twaitSatisfied (.shaft n)) s = .next t ∧ t = { s with shafts := t.shafts } ∧
      Store.get Shaft.idle t.shafts n = { h with decoded := { c with sat := true } :: l }) ∧
  (∀ (c : CrewRef) (s : State) (wt : CrewWait) (i : Instance) (n : Nat) (blocks : Bool), c.stope < 144 →
    (s.crew c).phase = .waiting → (s.crew c).wait = some wt → (s.crew c).inst = some i → wt.late = some (n, blocks) →
    ∃ t, exec (.twaitTimeout c) s = .next t ∧ t.mem = s.mem ∧ (t.crew c).phase = .running ∧ (t.crew c).wait = none ∧
      Store.get 0 (t.crew c).regs.s wt.dst = BitVec.ofNat 64 (n + 2 ^ 63) ∧
      t.reg Reg.tlyTimeoutCnt = (s.reg Reg.tlyTimeoutCnt + 1) % 2 ^ 32)


/-! ## Matrix slot and drill (04; 07 R185-R188) -/

/-- R185, Tables 7.7, 7.8: a tile start whose fields, descriptors and handle pass the checks of its rule puts one ready tile
context into the drill, at its first slab and pass, and leaves l[LH] pending on it. From zero lodes (start code 0) it takes the
kind and anchor of R75 and R76, from images (1) those of its start images, both claiming the units of R106; from a retained
context (2) it keeps that context's lodes, kind and units. No register of the crew but l[LH] and no byte of memory changes. A tile
from zero lodes that the drill does not admit (R106) holds its bundle back: nothing is performed. -/
def Obligations.TilesStart : Prop :=
  ∀ row ∈ tileStartRows, ∀ (c : CrewRef) (w : Slot48) (s s1 : State) (m : MatSlot) (i : Instance) (a b o : TensorDesc),
    m = MatSlot.ofNat w.toNat → (s.crew c).active = true → m.op = row.1 → (s.crew c).inst = some i →
    w.getLsbD 0 = false → (Ncb.ofNat m.ncb).ok = true → (Lcw.ofNat m.lcw).ok = true → m.shape < 5 → m.sa ≤ 28 →
    s.tileDescs c.stope (s.crew c) m.sa = (s1, some (a, b, o, false)) →
    tileOk m a b o (bits ((s.crew c).sr (m.sa + 3)) 31 0) (bits ((s.crew c).sr (m.sa + 3)) 63 32) = true →
    let fits := fun (kind : Nat) =>
      s1.imagesFit m a b o (bits ((s.crew c).sr (m.sa + 3)) 31 0) (bits ((s.crew c).sr (m.sa + 3)) 63 32) kind
    let made := fun (kind : Nat) (anchor : Int) (lodes : Store LodeAcc) (units : Nat) =>
      ∃ t x, exec (row.2 c w) s = .next t ∧ (t.drill c.stope).ctxs.getLast? = some x ∧ x.crew = c.crew ∧ x.handle = m.lh ∧
        x.a = a ∧ x.b = b ∧ x.o = o ∧ x.start = m.start ∧ x.out = m.out ∧ x.shape = m.shape ∧ x.phase = .ready ∧
        x.slab = 0 ∧ x.pass = 0 ∧ x.kind = kind ∧ x.anchor = anchor ∧ x.lodes = lodes ∧ x.units = units ∧
        (t.crew c).handle m.lh = .pending x.id ∧ (∀ l, l ≠ m.lh → (t.crew c).handle l = (s.crew c).handle l) ∧
        (t.crew c).regs = (s.crew c).regs ∧ t.mem = s.mem
    (m.start = 0 → (s.crew c).handle m.lh = .invalid → ∀ kind anchor,
      (s1.tileAnchor c.stope (Lcw.ofNat m.lcw) a b).2 = (kind, anchor) → fits kind = true →
      if (s1.drill c.stope).room (tileUnits m.shape kind) then made kind anchor [] (tileUnits m.shape kind)
      else exec (row.2 c w) s = .next s) ∧
    (m.start = 1 → (s.crew c).handle m.lh = .invalid → ∀ kind anchor lodes,
      (s1.startImages c.stope m o (bits ((s.crew c).sr (m.sa + 3)) 31 0) (bits ((s.crew c).sr (m.sa + 3)) 63 32)).2 =
        some (lodes, kind, anchor, false) → fits kind = true →
      (s1.drill c.stope).room (tileUnits m.shape kind) = true →
      made kind (if kind = 2 then 0 else anchor) lodes (tileUnits m.shape kind)) ∧
    (m.start = 2 → ∀ id old, (s.crew c).handle m.lh = .retained id →
      (s1.drill c.stope).ctxs.find? (·.id = id) = some old → old.shape = m.shape → old.fmt = m.fmt → old.mx = m.mx →
      fits old.kind = true → made old.kind old.anchor old.lodes old.units)

/-- R187, R188: MFREE of a handle that retains a context frees the context and its units and invalidates the handle; of an
invalid handle it does nothing. MWAIT of a handle that is not pending changes nothing. A bundle that names a pending handle is
held back: nothing is performed. -/
def Obligations.HandlesFreeAndWait : Prop :=
  (∀ (c : CrewRef) (w : Slot48) (s : State) (m : MatSlot) (id : Nat),
    m = MatSlot.ofNat w.toNat → (s.crew c).active = true → m.op = 0x20 → bits w.toNat 36 0 = 0 →
    (s.crew c).handle m.lh = .retained id →
    ∃ t, exec (.mfree c w) s = .next t ∧ t = { s with crews := t.crews, drills := t.drills, regs := t.regs } ∧
      regsBut [Reg.drlStat c.stope] s t ∧ (t.drill c.stope).ctxs = (s.drill c.stope).ctxs.filter (·.id ≠ id) ∧
      (t.crew c).handle m.lh = .invalid ∧ (t.crew c).regs = (s.crew c).regs) ∧
  (∀ (c : CrewRef) (w : Slot48) (s : State) (m : MatSlot),
    m = MatSlot.ofNat w.toNat → (s.crew c).active = true → m.op = 0x20 → bits w.toNat 36 0 = 0 →
    (s.crew c).handle m.lh = .invalid → exec (.mfree c w) s = .next s) ∧
  (∀ (c : CrewRef) (w : Slot48) (s : State) (m : MatSlot),
    m = MatSlot.ofNat w.toNat → (s.crew c).active = true → m.op = 0x21 → bits w.toNat 36 0 = 0 →
    (∀ id, (s.crew c).handle m.lh ≠ .pending id) → exec (.mwait c w) s = .next s) ∧
  (∀ row ∈ tileStartRows, ∀ (c : CrewRef) (w : Slot48) (s : State) (m : MatSlot) (id : Nat),
    m = MatSlot.ofNat w.toNat → m.op = row.1 → (s.crew c).handle m.lh = .pending id → exec (row.2 c w) s = .next s)

/-- R99, R100: at a pass boundary the oldest ready context starts its next pass at its slab: on the whole array when no pass
runs, or, sharing the array, in the lowest idle quadrant beside passes of its own format. -/
def Obligations.PassesStart : Prop :=
  ∀ (n : Nat) (s : State) (x : TileCtx) (p : Nat),
    (s.drill n).ctxs.find? (s.tileReady n) = some x →
    (if x.quad then
      (∀ y ∈ (s.drill n).ctxs, y.isRunning = true → y.on 4 = false ∧ y.fmt = x.fmt ∧ y.mx = x.mx ∧ y.on p = false) ∧
      p < 4 ∧ ∀ q, q < p → ∃ y ∈ (s.drill n).ctxs, y.on q = true
     else p = 4 ∧ ∀ y ∈ (s.drill n).ctxs, y.isRunning = false) →
    ∃ t, exec (.drillPassStart n) s = .next t ∧ t = { s with drills := t.drills, regs := t.regs } ∧
      regsBut [Reg.drlStat n] s t ∧
      (t.drill n).ctxs = (s.drill n).ctxs.map fun y =>
        if y.id = x.id then { y with phase := .running p, kpos := y.slabStart } else y

/-- R102, R103, R118: a cycle of the pass on a place is a fold-stall cycle while folds are owed, a split cycle while an output
still holds products, an operand stall on a bank conflict or while a locked sequence holds a bank of the next group (09 R247), else
an issue cycle that takes that group; each counts 1 on the whole array, and on a quadrant 1 for every four. A stall cycle changes no
tile. -/
def Obligations.ArrayCyclesCount : Prop :=
  ∀ (n place : Nat) (conflict : Bool) (s : State) (x : TileCtx) (pl : ArrayPlace), n < 144 →
    (s.drill n).ctxs.find? (·.on place) = some x → Store.get ArrayPlace.idle (s.drill n).places place = pl →
    let counts := fun (reg : Nat) (q : Drill → Nat) (t : State) =>
      if place < 4 then
        q (t.drill n) = (q (s.drill n) + 1) % 4 ∧ t.reg reg = (s.reg reg + if q (t.drill n) = 0 then 1 else 0) % 2 ^ 32
      else t.reg reg = (s.reg reg + 1) % 2 ^ 32
    (pl.owed ≠ 0 → ∃ t, exec (.drillArrayCycle n place conflict) s = .next t ∧ counts (Reg.drlFoldStallCnt n) (·.qFold) t ∧
      (t.drill n).ctxs = (s.drill n).ctxs ∧ t.mem = s.mem ∧
      (Store.get ArrayPlace.idle (t.drill n).places place).owed = pl.owed - foldCap place) ∧
    (pl.owed = 0 → x.splitting = true → ∃ t, exec (.drillArrayCycle n place conflict) s = .next t ∧
      counts (Reg.drlSplitCnt n) (·.qSplit) t ∧ t.mem = s.mem) ∧
    (pl.owed = 0 → x.splitting = false → x.kpos < x.slabEnd → conflict = true ∨ s.fetchHeld n x = true →
      ∃ t, exec (.drillArrayCycle n place conflict) s = .next t ∧ counts (Reg.drlOpndStallCnt n) (·.qOpnd) t ∧
        (t.drill n).ctxs = (s.drill n).ctxs ∧ t.mem = s.mem) ∧
    (pl.owed = 0 → x.splitting = false → x.kpos < x.slabEnd → conflict = false → s.fetchHeld n x = false →
      ∃ t, exec (.drillArrayCycle n place conflict) s = .next t ∧ counts (Reg.drlIssueCnt n) (·.qIssue) t ∧ t.mem = s.mem ∧
        ∀ y ∈ (t.drill n).ctxs, y.id = x.id → y.kpos = x.kpos + groupSize x.fmt)

/-- R66, R98: a pass whose groups have all entered and that owes no fold ends: every occupied pan of an output folds into its lode,
the pans are empty, and the tile goes on to its next region, its next slab or its end, or stops if it has breached. -/
def Obligations.PassesEnd : Prop :=
  ∀ (n place : Nat) (s : State) (x : TileCtx), n < 144 →
    (s.drill n).ctxs.find? (·.on place) = some x → x.splitting = false → x.slabEnd ≤ x.kpos →
    (Store.get ArrayPlace.idle (s.drill n).places place).owed = 0 → x.breached = false →
    ∃ t, exec (.drillPassEnd n place) s = .next t ∧ t.mem = s.mem ∧ t.crews = s.crews ∧
      ∀ y ∈ (t.drill n).ctxs, y.id = x.id → y.cells = [] ∧ y.lodes = (x.drain place).tile.lodes ∧
        if y.breached then y.phase = .stopped ∧ t.reg (Reg.lodBreachCnt n) = (s.reg (Reg.lodBreachCnt n) + 1) % 2 ^ 32
        else if x.pass + 1 < slabPasses x.shape then y.phase = .ready ∧ y.slab = x.slab ∧ y.pass = x.pass + 1
        else y.slab = x.slab + 1 ∧ y.pass = 0 ∧
          y.phase = if padK x.k ≤ (x.slab + 1) * slabDepth x.shape then .done else .ready

/-- 03 R79, R107: a breached tile that widens frees its units and re-runs from its start at the next wider lode when the units of
that kind are free, keeping its admission place; until then it waits. A waiting one claims them when they are free. -/
def Obligations.TilesWidenAndRerun : Prop :=
  (∀ (n id : Nat) (s : State) (x : TileCtx), n < 144 → s.tile n id = some x → x.phase = .stopped → x.reruns = true →
    ∃ t, exec (.tileWidenRerun n id) s = .next t ∧ t.mem = s.mem ∧
      t.reg (Reg.lodWidenCnt n) = (s.reg (Reg.lodWidenCnt n) + 1) % 2 ^ 32 ∧
      (t.drill n).ctxs.map (·.id) = (s.drill n).ctxs.map (·.id) ∧
      ∀ y ∈ (t.drill n).ctxs, y.id = id → y.kind = x.kind + 1 ∧ y.run = x.run + 1 ∧
        if tileUnits x.shape (x.kind + 1) ≤ ({ s.drill n with ctxs := (s.drill n).ctxs.map fun z =>
            if z.id = id then { z with units := 0 } else z } : Drill).unitsFree then
          y.units = tileUnits x.shape (x.kind + 1) ∧ y.phase = .ready ∧ y.slab = 0 ∧ y.pass = 0 ∧ y.cells = []
        else y.units = 0 ∧ y.phase = .waitUnits) ∧
  (∀ (n id : Nat) (s : State) (x : TileCtx), n < 144 → s.tile n id = some x → x.phase = .waitUnits →
    tileUnits x.shape x.kind ≤ (s.drill n).unitsFree →
    ∃ t, exec (.tileWidenRerun n id) s = .next t ∧ t = { s with drills := t.drills, regs := t.regs } ∧
      ∀ y ∈ (t.drill n).ctxs, y.id = id → y.kind = x.kind ∧ y.units = tileUnits x.shape x.kind ∧ y.phase = .ready)

/-- R115, R116: after the last pass of a tile its outcome is formed: good at check level 0; else bad exactly when a compared row
or column differs or a residue of a fold did, with the excluded ones counted in DRL_CHK_SKIP_CNT and a bad outcome in
DRL_CHK_FAIL_CNT; the instance of its crew becomes bad, and the deputy is told the rows and columns that differ. -/
def Obligations.TileChecksDecideOutcome : Prop :=
  ∀ (n id : Nat) (bad : Bool) (s : State) (x : TileCtx), n < 144 → s.tile n id = some x → x.outcome = none →
    x.phase = .done ∨ x.phase = .stopped ∧ x.reruns = false →
    ∃ t, exec (.tileCheckComplete n id bad) s = .next t ∧ t.mem = s.mem ∧
      let all := x.compareCols ++ x.compareRows
      let verdict := x.check && (bad || all.contains (some false))
      (∀ y ∈ (t.drill n).ctxs, y.id = id → y.outcome = some verdict) ∧
      t.reg (Reg.drlChkFailCnt n) = (s.reg (Reg.drlChkFailCnt n) + verdict.toNat) % 2 ^ 32 ∧
      t.reg (Reg.drlChkSkipCnt n) =
        (s.reg (Reg.drlChkSkipCnt n) + if x.check then (all.filter (·.isNone)).length else 0) % 2 ^ 32 ∧
      t.findings = s.findings ++ (if verdict then
        [⟨3, n, x.crew, x.tile, 0, 0, mismatches x.compareRows, mismatches x.compareCols⟩] else []) ∧
      (∀ i, (s.crew (x.crewRef n)).inst = some i → ∃ j, (t.crew (x.crewRef n)).inst = some j ∧
        j.bad = if verdict then i.bad.orElse (fun _ => some 1) else i.bad)

/-- R109, R187: a checked tile commits: its handle becomes invalid and its context and units are free, or, with output code 2,
the handle retains the context with its lodes; DRL_TILE_CNT counts it. A tile of output code 2 without a breach record writes no
memory; one of output code 1 without a record changes no byte outside the images of its outputs. -/
def Obligations.TilesCommit : Prop :=
  ∀ (n id : Nat) (s : State) (x : TileCtx) (i : Instance) (o : Bool), n < 144 →
    s.tile n id = some x → x.outcome = some o → x.phase ≠ .retained → (s.crew (x.crewRef n)).inst = some i →
    (s.crew (x.crewRef n)).handle x.handle = .pending id →
    ∃ t, exec (.tileCommit n id) s = .next t ∧ t.reg (Reg.drlTileCnt n) = (s.reg (Reg.drlTileCnt n) + 1) % 2 ^ 32 ∧
      (t.crew (x.crewRef n)).regs = (s.crew (x.crewRef n)).regs ∧
      (t.crew (x.crewRef n)).handle x.handle = (if x.out = 2 then .retained id else .invalid) ∧
      (t.drill n).ctxs = (if x.out = 2 then (s.drill n).ctxs.map fun y =>
          if y.id = id then { y with phase := .retained, outcome := none } else y
        else (s.drill n).ctxs.filter (·.id ≠ id)) ∧
      (x.first = none → x.recs = [] → (x.out = 2 → t.mem = s.mem) ∧
        (x.out = 1 → ∀ a, (∀ p ∈ tileInside x.shape x.trow x.tcol x.m x.n,
            let lo := faceBase n + imageOff x.o (x.trow * tileRows x.shape + p.1) (x.tcol * tileCols x.shape + p.2)
            ¬(lo ≤ a ∧ a < lo + imageBytes x.kind)) → t.byte a = s.byte a))

/-! ## Crews and the onsetter (06; 08 R218-R224) -/

/-- R157, R158, R161: a slot that a cause of Table 6.4 skips performs nothing: the crew's registers, handles and place, the
drills and every tally stand, and CRW_SKIP_CNT counts it. Said of the scalar slot's reserved fields and of every cause of a
vector operation. -/
def Obligations.SkippedSlotsPerformNothing : Prop :=
  let skips := fun (c : CrewRef) (i : Instr) (s : State) => ∃ t, exec i s = .next t ∧
    t.reg (Reg.crwSkipCnt c.stope) = (s.reg (Reg.crwSkipCnt c.stope) + 1) % 2 ^ 32 ∧ t.drills = s.drills ∧
    (∀ n, n < 2 ^ 16 → t.tally n = s.tally n) ∧ (t.crew c).regs = (s.crew c).regs ∧
    (t.crew c).handles = (s.crew c).handles ∧ (t.crew c).pc = (s.crew c).pc ∧ (t.crew c).loops = (s.crew c).loops
  (∀ row ∈ scalarRows, ∀ (c : CrewRef) (w : Slot40) (s : State), c.stope < 144 → (s.crew c).active = true →
    w.extractLsb' 34 6 = BitVec.ofNat 6 row.1 → row.2.2.1 w ≠ 0 → skips c (row.2.1 c w) s) ∧
  (∀ row ∈ vectorRows, ∀ (c : CrewRef) (w : Slot48) (s : State) (k : Nat), c.stope < 144 → (s.crew c).active = true →
    (VecSlot.ofNat w.toNat).op = row.1 → (VecSlot.ofNat w.toNat).check (s.crew c) w.toNat false = some k →
    skips c (row.2.1 c w) s)

/-- R144, R145, R146, R149, R150, R154, R163, R164: the crew that its stope chooses issues its next bundle: its slots read the registers as
they stand, nothing is written yet, each register that it writes is pending for its latency, and the crew falls through; with header
bit 7 clear nothing else changes. The chosen crew is ready: no register that its bundle reads or writes is pending; among the ready
crews it is a normal one where there is one, and in its class the first after the crew that issued last. At 3 MiB or beyond, or when
its kernel image could not be copied, a crew that may fetch ends its instance with a fetch fault instead. The fall-through of a bundle
whose loop entry of count 0 skips a body that an open level ends with is the model's reading (notes/assumptions/20, DEDUCED): that
level is tested too. -/
def Obligations.BundlesIssue : Prop :=
  (∀ (c : CrewRef) (s : State) (i : Instance) (w : Nat), c.stope < 144 → c.crew < 16 → (s.crew c).inst = some i →
    s.mayFetch c i = true → s.fetchFaults c i = false → s.issuer c.stope = some c.crew → s.marks = [] →
    (s.crew c).pc + 32 ≤ postRow → w = s.faceRead c.stope (s.crew c).pc 32 →
    (∀ e ∈ bundleReads w, (s.crew c).free s.cycle e = true) ∧ (∀ e ∈ bundleWrites w, (s.crew c).free s.cycle e.2.1 = true) ∧
    c.stope ∉ s.turns ∧
    (∀ k, k < 16 → s.crewReady ⟨c.stope, k⟩ = true → ∀ j, (s.crew ⟨c.stope, k⟩).inst = some j →
      (j.ballast = false → i.ballast = false) ∧
      (j.ballast = i.ballast →
        ((c.crew : Int) - (s.stope c.stope).lastCrew - 1) % 16 ≤ ((k : Int) - (s.stope c.stope).lastCrew - 1) % 16)) ∧
    ∃ t, exec (.bundleFetch c) s = .next t ∧
      t.reg (Reg.crwBundleCnt c.stope) = (s.reg (Reg.crwBundleCnt c.stope) + 1) % 2 ^ 32 ∧ t.turns = c.stope :: s.turns ∧
      (t.crew c).snap = (s.crew c).regs ∧ (t.crew c).regs = (s.crew c).regs ∧ (t.crew c).written = [] ∧
      (t.crew c).curFoff = (s.crew c).pc ∧ (t.crew c).curLoops = (s.crew c).loops ∧
      ((t.crew c).pc, (t.crew c).loops) = fallThrough (s.crew c).pc (s.crew c).loops ∧
      (t.stope c.stope).lastCrew = c.crew ∧
      (w.testBit 7 = false →
        t = { s with crews := t.crews, regs := t.regs, turns := t.turns, stopes := t.stopes, activity := t.activity } ∧
        regsBut [Reg.crwBundleCnt c.stope] s t ∧
        ∀ e ∈ bundleWrites w, ∃ b ∈ (t.crew c).busy, b.reg = e.2.1 ∧ b.ready = s.cycle + e.2.2)) ∧
  (∀ (c : CrewRef) (s : State) (i : Instance), c.stope < 144 → (s.crew c).inst = some i → s.mayFetch c i = true →
    0x300000 ≤ (s.crew c).pc ∨ s.imageFailed c i = true →
    ∃ t, exec (.bundleFetch c) s = .next t ∧ (t.crew c).inst = none ∧ (t.crew c).phase = .idle ∧
      (t.drill c.stope).ctxs.all (·.crew ≠ c.crew) = true) ∧
  (∀ (c : CrewRef) (s : State) (w : Slot40) (l : LoopLevel) (ls : List LoopLevel), (s.crew c).active = true →
    w.extractLsb' 34 6 = 0x28 → w.getLsbD 33 = true →
    w.extractLsb' 28 5 = 0 → w.extractLsb' 0 16 = 0 → (s.crew c).curLoops = l :: ls → ls.length < 3 →
    l.last = (s.crew c).curFoff + 32 * ((w.extractLsb' 16 12).toNat + 1) →
    ∃ t, exec (.loop c w) s = .next t ∧ ((t.crew c).pc, (t.crew c).loops) = fallThrough l.last (l :: ls))

/-- R141, R218, R221: with no saved context, lost instance, second run or canary to serve, the onsetter of a level gives the next
entry of the DISPATCH it serves to the crew it picks: the crew's registers start as Table 6.1 and R141 say, its program counter at
the entry's offset in the image, and the entry is taken. -/
def Obligations.EntriesAreDispatched : Prop :=
  ∀ (l : Nat) (s s1 : State) (c : CrewRef) (d : Dispatch) (w : Nat),
    s.pickStope l (fun st => (s.resumeOn st).isSome) = none → s.requeued = [] → s.pairs = [] → s.returnFor l = none →
    s.canaryPack = none → s.nextDispatch l = some d → s.pickStope l (fun st => !(s.resuming st)) = some c →
    s.devRead none (d.list + 32 * d.next) 32 = (s1, .ok (w, false)) → s1.checkLevel < 2 → s1.ticketRoom = true →
    getBytes w 24 4 % 32 = 0 → getBytes w 24 4 < d.klen →
    ∃ t i, exec (.onsetterDispatch l) s = .next t ∧ (t.crew c).inst = some i ∧ (t.crew c).phase = .running ∧
      i.tile = getBytes w 0 8 ∧ i.step = d.step ∧ i.origin = .dispatch d.id d.next ∧
      (t.crew c).pc = d.kface + getBytes w 24 4 ∧
      (∀ r, (Store.get 0 (t.crew c).regs.s r).toNat =
        if r = 0 then getBytes w 0 8 else if r = 1 then getBytes w 8 8 else if r = 2 then getBytes w 16 8
        else if r = 3 then d.step.num % 2 ^ 64 else 0) ∧
      (t.crew c).regs.v = [] ∧ (t.crew c).regs.p = [] ∧ (t.crew c).handles = [] ∧ (t.crew c).loops = [] ∧
      (t.crew c).merge = [] ∧
      (∀ x ∈ t.dispatches, x.id = d.id → ∃ y ∈ s.dispatches, y.id = d.id ∧ x.next = y.next + 1)

/-- R166, R218: an ended instance whose tiles have committed and that has no duplicate pending first issues its merge buffer, each
entry as a lode-add of its own stream; with nothing left to merge it commits: its crew is idle, its tile contexts are free. -/
def Obligations.InstancesCommit : Prop :=
  ∀ (c : CrewRef) (s : State) (i : Instance), (s.crew c).inst = some i → i.ended = true → i.pair = 0 →
    s.tilesOpen c = false → (s.crew c).dups = [] →
    ((s.crew c).merge ≠ [] → i.mergeIssued = false →
      ∃ t j, exec (.instanceCommit c) s = .next t ∧ t.mem = s.mem ∧ (t.crew c).merge = [] ∧ (t.crew c).inst = some j ∧
        j.mergeIssued = true ∧ j.mergesOut = i.mergesOut + (s.crew c).merge.length ∧
        t.reg (Reg.slcMergeCnt c.stope) = (s.reg (Reg.slcMergeCnt c.stope) + (s.crew c).merge.length) % 2 ^ 32 ∧
        (t.skip c.stope).streams.length = (s.skip c.stope).streams.length + (s.crew c).merge.length) ∧
    ((s.crew c).merge = [] ∨ i.mergeIssued = true → i.mergesOut = 0 →
      ∃ t, exec (.instanceCommit c) s = .next t ∧ (t.crew c).inst = none ∧ (t.crew c).phase = .idle ∧
        (t.drill c.stope).ctxs.all (·.crew ≠ c.crew) = true)

/-- R167, R168, R224: a crew whose wait has been pending for more than CRW_SWITCH_WAIT cycles while work waits for its full stope, or
the victim of a preemption, issues no further bundle and drains; without a save slot for it the refusal counts in
CRW_NOSLOT_CNT. -/
def Obligations.CrewsSwitchOut : Prop :=
  (∀ (c : CrewRef) (s : State) (w : CrewWait), c.stope < 144 → (s.crew c).phase = .waiting → (s.crew c).wait = some w →
    w.sat = none → w.late = none → s.was Reg.crwSwitchWait < s.cycle - w.since → s.entryFor c.stope = true →
    s.idleCrewOf c.stope = none → s.was Reg.crwSaveSlots ≠ 0 →
    ∃ t, exec (.switchWaitExpiry c) s = .next t ∧ t = { s with crews := t.crews, regs := t.regs } ∧
      if s.slotRoom then
        (t.crew c).phase = .draining ∧ (t.crew c).saveSlot = none ∧ (t.crew c).regs = (s.crew c).regs ∧
        (t.crew c).wait = some w
      else t.crews = s.crews ∧ t.reg (Reg.crwNoslotCnt c.stope) = (s.reg (Reg.crwNoslotCnt c.stope) + 1) % 2 ^ 32) ∧
  (∀ (l : Nat) (s : State) (d : Dispatch) (c : CrewRef),
    s.firstServed l ((s.entries l).filter fun d => (s.preempts? d).isSome) = some d →
    s.reg Reg.sftPreemptWait ≤ s.cycle - d.waitSince → Store.get 0 s.preempts l = 0 →
    (∀ st, st < 144 → s.stopeState st = 1 → d.levels.testBit (st / 72) = true → s.idleCrewOf st = none) →
    pickVictim (s.victims d.levels d.prio) = some c →
    ∃ t, exec (.preemptRequest l) s = .next t ∧ t.mem = s.mem ∧
      if s.slotRoom then
        (t.crew c).phase = .draining ∧ (t.crew c).preempted = true ∧ Store.get 0 t.preempts l = crewKey c + 1
      else t.crews = s.crews ∧ t.reg (Reg.crwNoslotCnt c.stope) = (s.reg (Reg.crwNoslotCnt c.stope) + 1) % 2 ^ 32)

/-- R112, R168, R169: with the translation off, a drained crew takes the lowest-numbered free save slot; its tile contexts, each as
Table 4.6 lays it out, and then its record are written there and the crew is idle; a resumable context takes the lowest idle crew of
its active stope with the registers of its record, and its slot is free. The bits of an image that a breached lode cannot hold are
free (notes/assumptions/17). -/
def Obligations.ContextsAreSavedAndResumed : Prop :=
  let takes := fun (s : State) (c : CrewRef) (slot : Nat) => (s.crew c).saveSlot = some slot ∨
    (s.crew c).saveSlot = none ∧ s.drained c = true ∧ s.freeSlots.head? = some slot
  (∀ (n id slot : Nat) (s : State) (x : TileCtx) (i : Instance), s.tile n id = some x → n < 144 →
    takes s (x.crewRef n) slot → (s.crew (x.crewRef n)).inst = some i →
    s.flag Reg.skpCtrl Fld.skpCtrlXlate = false → s.slotVa slot + 0x400000 ≤ 0x6000000000 →
    ((s.crew (x.crewRef n)).saveLen + 63) / 64 * 64 + x.size ≤ 0x400000 →
    ∃ t, exec (.tileContextSave n id) s = .next t ∧ (t.drill n).ctxs = (s.drill n).ctxs.filter (·.id ≠ id) ∧
      t.reg (Reg.drlCtxSaveCnt n) = (s.reg (Reg.drlCtxSaveCnt n) + 1) % 2 ^ 32 ∧
      (t.crew (x.crewRef n)).regs = (s.crew (x.crewRef n)).regs ∧ (t.crew (x.crewRef n)).saveSlot = some slot ∧
      let lo := s.slotVa slot + ((s.crew (x.crewRef n)).saveLen + 63) / 64 * 64
      t.readLE lo x.size = x.bytes (fun k => s.openBits n x (x.trow * tileRows x.shape + k / tileCols x.shape)
        (x.tcol * tileCols x.shape + k % tileCols x.shape) (Store.get LodeAcc.zero x.lodes k)) % 2 ^ (8 * x.size) ∧
      ∀ a, ¬(lo ≤ a ∧ a < lo + x.size) → t.byte a = s.byte a) ∧
  (∀ (c : CrewRef) (slot : Nat) (s : State) (i : Instance), c.stope < 144 → (s.crew c).phase = .draining →
    takes s c slot → (s.crew c).inst = some i → (s.crew c).dups = [] →
    (∀ x ∈ (s.drill c.stope).ctxs, x.crew ≠ c.crew) →
    s.flag Reg.skpCtrl Fld.skpCtrlXlate = false → s.slotVa slot + 0x400000 ≤ 0x6000000000 →
    ∃ t, exec (.crewSave c) s = .next t ∧ (t.crew c).phase = .idle ∧ (t.crew c).inst = none ∧
      t.reg (Reg.crwSwitchOutCnt c.stope) = (s.reg (Reg.crwSwitchOutCnt c.stope) + 1) % 2 ^ 32 ∧
      (∃ x ∈ t.saved, x.slot = slot ∧ x.inst = i ∧ x.stope = c.stope ∧ x.wait = (s.crew c).wait) ∧
      t.readLE (s.slotVa slot) 19264 = (s.crew c).record c i % 2 ^ (8 * 19264) ∧
      ∀ a, ¬(s.slotVa slot ≤ a ∧ a < s.slotVa slot + 19264) → t.byte a = s.byte a) ∧
  (∀ (n w : Nat) (s s1 : State) (x : SavedCtx) (c : CrewRef), n < 144 → (s.resumables n).head? = some x →
    s.idleCrewOf n = some c → s.stopeState n = 1 → (s.stope n).leaving = 0 → x.tiles = [] →
    (s.drill n).ctxs.length ≤ 32 → s.devRead (some x.stope) (s.slotVa x.slot) 19264 = (s1, .ok (w, false)) →
    ∃ t, exec (.crewResume n) s = .next t ∧ t.mem = s.mem ∧ (t.crew c).inst = some x.inst ∧
      (t.crew c).phase = (if x.wait.isSome then .waiting else .running) ∧ (t.crew c).pc = x.pc ∧
      (∀ r, r < 32 → (Store.get 0 (t.crew c).regs.s r).toNat = getBytes w (64 + 8 * r) 8) ∧
      (∀ r, r < 8 → (Store.get 0 (t.crew c).regs.v r).toNat = getBytes w (320 + 2048 * r) 2048) ∧
      (∀ y ∈ t.saved, y.slot ≠ x.slot) ∧
      t.reg (Reg.crwSwitchInCnt c.stope) = (s.reg (Reg.crwSwitchInCnt c.stope) + 1) % 2 ^ 32)

/-! ## Shafts and tallies (08) -/

/-- R205, R207, R235: with its block released, enabling a disabled shaft clears HEAD, DECODE and TAIL and decodes nothing; disabling
clears EN alone; a doorbell value forward of TAIL up to HEAD - 1 becomes TAIL, the current TAIL changes nothing, any other is
discarded and counted, raises a shaft event with REFUSE_EVENT = 1 and leaves the shaft as it is (reserved bits count under R8); ABORT of a halted shaft clears the halt, discards what is decoded and sets HEAD and DECODE to TAIL; RESUME
clears the halt and, after a refusal, reads the command again. -/
def Obligations.ShaftControl : Prop :=
  ∀ (n : Nat) (s : State), n < 256 → s.up 1 = true →
    (s.shaftOn n = false → ∃ t, exec (.shaftEnable n) s = .next t ∧ t = { s with regs := t.regs, shafts := t.shafts } ∧
      regsBut [Reg.sftShaftCtrl n, Reg.sftHead n, Reg.sftDecode n, Reg.sftDoorbell n] s t ∧ t.shaftOn n = true ∧
      t.reg (Reg.sftHead n) = 0 ∧ t.reg (Reg.sftDecode n) = 0 ∧ t.reg (Reg.sftDoorbell n) = 0 ∧
      (t.shaft n).decoded = [] ∧ (t.shaft n).step = none ∧ (t.shaft n).started.length = (s.shaft n).started.length) ∧
    (∃ t, exec (.shaftDisable n) s = .next t ∧ t = { s with regs := t.regs } ∧ regsBut [Reg.sftShaftCtrl n] s t ∧
      t.shaftOn n = false) ∧
    (∀ v, (v % 2 ^ 16 % s.ringSize n = s.reg (Reg.sftDoorbell n) % s.ringSize n →
        exec (.shaftDoorbell n v) s = .next (s.noteReserved (Reg.sftDoorbell n) v)) ∧
      (v % 2 ^ 16 % s.ringSize n ≠ s.reg (Reg.sftDoorbell n) % s.ringSize n →
        ∃ t, exec (.shaftDoorbell n v) s = .next t ∧
        if ringDist (s.ringSize n) (s.reg (Reg.sftDoorbell n)) (v % 2 ^ 16 % s.ringSize n) ≤
            ringDist (s.ringSize n) (s.reg (Reg.sftDoorbell n)) (s.reg (Reg.sftHead n) + s.ringSize n - 1) then
          t.reg (Reg.sftDoorbell n) = v % 2 ^ 16 % s.ringSize n
        else t.reg (Reg.sftDoorbell n) = s.reg (Reg.sftDoorbell n) ∧ t.shafts = s.shafts ∧
          t.reg Reg.sftDbBadCnt = (s.reg Reg.sftDbBadCnt + 1) % 2 ^ 32 ∧ t.shaftOn n = s.shaftOn n ∧ t.halted n = s.halted n ∧
          (s.flag Reg.sftCtrl Fld.sftCtrlRefuseEvent = true → (t.reg Reg.lmpEventStat).testBit 3 = true))) ∧
    (s.halted n = true → ∃ t, exec (.shaftAbort n) s = .next t ∧ t.halted n = false ∧ (t.shaft n).decoded = [] ∧
      t.reg (Reg.sftHead n) = s.reg (Reg.sftDoorbell n) ∧ t.reg (Reg.sftDecode n) = s.reg (Reg.sftDoorbell n) ∧ t.mem = s.mem) ∧
    (s.halted n = true → ∃ t, exec (.shaftResume n) s = .next t ∧ t.halted n = false ∧ t.mem = s.mem ∧
      (∀ c l, (s.shaft n).rejudge = true → (s.shaft n).decoded = c :: l →
        ∃ d, (t.shaft n).decoded = d :: l ∧ d.pos = c.pos ∧ d.id = c.id ∧
          d.raw = ((s.clearHalt n).readEntry n c.pos).2.1 ∧ d.unread = ((s.clearHalt n).readEntry n c.pos).2.2))

/-- R210, R213, R421: the head command of an enabled shaft that is not halted, whose WAIT is satisfied, starts when its payload
breaks no rule: NOP, TALLY and PHASE with their work done at once, STEP_END counted for the begun step it names, ASSAY_CLEAR after
its clear: with the translation off the record of a tensor in HBM then holds MAX_EXP = 0x8000, FLAGS [2:0] = 0, STORES = 0 and no
block byte, and no other byte of memory changes; a descriptor that names no record clears nothing. Each leaves the decoded commands and is
the last started one. -/
def Obligations.CommandsStart : Prop :=
  (∀ (n : Nat) (s : State) (c : Command), s.headCommand n = some c → c.unread = false → c.badHeader = false → c.op = 1 →
    c.get 16 48 = 0 → ∃ t, exec (.nop n) s = .next t ∧ startsDone n c s t ∧ t = { s with shafts := t.shafts }) ∧
  (∀ (n : Nat) (s : State) (c : Command), s.headCommand n = some c → c.unread = false → c.badHeader = false → c.op = 5 →
    c.get 28 1 < 2 → c.get 29 35 = 0 →
    ∃ t, exec (.tally n) s = .next t ∧ startsDone n c s t ∧ t = { s with shafts := t.shafts }) ∧
  (∀ (n : Nat) (s : State) (c : Command), s.headCommand n = some c → c.unread = false → c.badHeader = false → c.op = 6 →
    c.get 16 1 ≤ 63 → c.get 17 1 ≤ 1 → c.get 18 2 = 0 → c.get 24 40 = 0 →
    ∃ t, exec (.phase n) s = .next t ∧ startsDone n c s t ∧ t = { s with shafts := t.shafts }) ∧
  (∀ (n : Nat) (s s1 : State) (c : Command) (d : TensorDesc), s.headCommand n = some c → c.unread = false →
    c.badHeader = false → c.op = 4 → c.get 24 40 = 0 → s.readDesc none (c.get 16 8) = (s1, some (d, false)) → d.ok = true →
    d.assay = 0 ∨ s.flag Reg.skpCtrl Fld.skpCtrlXlate = false ∧ s.marks = [] ∧
      d.assay + 16 + (d.count + 63) / 64 ≤ 0x6000000000 →
    ∃ t, exec (.assayClear n) s = .next t ∧ startsDone n c s t ∧
      (d.assay = 0 → t.mem = s.mem) ∧
      (d.assay ≠ 0 →
        let len := if d.mx then 16 else 16 + (d.count + 63) / 64
        t.readLE d.assay len = 0x8000 + getBytes (s.readLE d.assay 16) 2 1 / 8 * 8 * 2 ^ 16 ∧
        ∀ a, ¬(d.assay ≤ a ∧ a < d.assay + len) → t.byte a = s.byte a)) ∧
  (∀ (n : Nat) (s : State) (c : Command) (r : StepRec), s.headCommand n = some c → c.unread = false → c.badHeader = false →
    c.op = 7 → c.get 26 38 = 0 → s.step? ⟨s.seqNo, c.get 16 8⟩ = some r → r.unsealed = true → 0 < c.get 24 2 →
    c.get 24 2 ≤ 256 → r.endStarted < c.get 24 2 → (r.endStarted ≠ 0 → r.nend = c.get 24 2) →
    ∃ t q, exec (.stepEnd n) s = .next t ∧ startsDone n c s t ∧ t = { s with shafts := t.shafts, steps := t.steps } ∧
      t.step? ⟨s.seqNo, c.get 16 8⟩ = some q ∧ q.nend = c.get 24 2 ∧ q.endStarted = r.endStarted + 1)

/-- R214, R215: a STEP_BEGIN whose scope list is readable and names no tensor of step scope, of a number above every number begun in
the sequence, with fewer than four steps begun and unsealed, begins that step with the job seed latched as it stood before this cycle
(02 R57), makes it the shaft's current step and shows its number in SFT_STEP_NUM; one whose number is begun and unsealed joins that
step; a fifth step does not start; any other number is refused with cause 7.
R212, R218: a DISPATCH that keeps the rules of Table 8.5 in a shaft with a current step joins the dispatches in progress with its work
list and completes its work at once for COUNT = 0; in a shaft without a current step it is refused with cause 7. A reserved opcode is
refused with cause 1 and halts the shaft at that command. -/
def Obligations.StepsAndDispatchesStart : Prop :=
  (∀ (n w : Nat) (s s1 s2 : State) (c : Command) (num : Nat) (ts : List TensorDesc), n < 256 → s.headCommand n = some c →
    c.unread = false → c.badHeader = false → c.op = 2 → num = c.get 16 8 → c.get 24 8 % 8 = 0 → c.get 36 28 = 0 →
    (if c.get 32 4 = 0 then (s, .ok (0, false)) else s.devRead none (c.get 24 8) (8 * c.get 32 4)) = (s1, .ok (w, false)) →
    s1.readDescs ((List.range (c.get 32 4)).map fun k => getBytes w (8 * k) 8) = (s2, ts, []) →
    (∀ t ∈ ts, t.stepScoped = false) →
    (s.step? ⟨s.seqNo, num⟩).any (·.unsealed) = true ∨ s.newStep num = true ∧ s.inflight < 4 →
    ∃ t r, exec (.stepBegin n) s = .next t ∧ t.mem = s.mem ∧ startsDone n c s t ∧ (t.shaft n).step = some ⟨s.seqNo, num⟩ ∧
      t.reg64 Reg.sftStepNum0 Reg.sftStepNum1 = num ∧ t.step? ⟨s.seqNo, num⟩ = some r ∧ n ∈ r.shafts ∧
      ((s.step? ⟨s.seqNo, num⟩).any (·.unsealed) = false →
        r.seed = s.was Reg.sftJobSeed0 + s.was Reg.sftJobSeed1 * 2 ^ 32 ∧ r.state = .begun) ∧
      t.steps.length = s.steps.length + (if (s.step? ⟨s.seqNo, num⟩).any (·.unsealed) then 0 else 1)) ∧
  (∀ (n : Nat) (s : State) (c : Command) (num : Nat), n < 256 → s.headCommand n = some c → c.unread = false →
    c.badHeader = false → c.op = 2 → num = c.get 16 8 → c.get 24 8 % 8 = 0 → c.get 32 4 = 0 → c.get 36 28 = 0 →
    (s.step? ⟨s.seqNo, num⟩).any (·.unsealed) = false →
    (s.newStep num = true → 4 ≤ s.inflight → exec (.stepBegin n) s = .next s) ∧
    (s.newStep num = false → ∃ t, exec (.stepBegin n) s = .next t ∧ t.steps = s.steps ∧
      t.reg (Reg.sftShaftStat n) = 2 ^ 30 + 7 * 2 ^ 16 + c.pos % 2 ^ 16)) ∧
  (∀ (n : Nat) (s : State) (c : Command) (st : StepId), n < 256 → s.headCommand n = some c → c.unread = false → c.op = 3 →
    c.badHeader = false → c.get 44 1 / 4 = 0 → c.get 45 1 / 2 = 0 → c.get 48 16 = 0 → c.get 16 8 % 32 = 0 → c.get 28 4 % 32 = 0 →
    c.get 28 4 ≤ 0x100000 → c.get 32 8 % 32 = 0 → c.get 40 4 % 32 = 0 → c.get 40 4 + c.get 28 4 ≤ postRow →
    c.get 16 8 + 32 * c.get 24 4 ≤ 2 ^ 57 → c.get 32 8 + c.get 28 4 ≤ 2 ^ 57 → c.get 44 1 ≠ 0 →
    (s.shaft n).step = some st →
    ∃ t x, exec (.dispatch n) s = .next t ∧ t = { s with shafts := t.shafts, dispatches := t.dispatches, fresh := t.fresh } ∧
      (t.shaft n).started = (s.shaft n).started ++ [x] ∧ x.cmd = c ∧
      x.state = (if c.get 24 4 = 0 then .done else .working) ∧
      if c.get 24 4 = 0 then t.dispatches = s.dispatches
      else ∃ d, t.dispatches = s.dispatches ++ [d] ∧ d.list = c.get 16 8 ∧ d.count = c.get 24 4 ∧ d.klen = c.get 28 4 ∧
        d.kimg = c.get 32 8 ∧ d.kface = c.get 40 4 ∧ d.levels = c.get 44 1 ∧ d.step = st ∧ d.next = 0 ∧ d.finished = 0 ∧
        d.itally = if c.get 45 1 = 1 then some (c.get 46 2) else none) ∧
  (∀ (n : Nat) (s : State) (c : Command), n < 256 → s.headCommand n = some c → c.unread = false →
    (c.op = 3 → c.badHeader = false → c.get 44 1 / 4 = 0 → c.get 45 1 / 2 = 0 → c.get 48 16 = 0 → c.get 16 8 % 32 = 0 →
      c.get 28 4 % 32 = 0 → c.get 28 4 ≤ 0x100000 → c.get 32 8 % 32 = 0 → c.get 40 4 % 32 = 0 →
      c.get 40 4 + c.get 28 4 ≤ postRow → c.get 16 8 + 32 * c.get 24 4 ≤ 2 ^ 57 → c.get 32 8 + c.get 28 4 ≤ 2 ^ 57 →
      c.get 44 1 ≠ 0 → (s.shaft n).step = none →
      ∃ t, exec (.dispatch n) s = .next t ∧ t.mem = s.mem ∧ t.dispatches = s.dispatches ∧
        t.reg (Reg.sftShaftStat n) = 2 ^ 30 + 7 * 2 ^ 16 + c.pos % 2 ^ 16) ∧
    (shaftOps.contains c.op = false → ∃ t, exec (.dispatch n) s = .next t ∧ t.mem = s.mem ∧
      t.reg (Reg.sftShaftStat n) = 2 ^ 30 + 1 * 2 ^ 16 + c.pos % 2 ^ 16 ∧ (t.shaft n).started = (s.shaft n).started))

/-- R211: the oldest started command of a shaft, its work done and its commit waiting for no ticket, completes: HEAD passes it,
SFT_CPL_CNT counts it, and with SIGNAL = 1 SIG_ADD is added to its tally. Said of a NOP or DISPATCH of the ring in force. -/
def Obligations.CommandsComplete : Prop :=
  ∀ (n : Nat) (s : State) (x : Started) (l : List Started), n < 256 → (s.shaft n).started = x :: l → s.completable x = true →
    x.old = false → x.cmd.op = 1 ∨ x.cmd.op = 3 → x.cmd.pos < s.ringSize n → s.reg (Reg.sftDecode n) = s.reg (Reg.sftDoorbell n) →
    ∃ t, exec (.commandComplete n) s = .next t ∧ t.mem = s.mem ∧ (t.shaft n).started = l ∧
      t.reg (Reg.sftHead n) = (x.cmd.pos + 1) % s.ringSize n ∧
      t.reg (Reg.sftCplCnt n) = (s.reg (Reg.sftCplCnt n) + 1) % 2 ^ 32 ∧
      ∀ k, k < 2 ^ 16 → t.tally k =
        if x.cmd.flags.testBit 1 = true ∧ k = x.cmd.get 8 2 then (s.tally k + x.cmd.get 12 4) % 2 ^ 32 else s.tally k

/-- R226-R230: a write to TLY_HOST_OP sets or adds TLY_HOST_ARG; a remote signal of the current epoch to an enabled window is applied,
one to a disabled window counts in TLY_REMOTE_DROP_CNT, one of another epoch in TLY_STALE_CNT alone. Of two signals that meet a
tally in one cycle the sets are applied first, the larger winning, and then the adds, whatever their order. -/
def Obligations.TalliesTakeSignals : Prop :=
  (∀ (n : Nat) (s : State), n < 2 ^ 16 → s.up 1 = true →
    ∃ t, exec (.tlyHostSet n) s = .next t ∧ t = { s with regs := t.regs, sums := t.sums } ∧
      regsBut [Reg.tlyHostOp, Reg.tlyCount n] s t ∧
      t.tally n = (max (s.sumOf n).top (s.reg Reg.tlyHostArg) + (s.sumOf n).sum) % 2 ^ 32) ∧
  (∀ (n : Nat) (s : State), n < 2 ^ 16 → s.up 1 = true →
    ∃ t, exec (.tlyHostAdd n) s = .next t ∧ t = { s with regs := t.regs, sums := t.sums } ∧
      regsBut [Reg.tlyHostOp, Reg.tlyCount n] s t ∧ t.tally n = (s.tally n + s.reg Reg.tlyHostArg) % 2 ^ 32) ∧
  (∀ (m : SignalMsg) (s : State), m.tally < 2 ^ 16 → s.up 1 = true →
    ∃ t, exec (.remoteSignalArrive m) s = .next t ∧
      t = { s with regs := t.regs, sums := t.sums } ∧
      if m.epoch ≠ s.epoch then regsBut [Reg.tlyStaleCnt] s t ∧ t.reg Reg.tlyStaleCnt = (s.reg Reg.tlyStaleCnt + 1) % 2 ^ 32
      else if s.remoteWindow m.tally then regsBut [Reg.tlyCount m.tally] s t ∧
        t.tally m.tally = if m.set then (max (s.sumOf m.tally).top (m.value % 2 ^ 32) + (s.sumOf m.tally).sum) % 2 ^ 32
          else (s.tally m.tally + m.value) % 2 ^ 32
      else regsBut [Reg.tlyRemoteDropCnt] s t ∧ t.reg Reg.tlyRemoteDropCnt = (s.reg Reg.tlyRemoteDropCnt + 1) % 2 ^ 32) ∧
  (∀ (m1 m2 : SignalMsg) (s : State), m1.tally < 2 ^ 16 → m2.tally = m1.tally → s.up 1 = true → m1.epoch = s.epoch →
    m2.epoch = s.epoch → s.remoteWindow m1.tally = true → s.sums = [] →
    ∃ t u, exec (.remoteSignalArrive m1) s = .next t ∧ exec (.remoteSignalArrive m2) t = .next u ∧
      u.tally m1.tally =
        ((if m1.set ∧ m2.set then max (m1.value % 2 ^ 32) (m2.value % 2 ^ 32) else if m1.set ∨ m2.set then m1.value + m2.value
          else s.tally m1.tally + m1.value + m2.value) % 2 ^ 32))

/-- R232, R233: with a limit, at the end of the cycle of a frame boundary at which no crew waits and one shaft's head command has waited undeclared for the
limit, that wait is declared: TLY_STALL_CNT counts it, the wait graph holds one entry, and with STALL_HALT the shaft halts at that command. -/
def Obligations.StallsAreDeclared : Prop :=
  ∀ (n : Nat) (s : State) (h : Shaft) (c : Command) (tl th : Nat), n < 256 →
    s.shafts = [(n, h)] → s.crews = [] → s.saved = [] → s.cycle = s.bcycle + 1 → s.waitingCommand n = some (c, tl, th) → c.declared = none →
    s.fldWas Reg.sftStallLimit Fld.sftStallLimitFrames ≠ 0 → s.fldWas Reg.sftStallLimit Fld.sftStallLimitFrames ≤ c.age →
    ∃ t, exec .stallDeclare s = .next t ∧ t.mem = s.mem ∧ t.reg Reg.tlyStallCnt = (s.reg Reg.tlyStallCnt + 1) % 2 ^ 32 ∧
      t.waitGraph.length = 1 ∧ (∀ k, k < 2 ^ 16 → t.tally k = s.tally k) ∧
      (s.flag Reg.sftCtrl Fld.sftCtrlStallHalt = true → s.halted n = false →
        t.reg (Reg.sftShaftStat n) = 2 * 2 ^ 30 + c.pos % 2 ^ 16)

/-! ## Memory (09) -/

/-- R241-R247, R250-R252, R256: a cycle of one bank that no sequence locks, no port is promoted at and no test has a row on a buffer.
Of two plain writes by different ports to that bank, each byte that the lower-numbered port enables takes its value, other bytes the
higher one's; the overtaken port is counted, and beyond the bytes enabled nothing changes. Of a read and a write the read delivers
what stood before. A request that starts a locked sequence, alone at its banks, locks them. A bank held by a sequence grants
nothing. 16 consecutive denials promote a port. The window closes once it has lasted its cycles.
R247, R248, R254, R541: a locked sequence that has lasted its cycles ends with its sum or swap in place of its operand, a swap
with the old value delivered, its banks free and every other byte as before; where its operand holds a marked word it changes no
byte. In the window the oldest queued correction of a bank begins a write-back, whose end takes it from the queue and changes no
byte. -/
def Obligations.BanksGrantLockAndEnd : Prop :=
  (∀ (m : BankMem) (s : State) (p q : Nat) (a b : BankAcc), s.up 4 = true → p < q → s.marks = [] → s.ages = [] → s.tests = [] →
    (match m with
     | .face st => st < 144 ∧ a.off + a.len ≤ postRow ∧ b.off + b.len ≤ postRow
     | .stockpile l => l < 2 ∧ a.off + a.len ≤ 0x6000000 ∧ b.off + b.len ≤ 0x6000000) →
    BankReq.fits m ⟨p, [a], none, none, 0, none, []⟩ = true → BankReq.fits m ⟨q, [b], none, none, 0, none, []⟩ = true →
    (p = 0 → s.windowOpen = true) → a.off % 64 + a.len ≤ 64 → b.off % 64 + b.len ≤ 64 → 0 < a.len → 0 < b.len →
    bankOf m a.off = bankOf m b.off → s.bankLocked m (bankOf m a.off) = false → b.write = true →
    let over_ := (List.range b.len).any fun i => accEnables b (b.off + i) && accEnables a (b.off + i)
    ∃ t, exec (.bankGrant m [⟨p, [a], none, none, 0, none, []⟩, ⟨q, [b], none, none, 0, none, []⟩]) s = .next t ∧
      t.locks = s.locks ∧ t.crews = s.crews ∧
      (a.write = true → t.reg (ovtCnt m) = (s.reg (ovtCnt m) + over_.toNat) % 2 ^ 32 ∧ t.outbox = s.outbox ∧
        ∀ x, t.byte x =
          if memBase m ≤ x ∧ accEnables a (x - memBase m) = true then BitVec.ofNat 8 (a.data / 256 ^ (x - memBase m - a.off))
          else if memBase m ≤ x ∧ accEnables b (x - memBase m) = true then BitVec.ofNat 8 (b.data / 256 ^ (x - memBase m - b.off))
          else s.byte x) ∧
      (a.write = false → a.ecc = .clean → t.outbox = s.outbox ++ [.readData (s.readLE (memBase m + a.off) a.len)] ∧
        ∀ x, t.byte x =
          if memBase m ≤ x ∧ accEnables b (x - memBase m) = true then BitVec.ofNat 8 (b.data / 256 ^ (x - memBase m - b.off))
          else s.byte x)) ∧
  (∀ (m : BankMem) (s : State) (r : BankReq) (op : LockOp), s.up 4 = true → r.lock = some op → r.acc = [] → r.along = [] →
    r.fits m = true → (r.port = 0 → s.windowOpen = true) → (∀ c, r.crew = some c → (s.crew c).loadDue = false) →
    (∀ k ∈ s.lockUnits m op, s.bankLocked m k = false) →
    ∃ t l, exec (.bankGrant m [r]) s = .next t ∧ t.locks = (s.locks.filter fun x => s.holds x) ++ [l] ∧
      l.banks = s.lockUnits m op ∧ l.op = some op ∧ l.since = s.cycle ∧ l.cycles = lockCycles op ∧ l.cycles ≤ 24 ∧
      t.mem = s.mem) ∧
  (∀ (m : BankMem) (s : State) (r : BankReq) (k : Nat), s.up 4 = true → k ∈ s.reqBanks m r → s.bankLocked m k = true →
    ∃ t, exec (.bankGrant m [r]) s = .next t ∧ t.mem = s.mem ∧ t.locks = s.locks ∧ t.outbox = s.outbox) ∧
  (∀ (m : BankMem) (bank port : Nat) (s : State), 16 ≤ (Store.get PortAge.none s.ages (portKey m bank port)).denied →
    s.cycle ≤ (Store.get PortAge.none s.ages (portKey m bank port)).next →
    ∃ t, exec (.portPromote m bank port) s = .next t ∧ t = { s with ages := t.ages } ∧ t.promoted m bank port = true) ∧
  (∀ s : State, exec .backgroundWindowClose s = .next { s with window := s.window && decide (s.cycle < s.bcycle + s.bgWin) }) ∧
  (∀ (id : Nat) (s : State) (l : LockedSeq) (off size v : Nat) (swap : Bool), s.locks.find? (·.id = id) = some l →
    l.since + l.cycles ≤ s.cycle → s.postReach (memBase l.mem + off) size = none →
    l.op = some (if swap then .swap off size v else .add off size v) →
    ∃ t, exec (.bankAtomicComplete id) s = .next t ∧ t.locks = s.locks.filter (·.id ≠ id) ∧
      if s.marked (memBase l.mem + off) size then t.mem = s.mem
      else t.readLE (memBase l.mem + off) size =
          (if swap then v else s.readLE (memBase l.mem + off) size + v) % 2 ^ (8 * size) ∧
        t.outbox = s.outbox ++ (if swap then [.readData (s.readLE (memBase l.mem + off) size)] else []) ∧
        ∀ x, ¬(memBase l.mem + off ≤ x ∧ x < memBase l.mem + off + size) → t.byte x = s.byte x) ∧
  (∀ (m : BankMem) (bank off : Nat) (q : List Nat) (s : State), s.up 4 = true → s.windowOpen = true →
    Store.get [] s.corrections (bankKey m bank) = off :: q →
    (∀ k ∈ s.lockUnits m (.writeback off), s.bankLocked m k = false) →
    ∃ t l, exec (.correctionWriteback m bank) s = .next t ∧ t = { s with locks := t.locks, fresh := t.fresh } ∧
      t.locks = (s.locks.filter fun x => s.holds x) ++ [l] ∧ l.op = some (.writeback off) ∧ l.cycles = 6) ∧
  (∀ (id off : Nat) (s : State) (l : LockedSeq), s.locks.find? (·.id = id) = some l → l.since + l.cycles ≤ s.cycle →
    l.op = some (.writeback off) →
    ∃ t, exec (.bankAtomicComplete id) s = .next t ∧ t = { s with locks := t.locks, corrections := t.corrections } ∧
      t.locks = s.locks.filter (·.id ≠ id) ∧
      Store.get [] t.corrections (bankKey l.mem (bankOf l.mem off)) =
        (Store.get [] s.corrections (bankKey l.mem (bankOf l.mem off))).erase off)

/-- R257-R259: in the window the test of a free region of a face bank begins and copies its rows in, each under a locked sequence of
2 cycles; at the last row the march runs; each failing row is mapped to a spare row of its bank while it has any, with the march run
again; the rows are copied back, and with the last one the region counts as tested. Memory reads as before throughout. Past the last
spare the stope is to be fenced with cause 2. -/
def Obligations.RegionTestsAdvance : Prop :=
  ∀ (st r : Nat) (fails : List Nat) (s : State), st < 144 → r < 768 → s.up 4 = true → s.windowOpen = true → s.marks = [] →
    let step_ := fun (f : State → Prop) => ∃ t, exec (.sramRegionTest (.face st) r fails) s = .next t ∧ t.mem = s.mem ∧ f t
    let now := s.tests.find? fun (t : RegionTest) => t.mem = .face st && t.region = r
    let mine := fun (t : State) (f : RegionTest → Prop) => ∀ y ∈ t.tests, y.mem = .face st → y.region = r → f y
    let free := fun (op : LockOp) => ∀ k ∈ s.lockUnits (.face st) op, s.bankLocked (.face st) k = false
    let copying := fun (op : LockOp) => step_ fun t => ∃ l, t.locks = (s.locks.filter fun x => s.holds x) ++ [l] ∧
      l.mem = .face st ∧ l.op = some op ∧ l.cycles = 2 ∧ t.tests = s.tests
    let ended := fun (op : LockOp) (f : State → Prop) => ∀ (id : Nat) (l : LockedSeq), s.locks.find? (·.id = id) = some l →
      l.since + l.cycles ≤ s.cycle → l.mem = .face st → l.op = some op →
      ∃ t, exec (.bankAtomicComplete id) s = .next t ∧ t.mem = s.mem ∧ t.locks = s.locks.filter (·.id ≠ id) ∧ f t
    let key := spareKey (.face st) r
    (now = none → s.flag Reg.memCtrl Fld.memCtrlTestEn = true → s.testRoom (.face st) = true →
      step_ fun t => t = { s with tests := s.tests ++ [⟨.face st, r, .copyIn, 0, []⟩] }) ∧
    (∀ x, now = some x → x.phase = .copyIn → free (.copyIn r x.pos) → copying (.copyIn r x.pos)) ∧
    (∀ row, ended (.copyIn r row) fun t => mine t fun y => y.pos = row + 1 ∧ (row + 1 = 64 → y.phase = .march)) ∧
    (∀ x, now = some x → x.phase = .march → s.bankLocked (.face st) (r / 24) = false → step_ fun t => mine t fun y =>
      if fails = [] then y.phase = .copyBack ∧ y.pos = 0 else y.phase = .repair ∧ y.failing = fails) ∧
    (∀ x, now = some x → x.phase = .repair → (Store.get [] s.spareRows key).length ≤ 16 → step_ fun t =>
      let rows := Store.get [] s.spareRows key
      Store.get [] t.spareRows key = rows ++ x.failing.take (16 - rows.length) ∧
      t.reg (Reg.memFaceSpare st) = (s.reg (Reg.memFaceSpare st) + min (16 - rows.length) x.failing.length) % 2 ^ 32 ∧
      (16 < rows.length + x.failing.length → s.stopeState st = 1 → (s.stope st).fence = 0 → (t.stope st).fence = 2) ∧
      mine t fun y => y.phase = .again) ∧
    (∀ x, now = some x → x.phase = .again → s.bankLocked (.face st) (r / 24) = false → step_ fun t => mine t fun y =>
      y.phase = .copyBack ∧ y.pos = 0) ∧
    (∀ x, now = some x → x.phase = .copyBack → free (.copyBack r x.pos) → copying (.copyBack r x.pos)) ∧
    (∀ row, row < 63 → ended (.copyBack r row) fun t => mine t fun y => y.pos = row + 1) ∧
    ended (.copyBack r 63) fun t => (∀ y ∈ t.tests, ¬(y.mem = .face st ∧ y.region = r)) ∧
      t.reg (Reg.memFaceTestCnt st) = (s.reg (Reg.memFaceTestCnt st) + 1) % 2 ^ 32

/-- R240, R256, R260-R265: in the window a trained stack's scrub advances once a frame by its lines; a marked row is copied as
it is corrected and spared with a repair resource, or held in a row-cache entry, or its page reported; an interface is recalibrated once a frame; INTERLEAVE is kept
once an HBM access has completed; a read of HBM_UE_ADDR answers it and latches its top bit. -/
def Obligations.HbmControllersWork : Prop :=
  ∀ (k : Nat) (s : State), k < 8 → s.up 3 = true →
    (s.windowOpen = true → s.flag Reg.hbmCtrl Fld.hbmCtrlScrubEn = true → s.flag (Reg.hbmStat k) Fld.hbmStatTrained = true →
      s.marks = [] → (s.hbm k).scrubFrame ≠ s.frame + 1 →
      ∃ t, exec (.patrolScrub k []) s = .next t ∧ t = { s with hbms := t.hbms, regs := t.regs } ∧
        let lines := 4 * s.reg (Reg.hbmScrubPos k) + (s.hbm k).line + (s.reg Reg.whsPeriod + 9999) / 10000
        4 * t.reg (Reg.hbmScrubPos k) + (t.hbm k).line = lines % (4 * 201326592) ∧ (t.hbm k).scrubFrame = s.frame + 1 ∧
        t.reg (Reg.hbmScrubPassCnt k) = (s.reg (Reg.hbmScrubPassCnt k) + if 4 * 201326592 ≤ lines then 1 else 0) % 2 ^ 32) ∧
    (∀ found resource row pa l, (s.hbm k).marked = (row, pa) :: l → s.windowOpen = true →
      s.flag Reg.hbmCtrl Fld.hbmCtrlSpareEn = true → 2000000 * subUnit ≤ s.windowLeft → (s.hbm k).sparedFrame ≠ s.frame + 1 →
      ∃ t, exec (.hbmRowSpare k found resource) s = .next t ∧ t.mem = s.mem ∧ (t.hbm k).marked = l ∧
        if resource = true then t.repairs = s.repairs ++ [(k, row)] ∧
          t.reg (Reg.hbmSpareCnt k) = (s.reg (Reg.hbmSpareCnt k) + 1) % 2 ^ 32
        else if (s.hbm k).cached.length < 8 then (t.hbm k).cached = (s.hbm k).cached ++ [row] ∧
          t.fld (Reg.hbmStat k) Fld.hbmStatCacheRows = (s.hbm k).cached.length + 1
        else t.retired = s.retired ++ [pa / 0x10000 * 0x10000] ∧ t.flag (Reg.hbmStat k) Fld.hbmStatDegraded = true ∧
          t.reg Reg.hbmRetireCnt = (s.reg Reg.hbmRetireCnt + 1) % 2 ^ 32) ∧
    (s.windowOpen = true → 1000000 * subUnit ≤ s.windowLeft → (s.hbm k).calFrame ≠ s.frame + 1 →
      ∃ t, exec (.hbmRecalibrate (k / 4) (k % 4)) s = .next t ∧ t = { s with hbms := t.hbms, regs := t.regs } ∧
        t.reg (Reg.hbmCalCnt k) = (s.reg (Reg.hbmCalCnt k) + 1) % 2 ^ 32 ∧ (t.hbm k).calFrame = s.frame + 1) ∧
    (∀ v, ∃ t, exec (.interleaveWrite v) s = .next t ∧ t = { s with regs := t.regs } ∧
      regsBut [Reg.hbmCtrl, Reg.lmpBadAccessCnt] s t ∧
      t.fld Reg.hbmCtrl Fld.hbmCtrlInterleave = (if s.hbmUsed then s.fld Reg.hbmCtrl Fld.hbmCtrlInterleave else v % 2) ∧
      t.fld Reg.hbmCtrl Fld.hbmCtrlSpareThresh = v / 16 % 16 ∧ t.fld Reg.hbmCtrl Fld.hbmCtrlSpareEn = v / 4 % 2 ∧
      t.fld Reg.hbmCtrl Fld.hbmCtrlScrubEn = v / 2 % 2) ∧
    (∃ t, exec (.hbmUeAddrRead k) s = .next t ∧ t.outbox = s.outbox ++ [.readData (s.reg (Reg.hbmUeAddr k))] ∧
      t.mem = s.mem ∧ (t.hbm k).latched = some (s.hbm k).ueTop ∧ t.reg (Reg.hbmUeAddrTop k) = (s.hbm k).ueTop.toNat)

/-! ## Skips, translation and CXL ports (10) -/

/-- R266, R268-R277, R289: COPY queues its list on its bulk skip in list order; a skip with a place for it accepts its first
waiting stream with its well-formed descriptor, a remote one with its ticket, and a merge without one; a tag issues over the runs that
its addresses translate to; its completion puts the source's bytes at the destination and frees it; a stream with nothing left to do
adds CADD to CTALLY and leaves its skip. -/
def Obligations.StreamsRun : Prop :=
  (∀ (n : Nat) (s : State) (c : Command), s.headCommand n = some c → c.unread = false → c.badHeader = false → c.op = 0x10 →
    s.engineShut c = false → c.get 16 8 % 64 = 0 → c.get 28 1 < 16 → c.get 29 35 = 0 → c.get 24 4 ≤ 65535 →
    ∃ t l, exec (.copy n) s = .next t ∧ t.mem = s.mem ∧ t.regs = s.regs ∧
      (t.skip (144 + c.get 28 1)).streams = (s.skip (144 + c.get 28 1)).streams ++ l ∧
      l.map (·.at_) = (List.range (c.get 24 4)).map (fun i => c.get 16 8 + 64 * i) ∧
      (∀ x ∈ l, x.phase = .queued ∧ x.next = 0 ∧ x.step = (s.shaft n).step.getD noStep) ∧
      (t.shaft n).started.length = (s.shaft n).started.length + 1) ∧
  (∀ (k : Nat) (s s1 : State) (x : Stream) (d : StreamDesc), (s.skip k).streams.find? (fun y => decide (y.phase = .queued)) = some x →
    (∀ a b v, x.use ≠ .merge a b v) → s.readStreamDesc k x = (s1, .ok d) → d.malformed k = false →
    (s.skip k).place d.kibble = true → (d.remote = true → x.shadow = false → s1.ticketRoom = true) →
    ∃ t, exec (.streamAccept k) s = .next t ∧ t.mem = s.mem ∧
      ∀ y ∈ (t.skip k).streams, y.id = x.id → y.phase = .running ∧ y.desc = some d ∧ y.next = x.next ∧ y.tokens = d.depth ∧
        y.taken = s.cycle ∧ (d.remote = true → x.shadow = false → y.tickets = [y.ticket])) ∧
  (∀ (k : Nat) (s : State) (x : Stream) (c site v : _), (s.skip k).streams.find? (fun y => decide (y.phase = .queued)) = some x →
    x.use = .merge c site v → (s.skip k).place true = true →
    exec (.streamAccept k) s = .next (s.modStream k x.id fun _ => { x with taken := s.cycle, phase := .running })) ∧
  (∀ (k : Nat) (s s2 : State) (x : Stream) (d : StreamDesc) (kib slot : Bool) (src dst : List (Nat × Nat)) (a b : Nat),
    s.pickStream k = some (x, kib, slot) → x.desc = some d →
    let g := d.tagAt x.next (tagSize k)
    s.sideRuns k d.sface g.1 g.2.2 false = (s2, .ok src, a) →
    let dr := if d.remote then (s2, Res.ok [], b) else s2.sideRuns k d.dface g.2.1 g.2.2 true
    dr.2 = (.ok dst, b) → dr.1.cxlDown src = none → dr.1.cxlDown dst = none →
    ∃ t, exec (.tagIssue k) s = .next t ∧ t.mem = s.mem ∧ (d.remote = false →
      ∀ y ∈ (t.skip k).streams, y.id = x.id → ∃ z ∈ (s.skip k).streams, ∃ i, z.id = x.id ∧ y.next = z.next + g.2.2 ∧
        y.tags = z.tags ++ [⟨i, x.next, g.2.2, src, dst, g.1, g.2.1, s.ps⟩])) ∧
  (∀ (k : Nat) (s : State) (x : Stream) (g : Tag) (d : StreamDesc) (a b n : Nat), k < 160 →
    s.stream? k x.id = some x → x.tags.find? (fun y => y.id = g.id) = some g → x.desc = some d → x.phase = .running →
    (∀ p q v, x.use ≠ .merge p q v) → d.remote = false → x.shadow = false → g.src = [(a, n)] → g.dst = [(b, n)] → g.len = n →
    s.marks = [] → s.snapshot = none → s.paKind a ≠ .control → s.paKind b ≠ .control → s.heldRuns (g.src ++ g.dst) = false →
    s.postReach b n = none →
    ∃ t, exec (.tagComplete k x.id g.id (.ok [])) s = .next t ∧ t.readLE b n = s.readLE a n ∧
      (∀ p, ¬(b ≤ p ∧ p < b + n) → t.byte p = s.byte p) ∧
      ∀ y ∈ (t.skip k).streams, y.id = x.id → ∀ z ∈ y.tags, z.id ≠ g.id) ∧
  (∀ (k : Nat) (s : State) (x : Stream) (d : StreamDesc), k < 160 → s.stream? k x.id = some x → x.desc = some d →
    x.phase = .running → x.next = d.total → (if d.remote then x.acked = true else x.tags = []) → x.shadow = false → d.ctally < 2 ^ 16 →
    x.pair = 0 →
    ∃ t, exec (.streamComplete k x.id) s = .next t ∧ t.mem = s.mem ∧ (∀ y ∈ (t.skip k).streams, y.id ≠ x.id) ∧
      t.reg (Reg.skpStreamCnt k) = (s.reg (Reg.skpStreamCnt k) + 1) % 2 ^ 32 ∧
      t.reg (Reg.skpKibbleCnt k) = (s.reg (Reg.skpKibbleCnt k) + x.kibble.toNat) % 2 ^ 32 ∧
      t.tally d.ctally = (s.tally d.ctally + d.cadd) % 2 ^ 32)

/-- R284-R288, R292, R293: a resume lets the stream halted under its FID go on, or with ABORT ends it, and one that names no
halted stream is counted (a stream whose tags are still under way ends with the last of them); an invalidation drops the matching translations and shows BUSY until the tags translated through them have
completed; SKP_SHARE takes fields that sum to 10; a timed-out request to a CXL port is counted and a port that goes down shows it. -/
def Obligations.StreamsStopAndResume : Prop :=
  ∀ s : State, s.up 5 = true →
    (∀ f, f < 2 ^ 16 → s.haltedBy f = none → ∀ c ∈ [Instr.streamResume f, .streamResumeAbort f],
      ∃ t, exec c s = .next t ∧ t = { s with regs := t.regs } ∧
        t.reg Reg.skpResumeBadCnt = (s.reg Reg.skpResumeBadCnt + 1) % 2 ^ 32) ∧
    (∀ f k x r, f < 2 ^ 16 → s.haltedBy f = some (k, x, r) →
      (∃ t, exec (.streamResume f) s = .next t ∧ t = { s with regs := t.regs, skips := t.skips } ∧
        ((x.desc.isSome = true ∨ ∃ a b v, x.use = .merge a b v) → ∀ y ∈ (t.skip k).streams, y.id = x.id → y.phase = .running) ∧
        (x.desc = none → (∀ a b v, x.use ≠ .merge a b v) → ∀ y ∈ (t.skip k).streams, y.id = x.id → y.phase = .queued)) ∧
      (x.tags ≠ [] → ∃ t, exec (.streamResumeAbort f) s = .next t ∧ t.mem = s.mem ∧
        ∀ y ∈ (t.skip k).streams, y.id = x.id → y.phase = .ended) ∧
      (x.tags = [] → k < 160 → ∃ t, exec (.streamResumeAbort f) s = .next t ∧ t.mem = s.mem ∧
        (∀ y ∈ (t.skip k).streams, y.id ≠ x.id) ∧
        t.reg (Reg.skpErrCnt k) = (s.reg (Reg.skpErrCnt k) + 1) % 2 ^ 32 ∧
        t.reg (Reg.skpStreamCnt k) = (s.reg (Reg.skpStreamCnt k) + 1) % 2 ^ 32)) ∧
    (s.flag Reg.skpInvCtrl Fld.skpInvCtrlBusy = true →
      exec .tlbInvalidateAll s = .next s ∧ ∀ big, exec (.tlbInvalidatePage big) s = .next s) ∧
    (s.flag Reg.skpInvCtrl Fld.skpInvCtrlBusy = false →
      (∃ t, exec .tlbInvalidateAll s = .next t ∧ t.hfTlb = [] ∧ (∀ k, (t.skip k).tlb = []) ∧
        t.flag Reg.skpInvCtrl Fld.skpInvCtrlBusy = true ∧ t.inval.isSome = true ∧ t.mem = s.mem) ∧
      ∀ big va sh, sh = (if big then 21 else 16) →
        va = s.fld Reg.skpInvAddr0 Fld.skpInvAddrVaLo * 2 ^ 16 + s.fld Reg.skpInvAddr1 Fld.skpInvAddrVaHi * 2 ^ 32 →
        ∃ t, exec (.tlbInvalidatePage big) s = .next t ∧ t.mem = s.mem ∧ t.flag Reg.skpInvCtrl Fld.skpInvCtrlBusy = true ∧
          ∀ e, e ∈ t.hfTlb ↔ e ∈ s.hfTlb ∧
            e.va * 2 ^ e.shift / 2 ^ max sh e.shift ≠ va / 2 ^ max sh e.shift) ∧
    (∀ v, s.inval = some v → (∀ w ∈ v.waits, ∀ x ∈ (s.skip w.1).streams, ∀ g ∈ x.tags, g.id ≠ w.2) →
      ∃ t, exec .tlbInvalidateDone s = .next t ∧ t = { s with inval := none, regs := t.regs } ∧
        t.flag Reg.skpInvCtrl Fld.skpInvCtrlBusy = false) ∧
    (∀ v, ∃ t, exec (.skpShareWrite v) s = .next t ∧ t = { s with regs := t.regs } ∧ regsBut [Reg.skpShare, Reg.lmpBadAccessCnt] s t ∧
      t.reg Reg.skpShare = if bits v 23 16 + bits v 15 8 + bits v 7 0 = 10 then v % 2 ^ 24 else s.reg Reg.skpShare) ∧
    (∀ p k x g, p < 2 → k < 160 → s.stream? k x.id = some x → x.phase = .running →
      x.tags.find? (fun (t : Tag) => s.atPort p (t.src ++ t.dst) && t.since + s.cxlLimit ≤ s.ps) = some g →
      ∃ t, exec (.cxlRequestTimeout p k x.id) s = .next t ∧
        t.reg (Reg.cxlTimeoutCnt p) = (s.reg (Reg.cxlTimeoutCnt p) + 1) % 2 ^ 32 ∧
        t.reg (Reg.cxlErrCnt p) = (s.reg (Reg.cxlErrCnt p) + 1) % 2 ^ 32 ∧
        ∀ y ∈ (t.skip k).streams, y.id = x.id → (y.phase ≠ .running ∧ ∀ z ∈ y.tags, z.id ≠ g.id)) ∧
    (∀ p, p < 2 → s.up 6 = true → s.fld (Reg.cxlPortStat p) Fld.cxlPortStatState = 2 → (∀ e ∈ s.skips, e.2.streams = []) →
      ∃ t, exec (.cxlLinkDown p) s = .next t ∧ t.mem = s.mem ∧ t.skips = s.skips ∧
        t.fld (Reg.cxlPortStat p) Fld.cxlPortStatState = 3 ∧ t.flag Reg.lmpLampCause Fld.lmpLampCauseCxldown = true)

/-! ## The Benine fabric (11) -/

/-- R297, R299-R302, R306, R310: in the released fabric an adit in training takes what it learned of its peer and comes up or goes
down with its cause; an adit in service sends its next block, one of its replay buffer again, or with that buffer full its last block
once more, each byte on its lane; a bad block is dropped with a NAK and a good block in sequence is taken whole, its LCTL acted on; a
retraining begins, tries again, resumes or ends in RETRY, with the packets that were not started back at the head of the queues they
came from; a first failed lane waits for the frame boundary and a second takes the adit down; a trained spare restores four lanes. Of
another adit at most the flow states that follow from its buffer change, but where the clause says so. -/
def Obligations.LinksTrainAndCarry : Prop :=
  ∀ (s : State) (a : Nat), a < 24 → s.up 6 = true →
    let st := fun (t : State) => (t.fld (Reg.bnlPortStat a) Fld.bnlPortStatState, t.fld (Reg.bnlPortStat a) Fld.bnlPortStatCause)
    let ok := fun (t : State) => t.fld (Reg.bnlPortStat a) Fld.bnlPortStatLaneOk
    let alone := fun (t : State) => t.mem = s.mem ∧
      ∀ b, b ≠ a → t.adit b = { s.adit b with adaptOff := (t.adit b).adaptOff, escOff := (t.adit b).escOff }
    let width := if (st s).1 = 3 then 3 else 4
    let toSpare := fun (t : State) => s.flag (Reg.bnlPortStat a) Fld.bnlPortStatSpare = false → st t = (1, 0) ∧
      t.flag (Reg.bnlPortStat a) Fld.bnlPortStatSpare = true
    (∀ pn pa rtt lanes, (st s).1 = 1 → s.ring (aditDim a) ≠ 1 → rtt < 2 ^ 16 → lanes < 16 →
      ∃ t, exec (.aditTrain a pn pa rtt lanes) s = .next t ∧ t = { s with regs := t.regs, adits := t.adits } ∧ alone t ∧
        regsBut [Reg.bnlPortStat a] s t ∧ ok t = lanes ∧ t.fld (Reg.bnlPortStat a) Fld.bnlPortStatRtt = rtt ∧
        t.flag (Reg.bnlPortStat a) Fld.bnlPortStatSpare = decide (Store.get 0 s.spareLanes (a / 3) = a + 1) ∧
        let good := ((List.range 4).filter fun i => lanes.testBit i).length
        st t = if pn ≠ s.expectedPeer a ∨ pa ≠ aditOf (aditDim a) (1 - aditDir a) (a % 3) then (4, 5)
          else if s.fld Reg.bnlHeadroom Fld.bnlHeadroomKib * 1024 < rtt * 100 then (4, 3)
          else if good = 0 then (4, 1) else if good < 3 then (4, 4) else if good = 3 then (3, 0) else (2, 0)) ∧
    (s.aditUp a = true → (s.adit a).resend = none → (s.adit a).replay.length < 512 →
      ∃ t b, exec (.linkBlockSend a) s = .next t ∧ alone t ∧
        t.outbox = s.outbox ++ [.block a (onLanes width (b.bytes (s.adit a).rxSeq (t.adit a).fc))] ∧
        b.seq = (s.adit a).txSeq ∧ b.nak = (s.adit a).nak ∧ b.lctl = (s.adit a).lctl ∧ (t.adit a).replay = (s.adit a).replay ++ [b] ∧
        (t.adit a).txSeq = ((s.adit a).txSeq + 1) % 4096 ∧ (t.adit a).nak = false ∧ (t.adit a).lctl = 0 ∧
        (t.adit a).rx = (s.adit a).rx ∧ regsBut [Reg.bnlTxFlitCnt a, Reg.bnlPortStat a] s t ∧
        (b.lctl ≠ 2 → t.reg (Reg.bnlPortStat a) = s.reg (Reg.bnlPortStat a)) ∧ (b.lctl = 2 → toSpare t)) ∧
    (∀ i old, s.aditUp a = true → (s.adit a).replay[i]? = some old →
      ((s.adit a).resend = some i ∨ (s.adit a).resend = none ∧ 512 ≤ (s.adit a).replay.length ∧ i + 1 = (s.adit a).replay.length) →
      ∃ t b, exec (.linkBlockSend a) s = .next t ∧ alone t ∧
        t.outbox = s.outbox ++ [.block a (onLanes width (b.bytes (s.adit a).rxSeq (s.adit a).fc))] ∧
        b.seq = old.seq ∧ b.flits = old.flits ∧ b.sop = old.sop ∧ b.idle = old.idle ∧
        (t.adit a).replay = (s.adit a).replay.set i b ∧ t.reg (Reg.bnlRetryCnt a) = (s.reg (Reg.bnlRetryCnt a) + 1) % 2 ^ 32 ∧
        (t.adit a).resend = if (s.adit a).resend = some i ∧ i + 1 < (s.adit a).replay.length then some (i + 1) else none) ∧
    (∀ w n, s.aditUp a = true → ∃ t, exec (.linkBlockReceive a w n false) s = .next t ∧ alone t ∧
      t.adit a = { s.adit a with nak := true, dropping := true } ∧
      t.reg (Reg.bnlFecUncCnt a) = (s.reg (Reg.bnlFecUncCnt a) + 1) % 2 ^ 32 ∧
      t.reg (Reg.bnlFecCorrCnt a) = (s.reg (Reg.bnlFecCorrCnt a) + n) % 2 ^ 32) ∧
    (∀ w n, s.aditUp a = true → (s.adit a).rxSeq < 4096 → getBytes w 524 4 = crc32c (w % 2 ^ (8 * 524)) 524 →
      getBytes w 512 2 % 4096 = ((s.adit a).rxSeq + 1) % 4096 →
      ∃ t, exec (.linkBlockReceive a w n true) s = .next t ∧ t.mem = s.mem ∧
        (t.adit a).rxSeq = ((s.adit a).rxSeq + 1) % 4096 ∧ (t.adit a).dropping = false ∧ (t.adit a).nak = false ∧
        (t.adit a).replay.map (·.seq) = (dropAcked (getBytes w 514 2 % 4096) (s.adit a).replay).map (·.seq) ∧
        (t.adit a).peerOn = getBytes w 516 4 ∧
        (let fl := ((List.range 8).filter fun i => !(getBytes w 523 1).testBit i).map fun i =>
           ((getBytes w 522 1).testBit i, getBytes w (64 * i) 64)
         (t.adit a).rx.map (·.pkt) = (s.adit a).rx.map (·.pkt) ++ (takeFlits (s.adit a).part fl).2 ∧
           t.reg (Reg.bnlRxFlitCnt a) = (s.reg (Reg.bnlRxFlitCnt a) + fl.length) % 2 ^ 32) ∧
        (getBytes w 520 1 ≠ 1 → alone t) ∧
        (getBytes w 520 1 = 1 → getBytes w 521 1 < 4 → Store.get 0 s.spareLanes (a / 3) = 0 →
          alone t ∧ (t.adit a).lctl = 2 ∧ (t.adit a).larg = getBytes w 521 1 ∧ Store.get 0 t.spareLanes (a / 3) = a + 1) ∧
        (getBytes w 520 1 = 2 → Store.get 0 s.spareLanes (a / 3) = a + 1 → toSpare t)) ∧
    (s.aditUp a = true → 8 ≤ (s.adit a).fails ∨ (s.adit a).peerRetrain = true →
      ∃ t, exec (.aditRetrain a) s = .next t ∧ alone t ∧ st t = (1, 0) ∧ (t.adit a).attempts = 1 ∧
        t.reg (Reg.bnlRetrainCnt a) = (s.reg (Reg.bnlRetrainCnt a) + 1) % 2 ^ 32) ∧
    (∀ good, (st s).1 = 1 → (s.adit a).attempts ≠ 0 → ∃ t, exec (.retrainAttemptEnd a good) s = .next t ∧ t.mem = s.mem ∧
      if good = true then alone t ∧ st t = (if ok s = 15 then 2 else 3, 0) ∧ (t.adit a).attempts = 0 ∧ (t.adit a).fails = 0 ∧
        (t.adit a).resend = if (s.adit a).replay = [] then none else some 0
      else if (s.adit a).attempts < 3 then alone t ∧ st t = st s ∧ (t.adit a).attempts = (s.adit a).attempts + 1 ∧
        t.reg (Reg.bnlRetrainCnt a) = (s.reg (Reg.bnlRetrainCnt a) + 1) % 2 ^ 32
      else
        let back := fun (p : Option Nat) =>
          ((s.adit a).queue.filter fun q => decide (q.port = p)).map fun q => ({ q with since := none } : QPkt)
        st t = (4, 2) ∧ (t.adit a).replay = [] ∧ (t.adit a).queue = [] ∧ t.inject = back none ++ s.inject ∧
        (∀ b, (t.adit b).rx = back (some b) ++ (s.adit b).rx) ∧ (∀ b, b ≠ a → (t.adit b).queue = (s.adit b).queue) ∧
        t.reg Reg.bnlLostCnt = (s.reg Reg.bnlLostCnt + (s.adit a).inFlight) % 2 ^ 32) ∧
    (∀ l, l < 4 → s.aditUp a = true → (ok s).testBit l = true → ∃ t, exec (.laneFail a l) s = .next t ∧ t.mem = s.mem ∧
      if ok s = 15 then alone t ∧ st t = st s ∧ ok t = 15 - 2 ^ l ∧ t.adit a = { s.adit a with lanePending := true }
      else st t = (4, 4) ∧ (t.adit a).replay = []) ∧
    (∀ good, (st s).1 = 1 → (s.adit a).attempts = 0 → s.flag (Reg.bnlPortStat a) Fld.bnlPortStatSpare = true →
      ∃ t, exec (.laneSpareTrained a good) s = .next t ∧ t = { s with regs := t.regs } ∧ regsBut [Reg.bnlPortStat a] s t ∧
        if good = true then st t = (2, 0) ∧ ok t = 15 else st t = (3, 0) ∧ ok t = ok s)

/-- R304, R308, R310-R320: the packet at the head of a gallery queue that no arrived packet waits in is dropped and counted when its
class does not carry its kind, replicated into its copies when it is multicast, delivered at its node, where it keeps its place, and
otherwise put on the adaptive output that the tables of its epoch name; without any output it is held and counted, and a held one stays;
a packet that has waited BNL_ESC_WAIT cycles takes the escape path; ROUTE_ARM arms the free bank unless the other is armed or draining,
entries of a bank that is not free are not written, a drained bank is free, and headroom and marks stay within 384 KiB. -/
def Obligations.PacketsAreRouted : Prop :=
  (∀ (s : State) (port : Option Nat) (gal : Nat) (esc : Bool) (q : QPkt), s.headPacket port gal esc = some q →
    s.blocked port q = false →
    let gone := fun (t : State) => t.queueAt port = replaceFirst q [] (s.queueAt port) ∧ t.mem = s.mem
    (kindAllows q.pkt.kind q.pkt.cls = false → ∃ t, exec (.packetRoute port gal esc) s = .next t ∧ gone t ∧
      t.arrived = s.arrived ∧ t.reg Reg.bnlNorouteCnt = (s.reg Reg.bnlNorouteCnt + 1) % 2 ^ 32) ∧
    (∀ a, kindAllows q.pkt.kind q.pkt.cls = true → q.pkt.mcast = true → q.way = none → q.port = some a →
      ∃ t, exec (.packetRoute port gal esc) s = .next t ∧ t.mem = s.mem ∧ t.regs = s.regs ∧
        let r := s.onward (bits q.pkt.dst 5 0) a
        t.arrived = s.arrived ++ (if r.2 then [q] else []) ∧
        t.queueAt port = replaceFirst q (r.1.map fun w => { q with way := some w }) (s.queueAt port)) ∧
    (kindAllows q.pkt.kind q.pkt.cls = true → q.pkt.mcast = false → s.atNode q.pkt.dst = true →
      ∃ t, exec (.packetRoute port gal esc) s = .next t ∧ gone t ∧ t.arrived = s.arrived ++ [q] ∧ t.regs = s.regs) ∧
    (∀ b, kindAllows q.pkt.kind q.pkt.cls = true → (if q.pkt.mcast = true then q.way ≠ none else s.atNode q.pkt.dst = false) →
      s.bankFor q.pkt.repoch = some b → (s.queueAt port).filter (fun y => y.buf = q.buf) = [q] →
      (q.held = true → exec (.packetRoute port gal esc) s = .next s) ∧
      (q.held = false → q.pkt.esc = false →
        (∀ a, s.adaptive q (s.allowedAdits b q.pkt.dst) = some a → q.pkt.hops + 1 < 64 →
          ∃ t, exec (.packetRoute port gal esc) s = .next t ∧ gone t ∧ t.arrived = s.arrived ∧ t.regs = s.regs ∧
            (t.adit a).queue = (s.adit a).queue ++ [q]) ∧
        (s.allowedAdits b q.pkt.dst = [] → s.escape b q = none →
          ∃ t, exec (.packetRoute port gal esc) s = .next t ∧ t.mem = s.mem ∧ t.arrived = s.arrived ∧
            t.queueAt port = replaceFirst q [{ q with held := true }] (s.queueAt port) ∧
            t.reg Reg.bnlNorouteCnt = (s.reg Reg.bnlNorouteCnt + 1) % 2 ^ 32))) ∧
    (∀ t0, esc = false → q.since = some t0 → max 1 (s.fld Reg.bnlEscWait Fld.bnlEscWaitCycles) ≤ s.cycle - t0 →
      ∃ t, exec (.escWaitExpiry port gal) s = .next t ∧ t.mem = s.mem ∧ t.regs = s.regs ∧
        t.queueAt port = replaceFirst q [{ q with pkt := { q.pkt with esc := true } }] (s.queueAt port))) ∧
  (∀ s : State, s.up 6 = true →
    let busy := s.flag Reg.bnlRouteStat Fld.bnlRouteStatArmed || s.flag Reg.bnlRouteStat Fld.bnlRouteStatDrain
    (∃ t, exec .routeArm s = .next t ∧ t = { s with regs := t.regs } ∧ regsBut [Reg.bnlRouteStat] s t ∧
      (busy = true → t = s) ∧ (busy = false → t.flag Reg.bnlRouteStat Fld.bnlRouteStatArmed = true ∧
        t.fld Reg.bnlRouteStat Fld.bnlRouteStatBank = s.fld Reg.bnlRouteStat Fld.bnlRouteStatBank)) ∧
    (∀ off val b, entryBank off = some b → off % 4 = 0 → ∃ t, exec (.routeEntryWrite off val) s = .next t ∧
      t = { s with regs := t.regs, wrote := t.wrote } ∧ regsBut [off] s t ∧
      t.reg off = if busy = true ∨ s.fld Reg.bnlRouteStat Fld.bnlRouteStatBank = b then s.reg off else val % 2 ^ 32) ∧
    (s.flag Reg.bnlRouteStat Fld.bnlRouteStatDrain = true →
      s.epochPackets ((s.fld Reg.bnlRouteStat Fld.bnlRouteStatCurrent + 255) % 256) = 0 →
      ∃ t, exec .routeBankDrainEnd s = .next t ∧ t = { s with regs := t.regs, wrote := t.wrote } ∧
        regsBut [Reg.bnlRouteStat] s t ∧ t.flag Reg.bnlRouteStat Fld.bnlRouteStatDrain = false) ∧
    (∀ g v, g < 16 → ∃ t, exec (.galMarkWrite g v) s = .next t ∧ t = { s with regs := t.regs } ∧
      regsBut [Reg.bnlGalMark g, Reg.lmpBadAccessCnt] s t ∧
      t.reg (Reg.bnlGalMark g) =
        if 384 < s.marksWith g (bits v 15 8) + 96 + s.fld Reg.bnlHeadroom Fld.bnlHeadroomKib ∨ bits v 15 8 ≤ bits v 7 0 then
          s.reg (Reg.bnlGalMark g)
        else v % 2 ^ 16) ∧
    (∀ v, ∃ t, exec (.headroomWrite v) s = .next t ∧ t = { s with regs := t.regs } ∧
      regsBut [Reg.bnlHeadroom, Reg.lmpBadAccessCnt] s t ∧
      t.reg Reg.bnlHeadroom = if 384 < s.marksWith 16 0 + 96 + v % 2 ^ 9 then s.reg Reg.bnlHeadroom else v % 2 ^ 9))

/-- R321-R325: a counted packet of another tally epoch is discarded and counted; one that finds the completion table full waits in its
gallery; the one packet of a WRITE transfer that its address takes puts its payload there, signals its tally and is acknowledged; an
XACK completes the transfer it names and an XNAK stops its stream; one of another epoch is discarded and counted. A packet taken or
discarded leaves those that have arrived. -/
def Obligations.TransfersAreCounted : Prop :=
  ∀ (s : State) (p : Packet),
    (∀ q, s.arrived.find? (fun q => q.pkt = p) = some q → (s.consume p).arrived = s.arrived.erase q) ∧
    (p.tepoch ≠ s.epoch → ∀ i, (p.kind = 1 ∧ i = .countedPacketArrive p) ∨ (p.kind = 3 ∧ i = .xackArrive p) ∨
        (p.kind = 4 ∧ i = .xnakArrive p) →
      ∃ t, exec i s = .next t ∧ t = { s.consume p with regs := t.regs } ∧
        regsBut [Reg.bnlStaleXferCnt] s t ∧ t.reg Reg.bnlStaleXferCnt = (s.reg Reg.bnlStaleXferCnt + 1) % 2 ^ 32) ∧
    (p.tepoch = s.epoch → p.kind = 1 ∨ p.kind = 5 ∨ p.kind = 6 → s.cpl? p = none → 4096 ≤ s.cpl.length →
      exec (.countedPacketArrive p) s = .next ((s.stand p).waitOn (.packet p) .completion)) ∧
    (∀ s1 pa, p.tepoch = s.epoch → p.kind = 1 → s.cpl? p = none → s.cpl.length < 4096 → p.prov = false → p.mcast = false →
      p.poison = false → p.last = true → p.count = 1 → 0 < p.plen → s.snapshot = none → p.rsig = true →
      (s.arrived.any fun q => q.pkt = p && q.seen) = false →
      p.rtally < 2 ^ 16 → s1.tally p.rtally + 1 < 2 ^ 32 → s1.marks = [] →
      (((s.stand p).openCpl p).arrive p).devRuns none p.addr p.plen true = (s1, .ok [(pa, p.plen)]) → s1.paKind pa ≠ .control →
      s1.postReach pa p.plen = none →
      ∃ t, exec (.countedPacketArrive p) s = .next t ∧ t.arrived = (s1.consume p).arrived ∧
        t.readLE pa p.plen = p.payload % 2 ^ (8 * p.plen) ∧ (∀ x, ¬(pa ≤ x ∧ x < pa + p.plen) → t.byte x = s1.byte x) ∧
        t.tally p.rtally = s1.tally p.rtally + 1 ∧ t.cpl? p = none ∧
        ∃ q, t.inject = s1.inject ++ [q] ∧ q.pkt.kind = 3 ∧ q.pkt.dst = p.src ∧ q.pkt.xfer = p.xfer) ∧
    (∀ k x, p.tepoch = s.epoch → s.xfers.find? (fun (y : Xfer) => y.xfer = p.xfer) = none → s.streamOf p.xfer = some (k, x) →
      (p.kind = 3 → ∃ t, exec (.xackArrive p) s = .next t ∧ t.mem = s.mem ∧ t.regs = s.regs ∧ t.arrived = (s.consume p).arrived ∧
        ∀ y ∈ (t.skip k).streams, y.id = x.id → y.acked = true ∧ y.tags = []) ∧
      (p.kind = 4 → ∀ d, x.desc = some d → d.ctally < 2 ^ 16 → k < 160 → (∀ a b c, x.use ≠ .merge a b c) →
        ∃ t, exec (.xnakArrive p) s = .next t ∧ t.arrived = (s.consume p).arrived ∧
          t.reg (Reg.skpErrCnt k) = (s.reg (Reg.skpErrCnt k) + 1) % 2 ^ 32))

/-! ## Hoist, riffle and smelter (12-14) -/

/-- R335, R336, R348-R350, R352, R357: a COLLECTIVE of a closed, sound bucket opens it and musters in it, MUSTER = 2 as a tailing; the
deadline excludes a member that has opened the bucket and not mustered; a reduce bucket whose blocks are all final is delivered with
its counts, and a whole gather completes; HST_BTAB_BASE is written only while no bucket is open. -/
def Obligations.BucketsOpenAndDeliver : Prop :=
  (∀ (n : Nat) (s s1 s2 s3 : State) (c : Command) (e : Nat) (src dest : TensorDesc), s.engineHead n 0x11 c → c.get 18 1 < 3 → c.get 19 1 = 0 → c.get 28 36 = 0 →
    c.get 16 2 < 4096 → s.readBucketEntry (c.get 16 2) = (s1, .ok (e, false)) → s1.entryOk e = true →
    s1.readDescs [c.get 20 8, getBytes e 8 8] = (s2, [src, dest], []) → s2.entryOk e = true → collectiveFits e [src, dest] = true →
    (∀ h ∈ s.shafts, ∀ x ∈ h.2.started, ¬(x.cmd.op = 0x11 ∧ x.cmd.get 16 2 = c.get 16 2)) →
    s2.anyFrozen (collectiveSpans e dest (s2.membersOf e)) = false → s2.bucket? (c.get 16 2) = none → s2.buckets.length < 64 →
    s2.openBucket (c.get 16 2) e ((s2.shaft n).step.getD noStep) = (s3, .ok ()) →
    ∃ t b x, exec (.collective n) s = .next t ∧ t.bucket? (c.get 16 2) = some b ∧ b.cmd = some (n, c.id) ∧ b.src = some src ∧
      b.dest = some dest ∧ b.entry = e ∧ b.muster = s3.frame % 2 ^ 32 ∧ x ∈ (t.shaft n).started ∧ x.cmd = c ∧
      let out := c.get 18 1 = 2 ∧ b.gather = false
      (b.included = some true ↔ ¬out) ∧
      t.reg Reg.hstTailingsCnt = if out then (s3.reg Reg.hstTailingsCnt + 1) % 2 ^ 32 else s3.reg Reg.hstTailingsCnt) ∧
  (∀ (n f : Nat) (s : State) (b : Bucket), s.bucket? n = some b → b.f0 = some f → b.included = none → b.gather = false →
    f + b.deadline ≤ s.frame → s.frame < 2 ^ 31 → (f + b.deadline < s.frame ∨ s.bcycle < s.cycle) →
    (∀ h ∈ s.shafts, ∀ c ∈ h.2.decoded, ¬(c.op = 0x11 ∧ c.get 16 2 = n ∧ c.get 18 1 = 1)) →
    ∃ t d, exec (.bucketDeadline n) s = .next t ∧ t.bucket? n = some d ∧ d.included = some false) ∧
  (∀ (n sh cmd : Nat) (s s0 s1 s2 s3 : State) (b : Bucket) (t0 : TensorDesc) (d : Delivery), s.pumpHoist n = s0 →
    s0.bucket? n = some b → b.cmd = some (sh, cmd) → b.dest = some t0 → b.failed = false → b.delivered = false → b.stage = none →
    b.gather = false → s0.snapshot = none → b.num = n → s0.deliverBlocks b t0 (List.range b.size) ⟨[], []⟩ = (s1, .ok d) →
    (if b.kind = 0 ∧ b.get 30 1 = 2 then s1.devWrite none (t0.base + b.blockBytes * b.size) 8 b.total else (s1, .ok ())) =
      (s2, .ok ()) →
    s3 = (if b.convertsOut = true then s2.assayStore none t0 1 d.stored else s2) → s3.bucket? n = some b →
    ∃ t y, exec (.bucketDeliver n) s = .next t ∧ t.mem = s3.mem ∧
      t.reg Reg.hstBucketCnt = (s3.reg Reg.hstBucketCnt + 1) % 2 ^ 32 ∧
      t.reg Reg.hstExcludedCnt = (s3.reg Reg.hstExcludedCnt + (s3.membersOf b.entry - b.total)) % 2 ^ 32 ∧
      t.bucket? n = some y ∧ y.delivered = true ∧
      ∀ x ∈ (t.shaft sh).started, x.cmd.id = cmd → x.state = .done) ∧
  (∀ (n sh cmd : Nat) (s s0 : State) (b : Bucket) (t0 : TensorDesc), s.pumpHoist n = s0 → s0.bucket? n = some b →
    b.cmd = some (sh, cmd) → b.dest = some t0 → b.failed = false → b.delivered = false → b.num = n → b.gather = true →
    s0.whole b = true → s0.doneDue b = none → (0 ∈ b.dims → ∀ c ∈ s0.wPeers, c ∈ b.doneFrom) →
    ∃ t y, exec (.bucketDeliver n) s = .next t ∧ t.mem = s0.mem ∧
      t.reg Reg.hstBucketCnt = (s0.reg Reg.hstBucketCnt + 1) % 2 ^ 32 ∧ t.bucket? n = some y ∧ y.delivered = true ∧
      ∀ x ∈ (t.shaft sh).started, x.cmd.id = cmd → x.state = .done) ∧
  (∀ (hi : Bool) (v : Nat) (s : State), s.up 5 = true → ∃ t, exec (.btabBaseWrite hi v) s = .next t ∧
    t = { s with regs := t.regs } ∧ regsBut [if hi then Reg.hstBtabBase1 else Reg.hstBtabBase0, Reg.lmpBadAccessCnt] s t ∧
    (s.buckets ≠ [] → t = s.noteReserved (if hi then Reg.hstBtabBase1 else Reg.hstBtabBase0) v) ∧
    (s.buckets = [] → if hi = true then t.reg Reg.hstBtabBase1 = v % 2 ^ 25
      else t.reg Reg.hstBtabBase0 = v % 2 ^ 32 - v % 2 ^ 18))

/-- R363-R366, R369-R373, R376: a sound DISPATCH or COMBINE of an entry with no open operation opens one under its command; a TEACH
of no tokens is done at once and one with tokens opens its operation; with every census in, XCNT and SMAP are written and the choices are kept or dropped by rank; with
every verdict in, AMASK is written; a returned piece is added, and one of a refused transfer only counts; with every return added, the
images are converted; RFL_TAB_BASE is
written only while no operation is open. -/
def Obligations.RiffleOperationsRun : Prop :=
  (∀ (n : Nat) (s s1 s2 : State) (c : Command) (e : Nat) (t0 : TensorDesc), rflSound n 1 s s1 s2 c e t0 →
    ∃ t, exec (.riffleDispatch n) s = .next t ∧ rflOpened n 1 c e t) ∧
  (∀ (n : Nat) (s s1 s2 : State) (c : Command) (e : Nat) (t0 : TensorDesc), rflSound n 2 s s1 s2 c e t0 →
    ∃ t, exec (.riffleCombine n) s = .next t ∧ rflOpened n 2 c e t) ∧
  (∀ (n : Nat) (s : State) (c : Command), s.engineHead n 0x12 c → c.get 18 1 = 3 → c.get 16 2 = 0 → c.get 19 1 = 0 →
    (c.get 36 4 < 2 ^ 18 ∨ 2 ^ 24 ≤ c.get 36 4 ∧ c.get 36 4 < 2 ^ 24 + 64) → c.get 45 1 = 0 → c.get 48 16 = 0 →
    c.get 20 8 % 4 = 0 → c.get 28 8 % 4 = 0 → 0 < c.get 44 1 → c.get 44 1 ≤ 16 → s.riffles = [] →
    (c.get 40 4 = 0 → ∃ t x, exec (.riffleTeach n) s = .next t ∧ t.mem = s.mem ∧
      (t.shaft n).started = (s.shaft n).started ++ [x] ∧ x.cmd = c ∧ x.state = .done ∧
      t.reg Reg.rflTeachCnt = (s.reg Reg.rflTeachCnt + 1) % 2 ^ 32) ∧
    (c.get 40 4 ≠ 0 → ∃ t x y, exec (.riffleTeach n) s = .next t ∧ t.riffles = [x] ∧ x.oper = 3 ∧ x.cmd = some (n, c.id) ∧
      x.raw = c.raw ∧ y ∈ (t.shaft n).started ∧ y.cmd = c ∧ t.fld Reg.rflOpen Fld.rflOpenOps = 1)) ∧
  (∀ (n : Nat) (s : State) (o : Riffle), s.riffles = [o] → o.num = n → s.snapshot = none → o.failed = false → o.cmd.isSome = true →
    (∀ s1, o.oper = 1 → o.decided = false → s.rflMembers o.entry ≤ o.censusFrom.length →
      let l := decideChoices o.cap o.census
      let kept := l.filter (·.kept)
      s.writeAll ((List.range o.epm).map (fun x => (o.get 40 8 + 4 * x, 4, (kept.filter (·.expert = x)).length)) ++
        kept.map fun a => (o.get 32 8 + 16 * (a.expert * o.cap + a.slot), 16,
          packFields [(4, a.token), (2, a.member), (1, a.j), (9, 0)])) = (s1, .ok ()) → s1.riffles = [o] →
      ∃ t y, exec (.capacityDecide n) s = .next t ∧ t.riffles = [y] ∧ y.decided = true ∧ y.census = l ∧
        t.reg Reg.rflKeptCnt = (s1.reg Reg.rflKeptCnt + kept.length) % 2 ^ 32 ∧
        t.reg Reg.rflDropCnt = (s1.reg Reg.rflDropCnt + (o.census.length - kept.length)) % 2 ^ 32) ∧
    (∀ s1, o.oper = 1 → o.masked = false → s.rflMembers o.entry ≤ o.verdictFrom.length →
      s.writeAll ((List.range o.tokens).map fun t => (o.get 48 8 + 2 * t, 2,
        ((o.verdicts.filter fun v => v.kept && v.token = o.tbase + t).map fun v => 2 ^ v.j).foldl (· ||| ·) 0)) = (s1, .ok ()) →
      s1.riffles = [o] →
      ∃ t y, exec (.riffleRowsSend n) s = .next t ∧ t.riffles = [y] ∧ y.masked = true ∧ y.verdicts = o.verdicts) ∧
    (∀ p l, o.oper = 2 → o.held = p :: l → (s.cpl? p).any (·.refused) = true →
      exec (.returnAccumulate n) s = .next ((s.modRfl o.id fun o => { o with held := l }).countPacket p)) ∧
    (∀ p l s1 o1, o.oper = 2 → o.held = p :: l → (s.cpl? p).any (·.refused) = false →
      ((s.waitDone (.riffle o.id 2)).modRfl o.id fun o => { o with held := l }).addPiece o p = (s1, .ok ()) →
      s1.riffles = [o1] → o1.id = o.id → o1.held = l → o1.added = o.added →
      ∃ t y, exec (.returnAccumulate n) s = .next t ∧ t.riffles = [y] ∧ y.held = l ∧ y.added = o.added + (p.plen - 40) ∧
        t.mem = s1.mem) ∧
    (∀ s1 s3 s4 k t0 imgs b, o.oper = 2 → o.converted = false → o.held = [] → s.expected o = (s1, .ok k) → o.outd = some t0 →
      k * o.row ≤ o.added → s1.snapshot = none →
      let count := o.tokens * rflH o.entry
      let addrs := (List.range count).map fun i => o.get 56 8 + 96 * i
      s1.readEach 96 addrs = (s3, .ok (imgs, b)) →
      let bad := (List.range count).filter fun i => s3.imageMarked (o.get 56 8 + 96 * i)
      s3.combineOut o t0 (((imgs.zip (List.range count)).filter fun x => !bad.contains x.2).map fun x =>
          (x.2, (LodeAcc.ofImage 2 x.1).1.source 2 0)) bad (if (o.get 86 1).testBit 1 then addrs else []) = (s4, .ok ()) →
      s4.riffles = [o] →
      ∃ t y, exec (.combineConvert n) s = .next t ∧ t.riffles = [y] ∧ y.converted = true ∧ t.mem = s4.mem)) ∧
  (∀ (hi : Bool) (v : Nat) (s : State), s.up 5 = true → ∃ t, exec (.rflTabBaseWrite hi v) s = .next t ∧
    t = { s with regs := t.regs } ∧ regsBut [if hi then Reg.rflTabBase1 else Reg.rflTabBase0, Reg.lmpBadAccessCnt] s t ∧
    (s.riffles ≠ [] → t = s.noteReserved (if hi then Reg.rflTabBase1 else Reg.rflTabBase0) v) ∧
    (s.riffles = [] → if hi = true then t.reg Reg.rflTabBase1 = v % 2 ^ 25
      else t.reg Reg.rflTabBase0 = v % 2 ^ 32 - v % 2 ^ 17))

/-- R381, R384-R387, R391, R392, R394, R395: a sound SMELT with no SMELT in progress starts on its block, an UPDATE at the anchor
lowered by PEND, a REBASE at the anchor changed by DELTA; an UPDATE of a step that the header already holds is skipped and counted; an element's update adds the rounded d and saturates, and changes nothing
when it is not finite; a chunk that computes without a marked word and that its addresses take is written and the next one is due; a
mismatch recomputes the chunk once and a second one fails the command; a SMELT whose chunks are written rewrites its header, counts and ends. -/
def Obligations.SmeltsRun : Prop :=
  (∀ (n : Nat) (s s1 s2 s3 : State) (c : Command) (b p h : Nat) (ts : List TensorDesc) (d : SmeltDescs),
    smeltSound n 1 s s1 s2 s3 c b p h ts d → getBytes h 16 8 < ((s2.shaft n).step.getD noStep).num →
    ∃ t, exec (.smeltUpdate n) s = .next t ∧ t.mem = s3.mem ∧ smeltOpened n 1 c b h d t) ∧
  (∀ (n : Nat) (s s1 s2 s3 : State) (c : Command) (b p h : Nat) (ts : List TensorDesc) (d : SmeltDescs),
    smeltSound n 2 s s1 s2 s3 c b p h ts d →
    ∃ t, exec (.smeltInit n) s = .next t ∧ t.mem = s3.mem ∧ smeltOpened n 2 c b h d t) ∧
  (∀ (n : Nat) (s s1 s2 s3 : State) (c : Command) (b p h : Nat) (ts : List TensorDesc) (d : SmeltDescs),
    smeltSound n 3 s s1 s2 s3 c b p h ts d →
    ∃ t, exec (.smeltRebase n) s = .next t ∧ t.mem = s3.mem ∧ smeltOpened n 3 c b h d t) ∧
  (∀ (n : Nat) (s s1 s2 s3 : State) (c : Command) (b p h : Nat) (ts : List TensorDesc) (d : SmeltDescs) (id : StepId),
    smeltSound n 1 s s1 s2 s3 c b p h ts d → (s2.shaft n).step = some id → id.seq = s2.seqNo → id.num ≤ getBytes h 16 8 →
    ∃ t y, exec (.smeltUpdate n) s = .next t ∧ t.mem = s2.mem ∧ t.smelts = s2.smelts ∧
      t.reg Reg.dptReplaySkipCnt = (s2.reg Reg.dptReplaySkipCnt + 1) % 2 ^ 32 ∧
      t.reg Reg.smlUpdateCnt = (s2.reg Reg.smlUpdateCnt + 1) % 2 ^ 32 ∧ y ∈ (t.shaft n).started ∧ y.cmd = c ∧ y.state = .done) ∧
  (∀ (x : Smelt) (ops : List MicroOp) (v : Int) (g : Val) (sts : List Val) (draw : Nat), -(2 ^ 63) ≤ v → v < 2 ^ 63 →
    let r := x.element ops v g sts draw
    (r.nonfin = true → r.d = 0 ∧ r.val = v ∧ r.lost = false) ∧
    (r.nonfin = false → r.val = max (-(2 ^ 63)) (min (2 ^ 63 - 1) (v + r.d)) ∧ (r.sat = true ↔ r.val ≠ v + r.d) ∧
      (r.lost = true → r.d = 0 ∧ r.val = v))) ∧
  (∀ (id : Nat) (s : State) (x : Smelt), s.smelts = [x] → x.id = id → x.chunk < x.chunks → x.oper = 3 →
    s.smeltCovers x = [] → s.poisonOf x.step = none → s.cowHeld x.chunkSpans = [] →
    ∀ s1 w, s.readInts x x.range.1 x.range.2 = (s1, .ok (w, false)) → s1.smelts = [x] →
      (x.retried = false → ∃ t, exec (.smeltChunk id true) s = .next t ∧ t.mem = s1.mem ∧ t.smelts = [{ x with retried := true }] ∧
        t.reg Reg.smlRetryCnt = (s1.reg Reg.smlRetryCnt + 1) % 2 ^ 32) ∧
      (x.retried = true → ∃ t, exec (.smeltChunk id true) s = .next t ∧ t.mem = s1.mem ∧ t.smelts = [] ∧
        t.reg Reg.smlFailCnt = (s1.reg Reg.smlFailCnt + 1) % 2 ^ 32) ∧
      (∀ s2, s1.writeInts x x.range.1 ((List.range x.range.2).map fun i =>
          (rebaseElem x.delta (sext 64 (getBytes w (8 * i) 8))).val) = (s2, .ok ()) → s2.smelts = [x] →
        ∃ t y, exec (.smeltChunk id false) s = .next t ∧ t.mem = s2.mem ∧ t.smelts = [y] ∧ y.chunk = x.chunk + 1 ∧
          y.writing = true ∧ y.retried = false ∧ y.anchor = x.anchor)) ∧
  (∀ (id : Nat) (s s1 s2 s3 : State) (x : Smelt) (a : Int) (outs : List ElemOut), s.smelts = [x] → x.id = id →
    x.chunk < x.chunks → s.smeltCovers x = [] → s.poisonOf x.step = none → s.cowHeld x.chunkSpans = [] →
    (if x.chunk = 0 then s.beforeChunks x else (s, .ok x.anchor)) = (s1, .ok a) →
    s1.computeChunk { x with anchor := a } = (s2, .ok (outs, false)) →
    s2.writeChunk { x with anchor := a } outs = (s3, .ok ()) → s3.smelts = [x] →
    ∃ t, exec (.smeltChunk id false) s = .next t ∧ t.mem = s3.mem ∧
      t.smelts = [Smelt.after { x with anchor := a } outs]) ∧
  (∀ (id : Nat) (s s1 : State) (x : Smelt), s.smelts = [x] → x.id = id → x.chunks ≤ x.chunk →
    (x.writing = true ∨ s.smeltCovers x = [] ∧ s.poisonOf x.step = none) → s.cowWaits x.seam 64 = false →
    s.devWrite none x.seam 64 x.newHeader = (s1, .ok ()) → s1.smelts = [x] →
    ∃ t, exec (.smeltFinish id) s = .next t ∧ t.mem = s1.mem ∧ t.smelts = [] ∧
      t.reg Reg.smlUpdateCnt = (s1.reg Reg.smlUpdateCnt + 1) % 2 ^ 32 ∧
      t.reg Reg.smlRebaseCnt = (if x.shift ≠ 0 ∨ x.oper = 3 then (s1.reg Reg.smlRebaseCnt + 1) % 2 ^ 32
        else s1.reg Reg.smlRebaseCnt) ∧
      ∀ y ∈ (t.shaft x.shaft).started, y.cmd.id = x.cmd → y.state = .done)

/-! ## Deputy, seals and strongroom (15) -/

/-- R404, R411-R417, R423, R426, R428: a write to DPT_CTRL leaves LEVEL to the next boundary; an own ticket resolves GOOD or BAD and a
BAD one poisons its step; a verdict frees the held ticket it names; a POISON message poisons its step; late commits and canaries are
counted, forced and fenced; the pack's addresses and window are held while it is active; a blocked step is released or poisoned. -/
def Obligations.DeputyJudges : Prop :=
  ∀ s : State, s.up 1 = true →
    let gone := fun (id : Nat) (t : State) => t.mem = s.mem ∧ ∀ u ∈ t.tickets, u.id ≠ id
    let poisons := fun (id : StepId) (t : State) => (t.poisonOf id).isSome = true
    (∀ v, ∃ t, exec (.dptCtrlWrite v) s = .next t ∧ t = { s with regs := t.regs, wrote := t.wrote, levelNext := t.levelNext } ∧
      regsBut [Reg.dptCtrl, Reg.lmpBadAccessCnt] s t ∧ t.checkLevel = s.checkLevel ∧ t.reg Reg.dptCtrl / 4 = v / 4 % 16 ∧
      t.levelNext = if v % 4 = 3 then s.levelNext else some (v % 4)) ∧
    (∀ id u r, s.tickets.find? (fun x => x.id = id) = some u → u.own = true → u.joined = [] → u.waitTile = none → u.depBad = none →
      (∀ x ∈ s.tickets, id ∉ x.joined) → u.step.seq = s.seqNo → s.step? u.step = some r → r.unsealed = true →
      (u.outcome = some none → u.deps = [] → ∃ t, exec (.ticketResolve id) s = .next t ∧ gone id t ∧
        t.reg Reg.dptVerdictGoodCnt = (s.reg Reg.dptVerdictGoodCnt + 1) % 2 ^ 32 ∧ t.poisonOf u.step = s.poisonOf u.step) ∧
      (∀ c, u.outcome = some (some c) → ∃ t, exec (.ticketResolve id) s = .next t ∧ gone id t ∧ poisons u.step t)) ∧
    (∀ p u r, p.tepoch = s.epoch → getBytes p.payload 0 1 = 1 → getBytes p.payload 1 1 = 1 →
      s.tickets.find? (fun x => decide (x.id = getBytes p.payload 16 8) && !x.own) = some u → (∀ x ∈ s.tickets, x.id = u.id → x = u) →
      u.step.seq = s.seqNo → s.step? u.step = some r → r.unsealed = true →
      ∃ t, exec (.verdictArrive p) s = .next t ∧ t.arrived = (s.consume p).arrived ∧
        (getBytes p.payload 24 1 = 1 → gone u.id t ∧ t.regs = (s.setFld Reg.dptUnresolved Fld.dptUnresolvedTickets t.tickets.length).regs) ∧
        (getBytes p.payload 24 1 = 2 → gone u.id t ∧ poisons u.step t)) ∧
    (∀ p r id, id = ⟨s.seqNo, getBytes p.payload 8 8⟩ → p.tepoch = s.epoch → getBytes p.payload 0 1 = 2 → s.step? id = some r →
      r.unsealed = true → r.poison = none →
      ∃ t, exec (.poisonArrive p) s = .next t ∧ t.mem = s.mem ∧ t.poisonOf id = some (getBytes p.payload 20 1) ∧
        t.reg Reg.dptPoisonCnt = (s.reg Reg.dptPoisonCnt + 1) % 2 ^ 32) ∧
    (∀ n k x, (s.shaft n).started = [x] → x.stallCounted = false → s.commitWaits x = true → k = s.fld Reg.sftStallLimit Fld.sftStallLimitFrames →
      k ≠ 0 → k ≤ x.stallAge → ∃ t, exec (.verdictStall n) s = .next t ∧ t.mem = s.mem ∧
        (t.shaft n).started = [{ x with stallCounted := true }] ∧
        t.reg Reg.dptVerdictStallCnt = (s.reg Reg.dptVerdictStallCnt + 1) % 2 ^ 32) ∧
    (∀ n, n < 144 → s.canaryPack.isSome = true → s.stopeState n = 1 →
      (s.cycle = s.bcycle → s.fld Reg.dptCanaryForce Fld.dptCanaryForceFrames ≤ (s.stope n).canaryAge → ∃ t, exec (.canaryForce n) s = .next t ∧
        t = { s with stopes := t.stopes } ∧ t.stope n = { s.stope n with canaryForced := true }) ∧
      (s.fld Reg.dptCanaryPeriod Fld.dptCanaryPeriodFrames ≤ (s.stope n).canaryAge → (s.stope n).canaryLate = false →
        ∃ t, exec (.canaryLate n) s = .next t ∧ t.mem = s.mem ∧ (t.stope n).canaryLate = true ∧
          (t.stope n).fence = (if (s.stope n).fence = 0 then 1 else (s.stope n).fence) ∧
          t.reg Reg.dptCanaryFailCnt = (s.reg Reg.dptCanaryFailCnt + 1) % 2 ^ 32)) ∧
    (∀ v, ∃ t, exec (.canaryFaceWrite v) s = .next t ∧ t = { s with regs := t.regs, wrote := t.wrote } ∧
      regsBut [Reg.dptCanaryFace, Reg.lmpBadAccessCnt] s t ∧
      t.reg Reg.dptCanaryFace =
        if (s.pack.any fun p => p.entries.any fun e => decide (v / 65536 % 4096 * 1024 < e.foff + e.flen)) = true ∨
            postRow < v % 4096 * 1024 + v / 65536 % 4096 * 1024 then s.reg Reg.dptCanaryFace
        else v % 4096 + v / 65536 % 4096 * 65536) ∧
    (∀ i v, i < 4 → ∃ t, exec (.packAddressWrite i v) s = .next t ∧ t = { s with regs := t.regs, wrote := t.wrote } ∧
      regsBut [Reg.dptPackPa0 + 4 * i, Reg.lmpBadAccessCnt] s t ∧
      (s.pack.isSome = true → t = s.noteReserved (Reg.dptPackPa0 + 4 * i) v) ∧
      (s.pack = none → t.reg (Reg.dptPackPa0 + 4 * i) =
        if i = 1 then v % 2 ^ 16 else if i = 3 then v % 2 ^ 25 else v % 2 ^ 32 - v % 2 ^ 16)) ∧
    (∀ r, s.resolving = some r → r.resolve = none → r.poison = none →
      (∃ t q, exec .resolveRelease s = .next t ∧ t = { s with steps := t.steps } ∧ t.step? r.id = some q ∧ q = { r with resolve := some true }) ∧
      (∃ t q, exec .resolveAbort s = .next t ∧ t.mem = s.mem ∧ t.step? r.id = some q ∧ q.resolve = some false ∧ q.poison = some 8 ∧
        t.reg Reg.dptPoisonCnt = (s.reg Reg.dptPoisonCnt + 1) % 2 ^ 32))

/-- R433-R437: a sound SNAPSHOT of a begun step starts alone, armed, and adds 1 to ARM_TALLY; a granule that a write waits for, or the
next in manifest order, is copied to its place in the image, with the header and the manifest before the first; with every granule
copied, the step sealed and no ticket over the seal, the image is signed, copied to the host when that is asked, and recorded, and the
command's work is done. -/
def Obligations.SnapshotsAreTaken : Prop :=
  (∀ (n nreg man w p : Nat) (s s1 : State) (c : Command) (r : StepRec), s.engineHead n 0x14 c → man = c.get 24 8 → nreg = c.get 32 4 →
    c.get 38 1 < 2 → c.get 39 1 = 0 → c.get 56 8 = 0 → man % 64 = 0 → 0 < nreg → nreg ≤ 4096 → c.get 40 8 % granuleBytes = 0 →
    s.devRead none man (16 * nreg) = (s1, .ok (w, false)) →
    (∀ i, i < nreg → getBytes w (16 * i + 12) 1 < 2 ∧ getBytes w (16 * i + 13) 3 = 0) →
    (∀ g ∈ manifestRegions w nreg, g.va % granuleBytes = 0 ∧
      (g.writable = true → g.len ≠ 0 → s1.frozen g.va (g.len * granuleBytes) = false)) →
    s1.paKind (c.get 40 8) = .cxl p →
    (if c.get 38 1 = 0 then c.get 48 8 = 0 else c.get 48 8 % granuleBytes = 0 ∧ s1.paKind (c.get 48 8) = .host) →
    s.step? ⟨s.seqNo, c.get 16 8⟩ = some r → n ∈ r.shafts → s1.snapshot = none →
    ∃ t x y, exec (.snapshot n) s = .next t ∧ t.mem = s1.mem ∧ t.snapshot = some x ∧ x.armed = true ∧ x.copied = [] ∧
      x.step = ⟨s.seqNo, c.get 16 8⟩ ∧ x.regions = manifestRegions w nreg ∧ x.cxldst = c.get 40 8 ∧ x.hostdst = c.get 48 8 ∧
      x.host = decide (c.get 38 1 = 1) ∧
      t.flag Reg.strStat Fld.strStatBusy = true ∧ t.flag Reg.strStat Fld.strStatArmed = true ∧
      t.tally (c.get 36 2) = (s1.tally (c.get 36 2) + 1) % 2 ^ 32 ∧ (t.shaft n).started = (s1.shaft n).started ++ [y] ∧ y.cmd = c) ∧
  (∀ (g w i : Nat) (s s1 : State) (x : Snapshot), s.snapshot = some x → s.poisonOf x.step = none →
    ((List.range x.granules.length).zip x.granules).filter (fun e => e.2 = g) = [(i, g)] →
    s.devRead none (g * granuleBytes) granuleBytes = (s1, .ok (w, false)) →
    let place := x.cxldst + x.dataAt + granuleBytes * i
    s1.reachable none place granuleBytes = true → (x.copied = [] → s1.reachable none x.cxldst x.dataAt = true) →
    let copies := fun (t : State) => (∃ y, t.snapshot = some y ∧ y.copied = x.copied ++ [g] ∧ y.regions = x.regions ∧ y.step = x.step) ∧
      t.readLE place granuleBytes = w % 2 ^ (8 * granuleBytes) ∧
      (x.copied = [] → t.readLE x.cxldst x.dataAt = s1.imageHead x % 2 ^ (8 * x.dataAt)) ∧
      ∀ a, ¬(place ≤ a ∧ a < place + granuleBytes) → ¬(x.copied = [] ∧ x.cxldst ≤ a ∧ a < x.cxldst + x.dataAt) → t.byte a = s1.byte a
    (x.granules.find? (fun y => !x.copied.contains y) = some g →
      ∃ t, exec .snapshotRegionCopy s = .next t ∧ copies t ∧ t.reg Reg.strCowCnt = s1.reg Reg.strCowCnt) ∧
    (s.cowWaits (g * granuleBytes) 1 = true → s.copyWanted g = true → ∃ t, exec (.cowCopy g) s = .next t ∧ copies t ∧
      t.reg Reg.strCowCnt = (s1.reg Reg.strCowCnt + 1) % 2 ^ 32)) ∧
  (∀ (s : State) (x : Snapshot) (r : StepRec), s.snapshot = some x → (∀ g ∈ x.granules, g ∈ x.copied) → s.step? x.step = some r →
    r.state = .sealed ∨ r.state = .released → r.poison = none → x.covers = [] → x.step.num < 2 ^ 64 →
    let end_ := x.dataAt + x.dataLen
    s.reachable none x.cxldst x.dataAt = true → s.reachable none (x.cxldst + end_) 128 = true →
    (x.host = true → s.marks = [] ∧ s.reachable none x.hostdst (end_ + 128) = true ∧ x.hostdst + end_ + 128 ≤ x.cxldst) →
    let signed := fun (t : State) (a : Nat) => t.readLE (a + end_) 128 =
      (Config.sha512 (s.imageBytes x)).toNat + 2 ^ 512 * (Config.signIdentity (Config.sha512 (s.imageBytes x))).toNat
    ∃ t, exec .snapshotSeal s = .next t ∧ t.snapshot = none ∧ t.flag Reg.strStat Fld.strStatBusy = false ∧
      t.flag Reg.strStat Fld.strStatArmed = false ∧ t.reg64 Reg.strLastStep0 Reg.strLastStep1 = x.step.num ∧
      t.reg Reg.strSnapCnt = (s.reg Reg.strSnapCnt + 1) % 2 ^ 32 ∧
      (∀ y ∈ (t.shaft x.shaft).started, y.cmd.id = x.cmd → y.state = .done) ∧ signed t x.cxldst ∧
      (x.host = true → signed t x.hostdst))

/-! ## Power loops and whistle (17) -/

/-- R463-R473 and Table 17.3: what a droop, an estimate, a sample, a cap tick, a protection tick, the declarations of disagreement and
distrust, their ends, a window of level draw and a setpoint do; a cap tick selects active stopes alone, leaves four active ones on a
level that has them, and paces or defers the remainder as buckets are open or not. Memory is never touched. -/
def Obligations.PowerLoopsAct : Prop :=
  ∀ s : State, s.up 1 = true →
    let st := fun (t : State) (f : Fld) => t.flag Reg.pwrStat f
    let only := fun (t : State) => t = { s with regs := t.regs, power := t.power }
    (∀ n c, n < 144 → ∃ t, exec (.droopEvent n c) s = .next t ∧ t = { s with regs := t.regs } ∧
      regsBut [Reg.pwrDroopCnt n, Reg.pwrStretchCnt (n / 72)] s t ∧ t.reg (Reg.pwrDroopCnt n) = (s.reg (Reg.pwrDroopCnt n) + 1) % 2 ^ 32 ∧
      t.reg (Reg.pwrStretchCnt (n / 72)) = (s.reg (Reg.pwrStretchCnt (n / 72)) + min c 32) % 2 ^ 32) ∧
    (∀ e, ∃ t, exec (.powerEstimateTick e) s = .next t ∧ t.mem = s.mem ∧ t.activity = [] ∧ t.reg Reg.pwrTj = ofInt 16 e.tj1 * 2 ^ 16 + ofInt 16 e.tj0 ∧
      t.power.raw = e.raw ∧ t.power.est = s.reg Reg.pwrCal * e.raw / 65536 ∧ t.power.compute = e.compute ∧
      t.power.age = s.power.age + 1 ∧
      t.power.ctl = (if st s Fld.pwrStatDistrust then t.power.est * 115 / 100
        else if st s Fld.pwrStatDisagree then max t.power.est s.power.meas else t.power.est) ∧
      (0 ∈ t.power.hot ↔ 1600 ≤ e.tj0 ∨ 0 ∈ s.power.hot ∧ 1568 < e.tj0) ∧ (1 ∈ t.power.hot ↔ 1600 ≤ e.tj1 ∨ 1 ∈ s.power.hot ∧ 1568 < e.tj1)) ∧
    (∀ mw, ∃ t, exec (.powerMeasurementSample mw) s = .next t ∧ t = { s with power := t.power } ∧ t.power.meas = mw ∧ t.power.age = 0) ∧
    (s.power.hot = [] → ∃ t, exec .capControlTick s = .next t ∧ t.mem = s.mem ∧ t.crews = s.crews ∧
      (∀ n, (t.stope n).gate = true → (s.stope n).gate = true ∨ s.stopeState n = 1) ∧
      (∀ l, l < 2 → 4 ≤ (s.activeStopes l).length → 4 ≤ (t.activeStopes l).length) ∧
      let past := ((s.power.compute : Int) - ((s.effCap : Int) - (s.power.links + s.power.hbm + s.power.other : Nat))).toNat
      let r := past - s.perStope * t.selectedStopes
      t.power.noBallast = decide (0 < past) ∧ st t Fld.pwrStatPaced = decide (r ≠ 0 ∧ s.reg Reg.hstOpen = 0) ∧
      st t Fld.pwrStatDefer = decide (r ≠ 0 ∧ s.reg Reg.hstOpen ≠ 0)) ∧
    (st s Fld.pwrStatDefer = true → max 1 (s.fld Reg.pwrDeferMax Fld.pwrDeferMaxFrames) ≤ s.power.defers →
      exec .deferLimitExpiry s = .next { s with power := { s.power with needLimit := true } }) ∧
    (∃ t, exec .protectionTick s = .next t ∧ t = { s with regs := t.regs, power := t.power, free := t.free } ∧
      let need := s.power.needCap || s.power.needLimit || s.power.needHeat
      st t Fld.pwrStatProtect = need ∧ (need = false → t.power.stretch = 0) ∧ (s.power.needHeat = true → t.power.stretch = 2) ∧
      (need = true → 2 ≤ t.power.stretch ∧ ∀ l, l < 2 →
        t.reg (Reg.pwrStretchCnt l) = (s.reg (Reg.pwrStretchCnt l) + clockMHz s.freqCode / t.power.stretch) % 2 ^ 32)) ∧
    (26 ≤ s.power.disagree → st s Fld.pwrStatDisagree = false → st s Fld.pwrStatDistrust = false →
      ∃ t, exec .disagreeDeclare s = .next t ∧ t.mem = s.mem ∧ st t Fld.pwrStatDisagree = true ∧ st t Fld.pwrStatRecal = true ∧
        t.reg Reg.pwrDisagreeCnt = (s.reg Reg.pwrDisagreeCnt + 1) % 2 ^ 32 ∧ t.power.recal = 0 ∧ t.reg Reg.pwrCal = s.reg Reg.pwrCal) ∧
    (∀ k, 250 ≤ s.power.recal → st s Fld.pwrStatRecal = true → st s Fld.pwrStatDistrust = false → 0 < s.power.sumRaw → s.power.sumMeas * 65536 = k * s.power.sumRaw →
      k < 2 ^ 32 → ∃ t, exec .recalibrationEnd s = .next t ∧ only t ∧ t.reg Reg.pwrCal = k ∧ st t Fld.pwrStatDisagree = false ∧
        st t Fld.pwrStatRecal = false ∧ t.power.disagree = 0) ∧
    (st s Fld.pwrStatDistrust = false → s.power.low = true ∨ 300 ≤ s.power.age →
      ∃ t, exec .distrustDeclare s = .next t ∧ t.mem = s.mem ∧ st t Fld.pwrStatDistrust = true ∧ t.power.valid = 0) ∧
    (st s Fld.pwrStatDistrust = true → 25 ≤ s.power.valid → ∃ t, exec .distrustClear s = .next t ∧ t = { s with regs := t.regs } ∧
      regsBut [Reg.pwrStat] s t ∧ st t Fld.pwrStatDistrust = false) ∧
    (s.flag Reg.pwrCtrl Fld.pwrCtrlLevelDraw = true → s.power.windowEnd = true → 25 ≤ s.power.window.length →
      ∃ t, exec .levelDrawWindow s = .next t ∧ t.mem = s.mem ∧ t.power = { s.power with windowEnd := false } ∧
        let ctl := ((s.power.window.map (·.1)).foldl (· + ·) 0 : Nat)
        let tgt := ((s.power.window.map (·.2)).foldl (· + ·) 0 : Nat)
        t.reg Reg.pwrLevelMissCnt = if 100 * ctl < 98 * tgt ∨ 102 * tgt < 100 * ctl then (s.reg Reg.pwrLevelMissCnt + 1) % 2 ^ 32
          else s.reg Reg.pwrLevelMissCnt) ∧
    (∀ v, ∃ t, exec (.setpointWrite v) s = .next t ∧ t = { s with regs := t.regs, wrote := t.wrote, power := t.power } ∧
      regsBut [Reg.pwrSetpoint, Reg.lmpBadAccessCnt] s t ∧
      if v % 2 ^ 11 < 300 ∨ 1500 < v % 2 ^ 11 then t = s.noteReserved Reg.pwrSetpoint v
      else t.reg Reg.pwrSetpoint = v % 2 ^ 11 ∧ t.power.target = s.power.target ∧
        t.power.ramp = s.power.target * s.fld Reg.whsPeriod Fld.whsPeriodTicks * 5 / 10 ^ 9)

/-- R455-R462: enabling the whistle starts frames in the role written; a TIME message gives a child its parent's frame and ends its
holdover; a FRAMENO that disagrees corrects a follower and counts; lock, holdover and unaligned are declared; an edge goes out with a
FRAMENO to every other module of the ring W; a word above code 16 is discarded, an old one ignored, a new one held; a report is held. -/
def Obligations.WhistleKeepsTime : Prop :=
  ∀ s : State, s.up 1 = true →
    let st := fun (t : State) (f : Fld) => t.flag Reg.whsStat f
    let took := fun (p : Packet) (t : State) => t.mem = s.mem ∧ t.arrived = (s.consume p).arrived
    (∀ v root, s.flag Reg.whsCtrl Fld.whsCtrlEn = false → v.testBit 0 = true → ∃ t, exec (.whistleEnable v root) s = .next t ∧
      t = { s with regs := t.regs, wrote := t.wrote, whistle := t.whistle, bcycle := s.cycle } ∧
      regsBut [Reg.whsCtrl, Reg.whsStat, Reg.lmpBadAccessCnt] s t ∧
      t.flag Reg.whsCtrl Fld.whsCtrlEn = true ∧ t.fld Reg.whsCtrl Fld.whsCtrlRole = v / 2 % 4 ∧ t.whistle.root = root) ∧
    (∀ p a, s.flag Reg.whsCtrl Fld.whsCtrlEn = true → s.whsRole = 1 → getBytes p.payload 0 1 = 1 →
      ∃ t, exec (.timeReceive p a) s = .next t ∧ took p t ∧ t.frame = getBytes p.payload 8 8 ∧ st t Fld.whsStatHoldover = false) ∧
    (∀ p n, n = getBytes p.payload 8 8 → 0 < n → s.flag Reg.whsCtrl Fld.whsCtrlEn = true → s.whsRole = 0 → getBytes p.payload 0 1 = 2 →
      n ≠ (s.frame + 1) % 2 ^ 64 → ∃ t, exec (.framenoReceive p) s = .next t ∧ took p t ∧ t.frame = n - 1 ∧
        t.reg Reg.whsSlipCnt = (s.reg Reg.whsSlipCnt + 1) % 2 ^ 32) ∧
    (25 ≤ s.whistle.lockRun → ∃ t, exec .timingLocked s = .next t ∧ t = { s with regs := t.regs } ∧ regsBut [Reg.whsStat] s t ∧
      st t Fld.whsStatLocked = true ∧ st t Fld.whsStatUnaligned = false) ∧
    (s.flag Reg.whsCtrl Fld.whsCtrlEn = true → 2 ≤ s.whistle.quiet → st s Fld.whsStatHoldover = false →
      ∃ t, exec .holdoverEnter s = .next t ∧ t = { s with regs := t.regs, whistle := t.whistle } ∧
        regsBut [Reg.whsStat, Reg.whsHoldCnt] s t ∧ st t Fld.whsStatHoldover = true ∧
        t.reg Reg.whsHoldCnt = (s.reg Reg.whsHoldCnt + 1) % 2 ^ 32) ∧
    (st s Fld.whsStatHoldover = true → s.fld Reg.whsHoldLimit Fld.whsHoldLimitFrames < s.whistle.held → st s Fld.whsStatUnaligned = false →
      ∃ t, exec .unalignedSet s = .next t ∧ t.mem = s.mem ∧ st t Fld.whsStatUnaligned = true ∧
        (s.flag Reg.whsCtrl Fld.whsCtrlEvent = true → (t.reg Reg.lmpEventStat).testBit 14 = true)) ∧
    (s.flag Reg.whsCtrl Fld.whsCtrlEn = true → s.whsRole ≠ 0 → ∃ t, exec .whistleOutEdge s = .next t ∧ t.regs = s.regs ∧ t.mem = s.mem ∧
      t.outbox = s.outbox ++ [.pin 1 true] ∧ ∃ l, t.inject = s.inject ++ l ∧
        l.map (fun q => q.pkt.dst) = ((List.range (s.ring 0)).filter (· ≠ coord s.node 0)).map (withCoord s.node 0) ∧
        ∀ q ∈ l, q.pkt.kind = 8 ∧ getBytes q.pkt.payload 0 1 = 2 ∧ getBytes q.pkt.payload 8 8 = (s.frame + 1) % 2 ^ 64) ∧
    (∀ p e c q, getBytes p.payload 0 1 = 3 → e = getBytes p.payload 8 8 → c = getBytes p.payload 16 1 → q = getBytes p.payload 17 1 →
      ∃ t, exec (.wordReceive p) s = .next t ∧ took p t ∧
        if 16 < c then t.whistle = s.whistle ∧ t.reg Reg.whsBadWordCnt = (s.reg Reg.whsBadWordCnt + 1) % 2 ^ 32
        else if s.whistle.newer q = false then t.whistle = s.whistle ∧ t.regs = s.regs
        else t.whistle.words = s.whistle.words ++ [⟨e, c, q, decide (e ≤ s.frame)⟩] ∧ t.fld Reg.whsFreq Fld.whsFreqNext = c ∧
          t.freqCode = s.freqCode ∧ t.reg Reg.whsLateWordCnt = if e ≤ s.frame then (s.reg Reg.whsLateWordCnt + 1) % 2 ^ 32
            else s.reg Reg.whsLateWordCnt) ∧
    (∀ p, getBytes p.payload 0 1 = 4 → ∃ t, exec (.reportReceive p) s = .next t ∧ took p t ∧ t.regs = s.regs ∧
      t.whistle.reports = s.whistle.reports ++ [⟨getBytes p.payload 16 2, getBytes p.payload 18 2, sext 16 (getBytes p.payload 20 2),
        (getBytes p.payload 22 1).testBit 0⟩])

/-! ## Resets, rails, release, boot, block resets (18, 20) -/

/-- R478-R486, R529, R530, R536, R537: what each source of reset leaves of the module domains, its bit of RST_CAUSE, the package rails
and the pins; what a reset of the lamp room leaves; the watchdog, its restart and the takeover; the rails coming up, the release of
RST_OUT# and of each domain in turn, with the zero fill and the states of the stopes. -/
def Obligations.ResetsAct : Prop :=
  ∀ s : State,
    let ready := fun (t : State) => t.flag Reg.rstStat Fld.rstStatReady
    let down := fun (t : State) => t.lamp.released = 0 ∧ t.lamp.rstOut = true ∧ t.lamp.resetAt = s.ps ∧ ready t = false ∧
      (∀ off, 0x200000 ≤ off → off ≠ Reg.pciStat → t.reg off = (regReset off).toNat) ∧ t.lamp.blocks = [] ∧ t.crews = [] ∧ t.dispatches = [] ∧
      t.tickets = [] ∧ t.steps = [] ∧ t.mem = s.mem ∧ t.lamp.flash = s.lamp.flash ∧ t.lamp.fences = s.lamp.fences
    let cause := fun (b : Nat) (t : State) => t.reg Reg.rstCause = s.reg Reg.rstCause ||| 2 ^ b
    let linkDown := fun (t : State) => t.hostUp = false
    let railsOn := fun (t : State) => t = { s with regs := t.regs, lamp := t.lamp, outbox := t.outbox } ∧ t.lamp.rails = true ∧
      regsBut [Reg.rstCtrl] s t ∧ t.reg Reg.rstCtrl = (regReset Reg.rstCtrl).toNat
    let resetBy := fun (b : Nat) (d : DueReset) (t : State) => cause b t ∧ t.mem = s.mem ∧
      (s.lamp.tripHold = true → s.railsReady = true → d.scope = 0 → t.lamp.rails = true ∧ t.lamp.tripHold = false) ∧
      (d.scope = 0 → down t ∧ linkDown t ∧ t.foreman = s.foreman) ∧
      (d.scope ≠ 0 → t.lamp.booted = false ∧ t.foreman.longs = [] ∧ t.foreman.acked = none ∧
        t.foreman.log = (if b = 5 then [] else s.foreman.log) ∧ t.lamp.released = s.lamp.released ∧ t.crews = s.crews ∧
        (∀ c, c < 16 → t.reg (Reg.lmpCageStat c) = 0) ∧ ∀ off, 0x200000 ≤ off → t.reg off = s.reg off)
    let setLamp := fun (l : Lamp) => { s with lamp := l }
    (∃ t, exec .powerOnReset s = .next t ∧ t.regs = [] ∧ t.reg Reg.rstCause = 1 ∧ down t ∧ linkDown t ∧ t.lamp.standby = true ∧
      t.lamp.booted = false ∧ t.lamp.rails = false ∧ t.lamp.revoked = s.lamp.revoked ∧ t.lamp.svn = s.lamp.svn) ∧
    (s.lamp.standby = true → s.lamp.perst = false → ∃ t, exec .perstAssert s = .next t ∧ down t ∧ linkDown t ∧ cause 1 t ∧
      t.lamp.perst = true ∧ t.lamp.rails = s.lamp.rails ∧ t.foreman = s.foreman) ∧
    exec .perstDeassert s = .next (setLamp { s.lamp with perst := false }) ∧
    (s.hostUp = true →
      (∃ t, exec .hotReset s = .next t ∧ down t ∧ linkDown t ∧ cause 2 t ∧ t.lamp.rails = s.lamp.rails) ∧
      (∃ t, exec .linkDownReset s = .next t ∧ linkDown t ∧ if s.flag Reg.rstCtrl Fld.rstCtrlLinkdownEn then down t ∧ cause 3 t
        else t = { s with regs := t.regs } ∧ regsBut [Reg.pciStat] s t) ∧
      (s.lamp.scope ≠ 2 → ∃ t, exec .functionLevelReset s = .next t ∧ down t ∧ cause 4 t ∧ t.reg Reg.pciStat = s.reg Reg.pciStat ∧
        t.port.bar2 = s.port.bar2 ∧ t.port.d3 = s.port.d3)) ∧
    (∀ d, s.dueReset 5 = some d → ∃ t, exec .mailboxReset s = .next t ∧ resetBy 5 d t) ∧
    (∀ d, s.dueReset 6 = some d → ∃ t, exec .sidebandReset s = .next t ∧ resetBy 6 d t) ∧
    (s.foremanUp = true →
      exec .watchdogKick s = .next (setLamp { s.lamp with watchAt := s.ps }) ∧
      (s.lamp.watchAt + s.watchPs ≤ s.ps → ∃ t, exec .watchdogExpiry s = .next t ∧
        if s.flag Reg.rstStat Fld.rstStatStandby then down t ∧ cause 7 t ∧ t.lamp.booted = false ∧ t.foreman.longs = []
        else t = { s with regs := t.regs, lamp := { s.lamp with takeover := true } } ∧ regsBut [Reg.rstWdtCnt] s t ∧
          t.reg Reg.rstWdtCnt = (s.reg Reg.rstWdtCnt + 1) % 2 ^ 32)) ∧
    (s.lamp.takeover = true → s.foreman.longs = [] → s.foreman.acked = none → ∃ t, exec .foremanTakeover s = .next t ∧ t.mem = s.mem ∧
      t.foreman = s.foreman ∧
      if s.imageSlot s.lamp.revoked s.lamp.svn s.runBank 1 = none then t = s
      else t.lamp = { s.lamp with takeover := false, watchAt := s.ps } ∧ t.flag Reg.rstStat Fld.rstStatStandby = true ∧
        t.flag Reg.lmpFwStat Fld.lmpFwStatStaging = false ∧ t.flag Reg.lmpLampCause Fld.lmpLampCauseTakeover = true) ∧
    (s.lamp.standby = true →
      (∀ j : Int, 1840 ≤ j → ∃ t, exec (.thermalTrip j) s = .next t ∧ down t ∧ linkDown t ∧ cause 8 t ∧ t.lamp.rails = false ∧
        t.lamp.tripHold = true ∧ t.outbox = s.outbox ++ [.pin 2 false, .pin 3 false]) ∧
      (∀ i, ∃ t, exec (.regulatorFault i) s = .next t ∧ down t ∧ linkDown t ∧ cause 9 t ∧ t.lamp.rails = false ∧
        t.lamp.faultHold = true ∧ t.lamp.input = (s.lamp.input && !i)) ∧
      (∃ t, exec .standbyLoss s = .next t ∧ down t ∧ linkDown t ∧ t.lamp.rails = false ∧ t.lamp.standby = false ∧
        t.lamp.booted = false ∧ t.foreman = Foreman.idle)) ∧
    (s.lamp.present = true → ∃ t, exec .moduleRemove s = .next t ∧ down t ∧ t.lamp.present = false ∧ t.lamp.rails = false ∧
      t.lamp.input = false ∧ t.lamp.standby = false ∧ t.outbox = s.outbox ++ [.pin 4 true, .pin 2 false]) ∧
    (s.lamp.input = false → exec .inputPowerApply s = .next (setLamp { s.lamp with input := true, inputAt := s.ps })) ∧
    (s.railsReady = true →
      (s.lamp.rails = false → s.lamp.tripHold = false → s.lamp.faultHold = false → ∃ t, exec .packageRailsUp s = .next t ∧ railsOn t) ∧
      (∀ x : Int, s.lamp.tripHold = true → s.lamp.faultHold = false → s.flag Reg.rstCtrl Fld.rstCtrlTripRestart = true → x < 960 →
        s.lamp.tripAt + 10 ^ 13 ≤ s.ps → ∃ t, exec (.tripRailRestore x) s = .next t ∧ railsOn t ∧ t.lamp.tripHold = false) ∧
      (s.lamp.faultHold = true → s.lamp.tripHold = false → s.flag Reg.rstCtrl Fld.rstCtrlRegRestart = true → s.lamp.restarts < 3 →
        s.lamp.faultAt + 10 ^ 12 ≤ s.ps → ∃ t, exec .regulatorRailRestore s = .next t ∧ railsOn t ∧
          t.lamp.restarts = s.lamp.restarts + 1)) ∧
    (s.lamp.rstOut = true → s.lamp.standby = true → s.lamp.rails = true → s.lamp.perst = false → s.lamp.resetAt + 10 ^ 9 ≤ s.ps →
      exec (.rstOutDeassert true) s = .next { s with lamp := { s.lamp with rstOut := false }, outbox := s.outbox ++ [.pin 2 true] }) ∧
    (∀ d link a b, s.lamp.rstOut = false → s.lamp.rails = true → s.lamp.released + 1 = d → d ≤ 6 →
      ∃ t, exec (.domainRelease true link (a, b)) s = .next t ∧ t.lamp.released = d ∧
        (d = 2 → s.lamp.scope ≠ 1 → t.fld Reg.pciStat Fld.pciStatSpeed = link % 8) ∧
        (d = 3 → (∀ p, p < 0x6000000000 → t.byte p = 0) ∧ ∀ k, k < 8 → t.flag (Reg.hbmStat k) Fld.hbmStatTrained = true) ∧
        (d = 4 → (∀ p, 0x8000000000 ≤ p → p < 0x8200000000 → t.byte p = 0) ∧ ∀ n, n < 144 → t.stopeState n =
          if Store.get 0 s.lamp.fences n ≠ 0 then 4 else if Config.fuseSpare n && !s.lamp.spares.contains n then 2
          else if s.lamp.heldOff.contains n then 4 else 1) ∧
        (d = 5 → ready t = true) ∧ (d = 6 → t.reg (Reg.cxlPortStat 0) = cxlStat a ∧ t.reg (Reg.cxlPortStat 1) = cxlStat b) ∧
        ∀ p, 0x8200000000 ≤ p → t.byte p = s.byte p) ∧
    (∀ v, ∃ t, exec (.resetCauseClear v) s = .next t ∧ t = { s with regs := t.regs, wrote := t.wrote } ∧
      regsBut [Reg.rstCause, Reg.lmpBadAccessCnt] s t ∧ ∀ b, b < 10 → (t.reg Reg.rstCause).testBit b =
        ((s.reg Reg.rstCause).testBit b && (!v.testBit b || (s.setNow Reg.rstCause).testBit b)))

/-- R487-R493: the operations written for a block in each of its states, the report of idleness and the idle timeout, the end of the held
reset and of the release; a strap sample that decides; verified boot from the preferred bank, from the other, and recovery. -/
def Obligations.BlocksAndBootAct : Prop :=
  ∀ (s : State),
    let only := fun (t : State) => t = { s with regs := t.regs, lamp := t.lamp }
    (∀ b f, listedBlock b = true → (b = 0x16 → f = true) →
      let wrote := fun (t : State) => only t ∧ t.reg Reg.rstBlkCtrl = b ∧
        regsBut [Reg.rstBlkCtrl, Reg.rstBlkStat b, Reg.rstCollapseCnt] s t
      let drains := fun (pend : Nat) (t : State) => t.blockState b = 1 ∧ t.blockPend b = pend ∧
        (t.blockCtl b).asked = if b < 0x100 then some (s.now + s.cycleSub) else none
      let counts := fun (changed : Bool) (t : State) =>
        t.reg Reg.rstCollapseCnt = (s.reg Reg.rstCollapseCnt + changed.toNat) % 2 ^ 32
      let pends := fun (pend : Nat) (t : State) => ((s.blockState b = 1 ∨ s.blockState b = 2) →
        t.blockState b = s.blockState b ∧ t.blockPend b = pend ∧ counts (s.blockPend b ≠ pend) t)
      let afters := fun (after : Nat) (t : State) => (4 ≤ s.blockState b →
        t.blockState b = 4 ∧ t.blockAfter b = after ∧ counts (s.blockAfter b ≠ after) t)
      (∃ t, exec (.blockReset f b) s = .next t ∧ wrote t ∧ (s.blockState b = 0 → drains 1 t) ∧ pends 1 t ∧
        (s.blockState b = 3 → t.blockState b = 4) ∧ afters 2 t) ∧
      (∃ t, exec (.blockOff f b) s = .next t ∧ wrote t ∧ (s.blockState b = 0 → drains 0 t) ∧ pends 0 t ∧
        (s.blockState b = 3 → t.blockState b = 3) ∧ afters 1 t) ∧
      (∃ t, exec (.blockOn f b) s = .next t ∧ wrote t ∧ (s.blockState b = 0 → t.blockState b = 0) ∧ pends 1 t ∧
        (s.blockState b = 3 → t.blockState b = 4) ∧ afters 0 t)) ∧
    (∀ b a, listedBlock b = true → s.blockState b = 1 → (s.blockCtl b).asked = some a →
      (a ≤ s.now → s.now ≤ s.idleDeadline a ∨ (s.blockCtl b).idle = true → s.blockIdle b = true →
        ∃ t, exec (.blockIdleReport b) s = .next t ∧ only t ∧ t.blockState b = 2 ∧
        t.blockPend b = s.blockPend b ∧ (t.blockCtl b).since = s.cycle ∧ (0x100 ≤ b → t.stopeState (b - 0x100) = 4 ∧
          t.fld (Reg.dptStopeStat (b - 0x100)) Fld.dptStopeStatFcause = 3)) ∧
      (s.idleDeadline a < s.now → (s.blockCtl b).idle = false → ∃ t, exec (.blockIdleTimeout b) s = .next t ∧ t.blockState b = 2 ∧
        t.reg Reg.rstForceCnt = (s.reg Reg.rstForceCnt + 1) % 2 ^ 32)) ∧
    (∀ b, listedBlock b = true → (s.blockCtl b).since + 256 ≤ s.cycle →
      (s.blockState b = 2 → s.blockLocked b = false → ∃ t, exec (.blockResetHoldEnd b) s = .next t ∧ only t ∧
        regsBut [Reg.rstBlkStat b] s t ∧ t.blockState b = 3 ∧ t.blockPend b = s.blockPend b) ∧
      (s.blockState b = 4 → ∃ t, exec (.blockReleaseEnd b) s = .next t ∧ t.mem = s.mem ∧
        (s.blockAfter b = 0 → t.blockState b = 0) ∧ (s.blockAfter b = 1 → t.blockState b = 1 ∧ t.blockPend b = 0) ∧
        (s.blockAfter b = 2 → t.blockState b = 1 ∧ t.blockPend b = 1))) ∧
    (s.lamp.standby = true →
      (∀ r, r < 256 → s.lamp.strapMode = 1 ∨ s.lamp.strapMode = 2 ∧ 3 ≤ r ∧ r ≤ 253 ∧ s.lamp.strapLast = some (r / 16) ∧ 9 ≤ s.lamp.strapRun →
        ∃ t, exec (.strapSample r) s = .next t ∧ t.lamp.strapMode = 0 ∧ t.fld Reg.rstStrap Fld.rstStrapRatio = r ∧
          t.flag Reg.rstStrap Fld.rstStrapFault = !(decide (3 ≤ r) && decide (r ≤ 253)) ∧
          t.fld Reg.rstStrap Fld.rstStrapCode = if 3 ≤ r ∧ r ≤ 253 then r / 16 else 0) ∧
      (∀ r, r < 256 → s.lamp.strapMode = 2 → strapInRange r = false → s.lamp.strapBad = true →
        (999 ≤ s.lamp.strapCount → ∃ t, exec (.strapSample r) s = .next t ∧ t.lamp.strapMode = 0 ∧
          t.fld Reg.rstStrap Fld.rstStrapCode = 0 ∧ t.flag Reg.rstStrap Fld.rstStrapFault = true) ∧
        (s.lamp.strapCount < 999 → exec (.strapSample r) s = .next { s with lamp := { s.lamp with
          strapLast := none, strapRun := 0, strapCount := s.lamp.strapCount + 1 } })) ∧
      (∀ b, s.lamp.booted = false → s.flag Reg.rstStat Fld.rstStatRecovery = false → s.lamp.strapMode = 0 →
        b = s.fld Reg.rstStrap Fld.rstStrapCode % 2 → ∃ t, exec .bootVerify s = .next t ∧ t.mem = s.mem ∧
          match s.firstInvalid b, s.firstInvalid (1 - b) with
          | none, _ => t.lamp.booted = true ∧ t.runBank = b ∧ t.fld Reg.rstStrap Fld.rstStrapBooted = b
          | some x, none => t.lamp.booted = true ∧ t.runBank = 1 - b ∧ t.flag Reg.rstStrap Fld.rstStrapFallback = true ∧
            t.fld Reg.rstBoot (if b = 0 then Fld.rstBootFailA else Fld.rstBootFailB) = x
          | some _, some _ => t.lamp.booted = false ∧ t.lamp.rails = false ∧ t.flag Reg.rstStat Fld.rstStatRecovery = true))

/-! ## The host port (19) -/

/-- R8, R27, R486, R499-R507, R511, R525: a write of a register by its table's access codes, to an unassigned offset and to a block not
released; reads of the control space; BAR2; the event bits, their enables and the vectors; the cage doorbell; translation services,
configuration requests; a completion time-out stops its stream with a fault
record; a frame boundary advances the frame number and opens the background window. -/
def Obligations.HostPortServes : Prop :=
  ∀ s : State,
    let only := fun (t : State) => t = { s with regs := t.regs, wrote := t.wrote }
    let sends := fun (t : State) => t = { s with regs := t.regs, port := t.port, outbox := t.outbox, wrote := t.wrote, raised := t.raised }
    (∀ w off v en, s.arrives w = true → off % 4 = 0 → off < 0x2000000 →
      (s.blockUp off = false → exec (.registerWrite w off 4 v en) s = .next s ∧
        exec (.unassignedOffsetRead w off 4) s = .next (s.emit (.readData 0xFFFFFFFF))) ∧
      (s.blockUp off = true → regSpecOf off = none →
        (∃ t, exec (.registerWrite w off 4 v en) s = .next t ∧ only t ∧ regsBut [Reg.lmpBadAccessCnt] s t ∧
          t.reg Reg.lmpBadAccessCnt = (s.reg Reg.lmpBadAccessCnt + 1) % 2 ^ 32) ∧
        ∃ t, exec (.unassignedOffsetRead w off 4) s = .next t ∧ t = { s with regs := t.regs, outbox := s.outbox ++ [.readData 0] } ∧
          t.reg Reg.lmpBadAccessCnt = (s.reg Reg.lmpBadAccessCnt + 1) % 2 ^ 32) ∧
      (∀ r, s.blockUp off = true → regSpecOf off = some r →
        (off / 0x100000 ∈ [2, 5, 6, 7, 8, 9, 12, 16, 19] → ∃ t, exec (.registerWrite w off 4 v en) s = .next t ∧ only t ∧
          regsBut [off, Reg.lmpBadAccessCnt] s t ∧ (∀ f ∈ r.fields, bits (t.reg off) f.hi f.lo = f.written (s.reg off) v (s.setNow off)) ∧
          t.reg Reg.lmpBadAccessCnt = (s.reg Reg.lmpBadAccessCnt + (r.reservedHit v).toNat) % 2 ^ 32) ∧
        (off / 0x100000 ≠ 10 → exec (.unassignedOffsetRead w off 4) s = .next (s.emit (.readData (s.reg off)))))) ∧
    (∀ off n, s.barsOpen = true → 0 < n → off + n ≤ 2 ^ s.port.bar2 →
      (s.bar2Span (s.bar2Addr off) n = .reach → s.marked (s.bar2Addr off) n = false → s.heldAt (s.bar2Addr off) n = false →
        (∃ t, exec (.bar2Read off n) s = .next t ∧ t = { s with outbox := s.outbox ++ [.readData (s.readLE (s.bar2Addr off) n)], hbmUsed := t.hbmUsed }) ∧
        ∀ v en, ∃ t, exec (.bar2Write off n v en) s = .next t ∧ t = { s with mem := t.mem, hbmUsed := t.hbmUsed } ∧ ∀ a, t.byte a =
          if s.bar2Addr off ≤ a ∧ a < s.bar2Addr off + n ∧ en.testBit (a - s.bar2Addr off) then BitVec.ofNat 8 (getBytes v (a - s.bar2Addr off) 1)
          else s.byte a) ∧
      (s.bar2Span (s.bar2Addr off) n = .refuse → exec (.bar2Read off n) s = .next (s.refuse.emit .abort) ∧
        ∀ v en, exec (.bar2Write off n v en) s = .next s.refuse)) ∧
    (∀ v r, ∃ t, exec (.eventStatClear v r) s = .next t ∧ sends t ∧ regsBut [Reg.lmpEventStat, Reg.lmpBadAccessCnt] s t ∧ ∀ b, b < 18 →
      (t.reg Reg.lmpEventStat).testBit b = (((s.reg Reg.lmpEventStat).testBit b && (!v.testBit b || (s.setNow Reg.lmpEventStat).testBit b)) || r.testBit b)) ∧
    (∀ v, ∃ t, exec (.eventEnableWrite v) s = .next t ∧ sends t ∧ regsBut [Reg.lmpEventEn, Reg.lmpBadAccessCnt] s t ∧
      ∀ b, b < 18 → (t.reg Reg.lmpEventEn).testBit b = v.testBit b ∧
        (v.testBit b = true → (s.reg Reg.lmpEventEn).testBit b = false → (s.reg Reg.lmpEventStat).testBit b = true →
          Store.get false s.port.open_ (s.fld (Reg.lmpEventVec b) Fld.lmpEventVecVec) = true →
          .msix (s.fld (Reg.lmpEventVec b) Fld.lmpEventVecVec) ∈ t.outbox)) ∧
    (∀ v m, v < 2048 → ∃ t, exec (.vectorUnmask v m) s = .next t ∧ t = { s with port := t.port, outbox := t.outbox } ∧ Store.get false t.port.open_ v = !m ∧
      t.outbox = s.outbox ++ (if m = false ∧ Store.get false s.port.waiting v = true then [.msix v] else [])) ∧
    (∀ v, ∃ t, exec (.cageDoorbell v) s = .next t ∧ only t ∧ (∀ off, (∀ c, c < 16 → off ≠ Reg.lmpCageStat c) → off ≠ Reg.lmpCageBusyCnt → off ≠ Reg.lmpBadAccessCnt →
      t.reg off = s.reg off) ∧ ∀ c, c < 16 → t.reg (Reg.lmpCageStat c) =
        if v.testBit c ∧ (s.reg (Reg.lmpCageStat c) = 0 ∨ s.reg (Reg.lmpCageStat c) = 3) then 1 else s.reg (Reg.lmpCageStat c)) ∧
    (s.hostUp = true → s.lamp.rstOut = false →
      (∀ d, exec (.configurationRequest (.power d)) s = .next { s with port := { s.port with d3 := d } }) ∧
      (∀ n, 30 ≤ n → n ≤ 39 → exec (.configurationRequest (.bar2Size n)) s = .next { s with port := { s.port with bar2 := n } }) ∧
      ∀ on, ∃ t, exec (.configurationRequest (.ats on)) s = .next t ∧ t = { s with port := t.port } ∧ t.port.atsOn = on) ∧
    (∀ a n, s.hostUp = true → s.port.atsOn = true → s.skips = [] → ∃ t, exec (.atsInvalidation a n) s = .next t ∧
      t = { s with regs := t.regs, port := t.port, outbox := s.outbox ++ [.response 0 [a, n]] } ∧
      t.reg Reg.pciAtsInvCnt = (s.reg Reg.pciAtsInvCnt + 1) % 2 ^ 32 ∧ ∀ p, p ∈ t.port.ats ↔ p ∈ s.port.ats ∧
        ¬(0x100000000 + a / 4096 ≤ p ∧ p * 4096 < 0x100000000000 + a + n)) ∧
    (∀ k x g q, s.tag? k x g = some q → q.1.phase = .running → s.hostRun (q.2.src ++ q.2.dst) = true →
      ∃ t, exec (.hostCompletionTimeout k x g) s = .next t ∧ t.reg Reg.pciCplErrCnt = (s.reg Reg.pciCplErrCnt + 1) % 2 ^ 32 ∧
        t.fid = (s.fid + 1) % 2 ^ 16) ∧
    (∀ b, s.up 1 = true → s.flag Reg.whsCtrl Fld.whsCtrlEn = true → s.port.posted = [] → s.waits = [] → ∃ t, exec (.frameBoundary b) s = .next t ∧
      t.frame = (s.frame + 1) % 2 ^ 64 ∧ t.cycle = s.cycle + 1 ∧ t.bcycle = t.cycle ∧ t.window = true)

/-! ## The foreman, the sideband and attestation (18, 19) -/

/-- R512-R519, R425, R494: with a request in an acknowledged cage, each Lyselm command ends with its status in the cage, DONE; RESET
schedules its reset, FENCE requests a fence or a return, the long commands are accepted under a new identifier; on the sideband the
simple ones answer; a long command's end takes it off the list, answers the sideband, and for a cage writes a completion record. -/
def Obligations.ForemanServes : Prop :=
  ∀ (s : State), s.foremanUp = true →
    let done := fun (a : CageCopy) (status : Nat) (t : State) => t.reg (Reg.lmpCageStat a.cage) = 3 ∧ t.foreman.acked = none ∧
      t.readLE (cageAddr a.cage + 16) 2 = status ∧ t.crews = s.crews ∧ t.tickets = s.tickets
    (∀ a, s.foreman.acked = some a → a.cage < 16 → a.headerOk = true →
      let opc := getBytes a.head 0 2
      let n := getBytes a.head 8 2
      (opc = 1 → ∃ t, exec (.getInfo .cage) s = .next t ∧ done a 0 t ∧ t.lamp = s.lamp) ∧
      (∀ l, opc = 2 → ∃ t, exec (.getSensors .cage l) s = .next t ∧ done a 0 t ∧ t.lamp = s.lamp) ∧
      (opc = 3 → 0 < n → getBytes a.req 0 1 ≤ 1 → s.conflicts 3 = false → ∃ t, exec (.reset .cage) s = .next t ∧ done a 0 t ∧
        t.lamp = { s.lamp with due := s.lamp.due ++ [⟨5, getBytes a.req 0 1, s.ps + 10 ^ 8⟩] }) ∧
      (∀ k, opc = 7 → 3 ≤ n → k = getBytes a.req 0 2 → k < 144 → s.flag Reg.rstStat Fld.rstStatReady = true →
        (getBytes a.req 2 1 = 0 → s.stopeState k = 1 → (s.stope k).fence = 0 → s.levelKeeps k = true →
          ∃ t, exec (.fence .cage) s = .next t ∧ done a 0 t ∧ (t.stope k).fence = 3) ∧
        (getBytes a.req 2 1 = 0 → s.levelKeeps k = false → ∃ t, exec (.fence .cage) s = .next t ∧ done a 6 t ∧ t.stopes = s.stopes) ∧
        (getBytes a.req 2 1 = 1 → s.stopeState k = 4 → s.fld (Reg.dptStopeStat k) Fld.dptStopeStatFcause = 3 →
          s.blockOn (0x100 + k) = true → ∃ t, exec (.fence .cage) s = .next t ∧ done a 0 t ∧ (t.stope k).returning = true)) ∧
      (s.foreman.longs.length < 4 → (∀ c ∈ s.foreman.longs, c.opc ≠ 0xB) → s.conflicts opc = false →
        let accepted := fun (t : State) => done a 1 t ∧ t.foreman.nextId = (s.foreman.nextId + 1) % 2 ^ 32 ∧
          t.foreman.longs = s.foreman.longs ++ [⟨s.foreman.nextId, opc, getBytes a.head 4 4, 0, a.req, n, 0⟩]
        (opc = 4 → 12 ≤ n → s.flag Reg.rstStat Fld.rstStatReady = true → ∃ t, exec (.getWaitGraph .cage) s = .next t ∧ accepted t) ∧
        (opc = 5 → 12 ≤ n → ∃ t, exec (.getHealth .cage) s = .next t ∧ accepted t) ∧
        (opc = 6 → 12 ≤ n → ∃ t, exec (.getMeasLog .cage) s = .next t ∧ accepted t) ∧
        (opc = 8 → 12 ≤ n → getBytes a.req 8 4 ≤ 0x4000000 → ∃ t, exec (.loadPack .cage) s = .next t ∧ accepted t) ∧
        (opc = 9 → 96 ≤ n → ∃ t, exec (.setPackKey .cage) s = .next t ∧ accepted t) ∧
        (opc = 0xA → 12 ≤ n → getBytes a.req 8 4 ≤ 0x4000000 → ∃ t, exec (.fwStage .cage) s = .next t ∧ accepted t ∧
          t.flag Reg.lmpFwStat Fld.lmpFwStatStaging = true ∧ t.flag Reg.lmpFwStat Fld.lmpFwStatStaged = false ∧
          (1 - s.runBank) ∈ t.lamp.badBanks) ∧
        (opc = 0xB → s.flag Reg.lmpFwStat Fld.lmpFwStatStaged = true → s.lamp.due = [] →
          ∃ t, exec (.fwActivate .cage) s = .next t ∧ accepted t ∧ t.foreman.engines = []) ∧
        (opc = 0xC → ∃ t, exec (.fwCommit .cage) s = .next t ∧ accepted t ∧ (1 - s.runBank) ∈ t.lamp.badBanks) ∧
        (opc = 0xD → 1 ≤ n → getBytes a.req 0 1 ≤ 3 → ∃ t, exec (.revokeSlot .cage) s = .next t ∧ accepted t) ∧
        (opc = 0xE → 1 ≤ n → getBytes a.req 0 1 ≤ 63 → ∃ t, exec (.raiseSvn .cage) s = .next t ∧ accepted t))) ∧
    (∀ n q, (∀ c ∈ s.foreman.longs, c.via ≠ 1) →
      (∃ v, exec (.getInfo (.sideband 1 n q)) s = .next (s.emit (.response 1 ([0, 0] ++ v))) ∧ v.length = 11) ∧
      (∀ l, exec (.getSensors (.sideband 2 n q) l) s = .next (s.emit (.response 1 ([0, 0, s.reg Reg.pwrTemp, s.reg Reg.pwrTj,
        s.reg Reg.pwrFlow, s.reg Reg.pwrHeat, s.reg Reg.pwrDraw] ++ l)))) ∧
      (0 < n → getBytes q 0 1 ≤ 1 → s.conflicts 3 = false → exec (.reset (.sideband 3 n q)) s = .next { s with
        lamp := { s.lamp with due := s.lamp.due ++ [⟨6, getBytes q 0 1, s.ps + 10 ^ 8⟩] }, outbox := s.outbox ++ [.response 1 [0, 0]] })) ∧
    (∀ c u e, s.foreman.longs.find? (fun x => x.id = c.id) = some c → s.doLong c = some (u, e) →
      ∃ t, exec (.longCommandComplete c.id) s = .next t ∧ (∀ x ∈ t.foreman.longs, x.id ≠ c.id) ∧
        (c.via = 1 → t = { u with foreman := t.foreman, outbox := u.outbox ++ [.response 1 ([e.status, e.detail] ++ e.records.take (1024 / e.size))] }) ∧
        (c.via = 0 → u.hostUp = true → c.buf + c.buflen ≤ 0x100000000000 →
          1 < u.reg Reg.lmpCplqSize → (u.reg Reg.lmpCplqHead + 1) % u.reg Reg.lmpCplqSize ≠ u.reg Reg.lmpCplqTail % u.reg Reg.lmpCplqSize →
          u.reg64 Reg.lmpCplqBase0 Reg.lmpCplqBase1 + 32 * u.reg Reg.lmpCplqHead + 32 ≤ 0x100000000000 →
          t.reg Reg.lmpCplqHead = (u.reg Reg.lmpCplqHead + 1) % u.reg Reg.lmpCplqSize ∧
          t.readLE (hostBase + (u.reg64 Reg.lmpCplqBase0 Reg.lmpCplqBase1 + 32 * u.reg Reg.lmpCplqHead)) 4 = c.tag % 2 ^ 32))

/-- R516, R494: what the end of a SET_PACK_KEY, a REVOKE_SLOT and a RAISE_SVN stores; R495-R497, R513, R521-R523: the I3C address and the
endpoint identifiers, the MCTP, PLDM and SPDM answers on a path that serves, and the firmware update and activation of PLDM. -/
def Obligations.SidebandAnswers : Prop :=
  ∀ (s : State),
    let replies := fun (via : Nat) (l : List Nat) => s.emit (.response via l)
    let chain := (List.range Config.certLength).map Config.certByte
    (s.lamp.packKey = 0 → ∀ r, getBytes r 32 64 = 0 → s.setPackKey r =
      ({ s with lamp := { s.lamp with packKey := getBytes r 0 32 } }, ⟨0, 0, [], 1⟩)) ∧
    (∀ v, v < 64 → s.lamp.svn ≤ v → (∀ k, k ∈ [1, 2, 3, 4] → v ≤ getBytes (s.imageHeader s.runBank k) 16 1) →
      (s.raiseSvn v).2.status = 0 ∧ (s.raiseSvn v).1.lamp = { s.lamp with svn := v } ∧
        ((s.raiseSvn v).1.reg Reg.rstFuse) % 64 = v) ∧
    (∀ k, ((s.revokeSlot k).2.status = 0 ∧ (s.revokeSlot k).1.lamp = { s.lamp with revoked := s.lamp.revoked ||| 2 ^ k }) ∨
      ((s.revokeSlot k).2.status = 6 ∧ (s.revokeSlot k).1 = s)) ∧
    (s.lamp.standby = true → ∀ x a, exec (.i3cAddressAssign false x a) s =
        .next { s with foreman := { s.foreman with ccc := true, i3c := some (a % 128) } } ∧
      (s.foreman.i3c = none → x = 0x60 + s.fld Reg.rstStrap Fld.rstStrapCode / 2 → exec (.i3cAddressAssign true x a) s =
        .next { s with foreman := { s.foreman with ccc := true, i3c := some (a % 128) } })) ∧
    (∀ via, s.spdmUp via = true →
      (∀ e, ∃ t, exec (.setEndpointId via e) s = .next t ∧ t = { s with foreman := t.foreman, outbox := s.outbox ++ [.response via [e % 256]] } ∧
        (if via = 0 then t.foreman.eidPcie = e % 256 ∧ t.foreman.eidSide = s.foreman.eidSide
          else t.foreman.eidSide = e % 256 ∧ t.foreman.eidPcie = s.foreman.eidPcie)) ∧
      exec (.getEndpointId via) s = .next (replies via [if via = 0 then s.foreman.eidPcie else s.foreman.eidSide]) ∧
      (∀ k, k ∈ [0x00, 0x05] ∨ via ≠ 0 ∧ k ∈ [0x01, 0x7F] → exec (.getMctpVersionSupport via k) s = .next (replies via [Config.mctpVersion k])) ∧
      exec (.getMessageTypeSupport via) s = .next (replies via (if via = 0 then [0x00, 0x05] else [0x00, 0x01, 0x05, 0x7F])) ∧
      exec (.getVendorMessageSupport via) s = .next (if via = 0 then s.emit (.unsupported via) else replies via [Config.enterprise]) ∧
      exec (.getVersion via) s = .next (replies via [0x13, 0x12]) ∧
      (∀ v, v ∈ [0x12, 0x13] → exec (.getCapabilities via v) s = .next (replies via [1, 1, 2, 17])) ∧
      (∀ a b, exec (.negotiateAlgorithms via a b) s = .next (if a && b then replies via [1, 1] else s.emit (.unsupported via))) ∧
      exec (.getDigests via) s = .next (replies via [0, (Config.sha512 chain).toNat]) ∧
      (∀ o n, o < max 1 Config.certLength → exec (.getCertificate via 0 o n) s = .next (replies via ([0, min n (Config.certLength - o),
        Config.certLength - o - min n (Config.certLength - o)] ++ ((chain.drop o).take n).map BitVec.toNat))) ∧
      (∀ n, ∃ l, exec (.challenge via 0 n) s = .next { s with free := s.free + 1, outbox := s.outbox ++ [.response via (l ++ [spdmSign (n :: l)])] } ∧
        l.head? = some (Config.sha512 chain).toNat) ∧
      (∀ i b n, (i = 0xFF ∨ 1 ≤ i ∧ i ≤ 7) → ∃ l, exec (.getMeasurements via i b n) s = .next (replies via (if b then l ++ [spdmSign (n :: l)] else l)) ∧
        (i ≠ 0xFF → l = (match (s.foreman.log.filter (·.index = i)).getLast? with
          | some e => [e.index, e.digest, e.frame]
          | none => [])))) ∧
    (s.foremanUp = true →
      exec .pldmBaseRequest s = .next (replies 1 [0, 2, 5]) ∧
      (∀ k, k < 8 → ∃ v, exec (.pldmMonitoringRequest k) s = .next (replies 1 [v]) ∧ (k = 0 → v = s.reg Reg.pwrTemp % 2 ^ 16) ∧
        (k = 7 → v = s.lamp.tripPin.toNat)) ∧
      (s.foreman.longs = [] →
        (∀ b n d, s.lamp.booted = true → n ≤ 0x4000000 → ∃ t, exec (.pldmFirmwareUpdate b n d) s = .next t ∧ t.mem = s.mem ∧
          t.outbox = s.outbox ∧ t.foreman.longs = [⟨s.foreman.nextId, 0xA, 0, 2, 1 - s.runBank, n, d⟩] ∧
          t.flag Reg.lmpFwStat Fld.lmpFwStatStaging = true) ∧
        (s.flag Reg.lmpFwStat Fld.lmpFwStatStaged = true → s.lamp.due = [] → ∃ t, exec .activateFirmware s = .next t ∧
          t = { s with foreman := t.foreman } ∧ t.foreman.longs = [⟨s.foreman.nextId, 0xB, 0, 2, 0, 0, 0⟩] ∧ t.foreman.engines = [])))
end

