-- ==== Sys2Proof/Laws/Store.lean ====
section
/-!
SUPPORT. What sparse tables do: a read after a store, and the canonical form that every store keeps.
-/
namespace Sys2Proof.Machine

variable {α : Type}

/-! ## Reading after a store -/

theorem Store.find_erase (m : Store α) (k j : Nat) :
    Store.find (Store.erase m k) j = if j = k then none else Store.find m j := by
  induction m with
  | nil => simp [Store.erase, Store.find]
  | cons e m ih =>
    obtain ⟨i, w⟩ := e
    by_cases hik : i = k <;> by_cases hji : j = i <;> simp_all [Store.erase, Store.find]

theorem Store.find_insert (m : Store α) (k j : Nat) (v : α) :
    Store.find (Store.insert v m k) j = if j = k then some v else Store.find m j := by
  induction m with
  | nil => simp [Store.insert, Store.find]
  | cons e m ih =>
    obtain ⟨i, w⟩ := e
    unfold Store.insert
    split
    · simp [Store.find]
    · split
      · subst_vars; by_cases hji : j = i <;> simp [Store.find, hji]
      · by_cases hji : j = i
        · subst hji; simp [Store.find]; omega
        · simp [Store.find, hji, ih]

theorem Store.find_put (drop : Bool) (v : α) (m : Store α) (k j : Nat) :
    Store.find (Store.put drop v m k) j = if j = k then (if drop then none else some v) else Store.find m j := by
  cases drop <;> simp [Store.put, Store.find_erase, Store.find_insert]

theorem Store.get_find (d : α) (m : Store α) (k : Nat) : Store.get d m k = (Store.find m k).getD d := by
  induction m with
  | nil => rfl
  | cons e m ih => obtain ⟨i, w⟩ := e; by_cases h : k = i <;> simp [Store.get, Store.find, h, ih]

/-- A read after a store: the value stored at its key, what stood there at every other. -/
theorem Store.get_set [DecidableEq α] (d : α) (m : Store α) (k j : Nat) (v : α) :
    Store.get d (Store.set d m k v) j = if j = k then v else Store.get d m j := by
  rw [Store.get_find, Store.get_find, Store.set, Store.find_put]
  by_cases h : j = k <;> by_cases hv : v = d <;> simp [h, hv]

@[simp] theorem Store.get_set_self [DecidableEq α] (d : α) (m : Store α) (k : Nat) (v : α) :
    Store.get d (Store.set d m k v) k = v := by simp [Store.get_set]

theorem Store.get_set_ne [DecidableEq α] (d : α) (m : Store α) {k j : Nat} (v : α) (h : j ≠ k) :
    Store.get d (Store.set d m k v) j = Store.get d m j := by simp [Store.get_set, h]

/-! ## The canonical form -/

theorem Store.keysFrom_filter (p : Nat × α → Bool) (m : Store α) :
    ∀ lo, Store.keysFrom lo m = true → Store.keysFrom lo (m.filter p) = true := by
  have weak : ∀ (m : Store α) (a b : Nat), a ≤ b → Store.keysFrom (some b) m = true → Store.keysFrom (some a) m = true := by
    intro m a b hab h
    cases m with
    | nil => rfl
    | cons e m => simp [Store.keysFrom] at h ⊢; exact ⟨by omega, h.2⟩
  induction m with
  | nil => intro lo _; cases lo <;> rfl
  | cons e m ih =>
    intro lo h
    obtain ⟨k, v⟩ := e
    have hk : Store.keysFrom (some k) m = true := by cases lo <;> simp [Store.keysFrom] at h <;> simp [h]
    by_cases hp : p (k, v) = true
    · cases lo <;> simp [Store.keysFrom, hp] at h ⊢ <;> simp [h, ih _ hk]
    · rw [List.filter_cons_of_neg hp]
      cases lo with
      | none =>
        have hf := ih (some k) hk
        revert hf
        cases m.filter p with
        | nil => intro _; rfl
        | cons e l => intro hf; simp [Store.keysFrom] at hf ⊢; exact hf.2
      | some a => simp [Store.keysFrom] at h; exact weak _ a k (by omega) (ih _ hk)

theorem Store.keysFrom_insert (v : α) (m : Store α) (k : Nat) :
    ∀ lo, (∀ a, lo = some a → a < k) → Store.keysFrom lo m = true → Store.keysFrom lo (Store.insert v m k) = true := by
  induction m with
  | nil => intro lo hlo _; cases lo <;> simp [Store.insert, Store.keysFrom]; exact hlo _ rfl
  | cons e m ih =>
    intro lo hlo h
    obtain ⟨i, w⟩ := e
    have hi : Store.keysFrom (some i) m = true := by cases lo <;> simp [Store.keysFrom] at h <;> simp [h]
    unfold Store.insert
    split
    · next hlt => cases lo <;> simp [Store.keysFrom, hlt, hi]; exact hlo _ rfl
    · split
      · next heq => subst heq; cases lo <;> simp_all [Store.keysFrom]
      · next h1 h2 =>
        have hr := ih (some i) (by intro a ha; cases ha; omega) hi
        cases lo <;> simp_all [Store.keysFrom]

theorem Store.mem_insert (v : α) (m : Store α) (k : Nat) (e : Nat × α) (h : e ∈ Store.insert v m k) :
    e = (k, v) ∨ e ∈ m := by
  induction m with
  | nil => simp [Store.insert] at h; exact .inl h
  | cons f m ih =>
    obtain ⟨i, w⟩ := f
    unfold Store.insert at h
    split at h
    · simpa using h
    · split at h
      · rcases List.mem_cons.1 h with h | h
        · exact .inl h
        · exact .inr (List.mem_cons_of_mem _ h)
      · rcases List.mem_cons.1 h with h | h
        · exact .inr (h ▸ List.mem_cons_self)
        · exact (ih h).imp id (List.mem_cons_of_mem _)

/-- A store keeps the canonical form. -/
theorem Store.wf_set [DecidableEq α] (d : α) (m : Store α) (k : Nat) (v : α) (h : Store.wf d m = true) :
    Store.wf d (Store.set d m k v) = true := by
  simp only [Store.wf, Bool.and_eq_true, List.all_eq_true, decide_eq_true_eq] at h ⊢
  unfold Store.set Store.put
  by_cases hv : v = d
  · simp only [hv, decide_true, if_true]
    exact ⟨Store.keysFrom_filter _ m none h.1, fun e he => h.2 e (List.mem_filter.1 he).1⟩
  · simp only [hv, decide_false, Bool.false_eq_true, if_false]
    refine ⟨Store.keysFrom_insert v m k none (by simp) h.1, fun e he => ?_⟩
    rcases Store.mem_insert v m k e he with rfl | he
    · exact hv
    · exact h.2 e he

/-- Removing entries keeps the canonical form. -/
theorem Store.wf_filter [DecidableEq α] (d : α) (p : Nat × α → Bool) (m : Store α) (h : Store.wf d m = true) :
    Store.wf d (m.filter p) = true := by
  simp only [Store.wf, Bool.and_eq_true, List.all_eq_true, decide_eq_true_eq] at h ⊢
  exact ⟨Store.keysFrom_filter p m none h.1, fun e he => h.2 e (List.mem_filter.1 he).1⟩

/-! ## Memory -/

/-- A write of memory keeps its canonical form. -/
theorem memWrite_wf (m : List Host.Cell) (pa n v en : Nat) (h : Store.wf memDefault m = true) :
    Store.wf memDefault (memWrite m pa n v en) = true := by
  induction n generalizing m pa v en with
  | zero => exact h
  | succ n ih =>
    unfold memWrite
    split
    · exact ih _ _ _ _ (Store.wf_set _ _ _ _ h)
    · exact ih _ _ _ _ h

/-- A byte after a write of memory: the byte of the value where its enable is set, what stood there elsewhere. -/
theorem memWrite_get (m : List Host.Cell) (pa n v en a : Nat) :
    Store.get memDefault (memWrite m pa n v en) a =
      if pa ≤ a ∧ a < pa + n ∧ en.testBit (a - pa) = true then BitVec.ofNat 8 (v / 256 ^ (a - pa))
      else Store.get memDefault m a := by
  induction n generalizing m pa v en with
  | zero => simp [memWrite]; omega
  | succ n ih =>
    unfold memWrite
    rw [ih]
    by_cases ha : pa + 1 ≤ a ∧ a < pa + 1 + n
    · have hs : a - pa = (a - (pa + 1)) + 1 := by omega
      have he : en.testBit (a - pa) = (en / 2).testBit (a - (pa + 1)) := by rw [hs, Nat.testBit_succ]
      have hv : v / 256 ^ (a - pa) = v / 256 / 256 ^ (a - (pa + 1)) := by
        rw [hs, Nat.pow_succ, Nat.mul_comm, Nat.div_div_eq_div_mul]
      rw [he, hv]
      by_cases hb : (en / 2).testBit (a - (pa + 1)) = true
      · have h1 : pa + 1 ≤ a ∧ a < pa + 1 + n ∧ (en / 2).testBit (a - (pa + 1)) = true := ⟨ha.1, ha.2, hb⟩
        have h2 : pa ≤ a ∧ a < pa + (n + 1) ∧ (en / 2).testBit (a - (pa + 1)) = true := ⟨by omega, by omega, hb⟩
        rw [if_pos h1, if_pos h2]
      · have h1 : ¬(pa + 1 ≤ a ∧ a < pa + 1 + n ∧ (en / 2).testBit (a - (pa + 1)) = true) := fun h => hb h.2.2
        have h2 : ¬(pa ≤ a ∧ a < pa + (n + 1) ∧ (en / 2).testBit (a - (pa + 1)) = true) := fun h => hb h.2.2
        rw [if_neg h1, if_neg h2]
        split
        · exact Store.get_set_ne _ _ _ (by omega)
        · rfl
    · rw [if_neg (fun h => ha ⟨h.1, h.2.1⟩)]
      by_cases h0 : a = pa
      · subst h0
        have ht : en.testBit 0 = decide (en % 2 = 1) := Nat.testBit_zero en
        by_cases hen : en % 2 = 1
        · have hc : a ≤ a ∧ a < a + (n + 1) ∧ en.testBit (a - a) = true :=
            ⟨Nat.le_refl _, by omega, by rw [Nat.sub_self, ht, decide_eq_true hen]⟩
          rw [if_pos hen, if_pos hc]
          simp
        · have hc : ¬(a ≤ a ∧ a < a + (n + 1) ∧ en.testBit (a - a) = true) := by
            rintro ⟨_, _, h⟩
            rw [Nat.sub_self, ht] at h
            exact hen (of_decide_eq_true h)
          rw [if_neg hen, if_neg hc]
      · have hc : ¬(pa ≤ a ∧ a < pa + (n + 1) ∧ en.testBit (a - pa) = true) := fun h => by omega
        rw [if_neg hc]
        split
        · exact Store.get_set_ne _ _ _ h0
        · rfl

end Sys2Proof.Machine
end

