-- ==== Sys2Proof/Laws/State.lean ====
section
/-!
SUPPORT. What each named update of State leaves as it stood: one rule for each other field, so that no proof unfolds a record.
-/
namespace Sys2Proof.Machine

@[simp] theorem State.setReg_frame (s : State) (off v : Nat) :
    (s.setReg off v).pending = s.pending ∧ (s.setReg off v).mem = s.mem ∧ (s.setReg off v).marks = s.marks ∧
    (s.setReg off v).cycle = s.cycle ∧ (s.setReg off v).ps = s.ps ∧ (s.setReg off v).sub = s.sub ∧
    (s.setReg off v).wrote = s.wrote ∧ (s.setReg off v).raised = s.raised ∧ (s.setReg off v).idleFrom = s.idleFrom ∧
    (s.setReg off v).findings = s.findings ∧ (s.setReg off v).free = s.free ∧ (s.setReg off v).fresh = s.fresh ∧
    (s.setReg off v).outbox = s.outbox ∧ (s.setReg off v).crews = s.crews ∧ (s.setReg off v).drills = s.drills ∧
    (s.setReg off v).stopes = s.stopes ∧ (s.setReg off v).shafts = s.shafts ∧
    (s.setReg off v).dispatches = s.dispatches ∧ (s.setReg off v).requeued = s.requeued ∧
    (s.setReg off v).steps = s.steps ∧ (s.setReg off v).seqNo = s.seqNo ∧ (s.setReg off v).tickets = s.tickets ∧
    (s.setReg off v).serial = s.serial ∧ (s.setReg off v).born = s.born ∧ (s.setReg off v).poisoned = s.poisoned ∧
    (s.setReg off v).pairs = s.pairs ∧ (s.setReg off v).saved = s.saved ∧ (s.setReg off v).lastShaft = s.lastShaft ∧
    (s.setReg off v).lastStope = s.lastStope ∧ (s.setReg off v).preempts = s.preempts ∧
    (s.setReg off v).skips = s.skips ∧ (s.setReg off v).hfTlb = s.hfTlb ∧ (s.setReg off v).fid = s.fid ∧
    (s.setReg off v).inval = s.inval ∧ (s.setReg off v).locks = s.locks ∧ (s.setReg off v).ages = s.ages ∧
    (s.setReg off v).corrections = s.corrections ∧ (s.setReg off v).tests = s.tests ∧
    (s.setReg off v).window = s.window ∧ (s.setReg off v).hbms = s.hbms ∧ (s.setReg off v).hbmUsed = s.hbmUsed ∧
    (s.setReg off v).spareRows = s.spareRows ∧ (s.setReg off v).repairs = s.repairs ∧
    (s.setReg off v).retired = s.retired ∧ (s.setReg off v).waitGraph = s.waitGraph ∧ (s.setReg off v).sums = s.sums ∧
    (s.setReg off v).turns = s.turns ∧ (s.setReg off v).waits = s.waits ∧ (s.setReg off v).activity = s.activity ∧
    (s.setReg off v).snapshot = s.snapshot ∧ (s.setReg off v).pack = s.pack ∧ (s.setReg off v).packNext = s.packNext ∧
    (s.setReg off v).levelNext = s.levelNext ∧ (s.setReg off v).inject = s.inject ∧ (s.setReg off v).adits = s.adits ∧
    (s.setReg off v).arrived = s.arrived ∧ (s.setReg off v).cpl = s.cpl ∧ (s.setReg off v).spareLanes = s.spareLanes ∧
    (s.setReg off v).heldFrame = s.heldFrame ∧ (s.setReg off v).xfer = s.xfer ∧ (s.setReg off v).buckets = s.buckets ∧
    (s.setReg off v).xfers = s.xfers ∧ (s.setReg off v).riffles = s.riffles ∧ (s.setReg off v).bcycle = s.bcycle ∧
    (s.setReg off v).bgWin = s.bgWin ∧ (s.setReg off v).phases = s.phases ∧ (s.setReg off v).smelts = s.smelts ∧
    (s.setReg off v).whistle = s.whistle ∧ (s.setReg off v).power = s.power ∧ (s.setReg off v).lamp = s.lamp ∧
    (s.setReg off v).foreman = s.foreman ∧ (s.setReg off v).port = s.port :=
  ⟨rfl, rfl, rfl, rfl, rfl, rfl, rfl, rfl, rfl, rfl, rfl, rfl, rfl, rfl, rfl, rfl, rfl, rfl, rfl, rfl, rfl, rfl,
   rfl, rfl, rfl, rfl, rfl, rfl, rfl, rfl, rfl, rfl, rfl, rfl, rfl, rfl, rfl, rfl, rfl, rfl, rfl, rfl, rfl, rfl,
   rfl, rfl, rfl, rfl, rfl, rfl, rfl, rfl, rfl, rfl, rfl, rfl, rfl, rfl, rfl, rfl, rfl, rfl, rfl, rfl, rfl, rfl,
   rfl, rfl, rfl, rfl, rfl, rfl⟩

@[simp] theorem State.setFld_frame (s : State) (off : Nat) (f : Fld) (v : Nat) :
    (s.setFld off f v).pending = s.pending ∧ (s.setFld off f v).mem = s.mem ∧ (s.setFld off f v).marks = s.marks ∧
    (s.setFld off f v).cycle = s.cycle ∧ (s.setFld off f v).ps = s.ps ∧ (s.setFld off f v).sub = s.sub ∧
    (s.setFld off f v).wrote = s.wrote ∧ (s.setFld off f v).raised = s.raised ∧
    (s.setFld off f v).idleFrom = s.idleFrom ∧ (s.setFld off f v).findings = s.findings ∧
    (s.setFld off f v).free = s.free ∧ (s.setFld off f v).fresh = s.fresh ∧ (s.setFld off f v).outbox = s.outbox ∧
    (s.setFld off f v).crews = s.crews ∧ (s.setFld off f v).drills = s.drills ∧ (s.setFld off f v).stopes = s.stopes ∧
    (s.setFld off f v).shafts = s.shafts ∧ (s.setFld off f v).dispatches = s.dispatches ∧
    (s.setFld off f v).requeued = s.requeued ∧ (s.setFld off f v).steps = s.steps ∧
    (s.setFld off f v).seqNo = s.seqNo ∧ (s.setFld off f v).tickets = s.tickets ∧
    (s.setFld off f v).serial = s.serial ∧ (s.setFld off f v).born = s.born ∧
    (s.setFld off f v).poisoned = s.poisoned ∧ (s.setFld off f v).pairs = s.pairs ∧
    (s.setFld off f v).saved = s.saved ∧ (s.setFld off f v).lastShaft = s.lastShaft ∧
    (s.setFld off f v).lastStope = s.lastStope ∧ (s.setFld off f v).preempts = s.preempts ∧
    (s.setFld off f v).skips = s.skips ∧ (s.setFld off f v).hfTlb = s.hfTlb ∧ (s.setFld off f v).fid = s.fid ∧
    (s.setFld off f v).inval = s.inval ∧ (s.setFld off f v).locks = s.locks ∧ (s.setFld off f v).ages = s.ages ∧
    (s.setFld off f v).corrections = s.corrections ∧ (s.setFld off f v).tests = s.tests ∧
    (s.setFld off f v).window = s.window ∧ (s.setFld off f v).hbms = s.hbms ∧ (s.setFld off f v).hbmUsed = s.hbmUsed ∧
    (s.setFld off f v).spareRows = s.spareRows ∧ (s.setFld off f v).repairs = s.repairs ∧
    (s.setFld off f v).retired = s.retired ∧ (s.setFld off f v).waitGraph = s.waitGraph ∧
    (s.setFld off f v).sums = s.sums ∧ (s.setFld off f v).turns = s.turns ∧ (s.setFld off f v).waits = s.waits ∧
    (s.setFld off f v).activity = s.activity ∧ (s.setFld off f v).snapshot = s.snapshot ∧
    (s.setFld off f v).pack = s.pack ∧ (s.setFld off f v).packNext = s.packNext ∧
    (s.setFld off f v).levelNext = s.levelNext ∧ (s.setFld off f v).inject = s.inject ∧
    (s.setFld off f v).adits = s.adits ∧ (s.setFld off f v).arrived = s.arrived ∧ (s.setFld off f v).cpl = s.cpl ∧
    (s.setFld off f v).spareLanes = s.spareLanes ∧ (s.setFld off f v).heldFrame = s.heldFrame ∧
    (s.setFld off f v).xfer = s.xfer ∧ (s.setFld off f v).buckets = s.buckets ∧ (s.setFld off f v).xfers = s.xfers ∧
    (s.setFld off f v).riffles = s.riffles ∧ (s.setFld off f v).bcycle = s.bcycle ∧
    (s.setFld off f v).bgWin = s.bgWin ∧ (s.setFld off f v).phases = s.phases ∧ (s.setFld off f v).smelts = s.smelts ∧
    (s.setFld off f v).whistle = s.whistle ∧ (s.setFld off f v).power = s.power ∧ (s.setFld off f v).lamp = s.lamp ∧
    (s.setFld off f v).foreman = s.foreman ∧ (s.setFld off f v).port = s.port :=
  ⟨rfl, rfl, rfl, rfl, rfl, rfl, rfl, rfl, rfl, rfl, rfl, rfl, rfl, rfl, rfl, rfl, rfl, rfl, rfl, rfl, rfl, rfl,
   rfl, rfl, rfl, rfl, rfl, rfl, rfl, rfl, rfl, rfl, rfl, rfl, rfl, rfl, rfl, rfl, rfl, rfl, rfl, rfl, rfl, rfl,
   rfl, rfl, rfl, rfl, rfl, rfl, rfl, rfl, rfl, rfl, rfl, rfl, rfl, rfl, rfl, rfl, rfl, rfl, rfl, rfl, rfl, rfl,
   rfl, rfl, rfl, rfl, rfl, rfl⟩

@[simp] theorem State.bumpN_frame (s : State) (off n : Nat) :
    (s.bumpN off n).pending = s.pending ∧ (s.bumpN off n).mem = s.mem ∧ (s.bumpN off n).marks = s.marks ∧
    (s.bumpN off n).cycle = s.cycle ∧ (s.bumpN off n).ps = s.ps ∧ (s.bumpN off n).sub = s.sub ∧
    (s.bumpN off n).wrote = s.wrote ∧ (s.bumpN off n).raised = s.raised ∧ (s.bumpN off n).idleFrom = s.idleFrom ∧
    (s.bumpN off n).findings = s.findings ∧ (s.bumpN off n).free = s.free ∧ (s.bumpN off n).fresh = s.fresh ∧
    (s.bumpN off n).outbox = s.outbox ∧ (s.bumpN off n).crews = s.crews ∧ (s.bumpN off n).drills = s.drills ∧
    (s.bumpN off n).stopes = s.stopes ∧ (s.bumpN off n).shafts = s.shafts ∧
    (s.bumpN off n).dispatches = s.dispatches ∧ (s.bumpN off n).requeued = s.requeued ∧
    (s.bumpN off n).steps = s.steps ∧ (s.bumpN off n).seqNo = s.seqNo ∧ (s.bumpN off n).tickets = s.tickets ∧
    (s.bumpN off n).serial = s.serial ∧ (s.bumpN off n).born = s.born ∧ (s.bumpN off n).poisoned = s.poisoned ∧
    (s.bumpN off n).pairs = s.pairs ∧ (s.bumpN off n).saved = s.saved ∧ (s.bumpN off n).lastShaft = s.lastShaft ∧
    (s.bumpN off n).lastStope = s.lastStope ∧ (s.bumpN off n).preempts = s.preempts ∧
    (s.bumpN off n).skips = s.skips ∧ (s.bumpN off n).hfTlb = s.hfTlb ∧ (s.bumpN off n).fid = s.fid ∧
    (s.bumpN off n).inval = s.inval ∧ (s.bumpN off n).locks = s.locks ∧ (s.bumpN off n).ages = s.ages ∧
    (s.bumpN off n).corrections = s.corrections ∧ (s.bumpN off n).tests = s.tests ∧
    (s.bumpN off n).window = s.window ∧ (s.bumpN off n).hbms = s.hbms ∧ (s.bumpN off n).hbmUsed = s.hbmUsed ∧
    (s.bumpN off n).spareRows = s.spareRows ∧ (s.bumpN off n).repairs = s.repairs ∧
    (s.bumpN off n).retired = s.retired ∧ (s.bumpN off n).waitGraph = s.waitGraph ∧ (s.bumpN off n).sums = s.sums ∧
    (s.bumpN off n).turns = s.turns ∧ (s.bumpN off n).waits = s.waits ∧ (s.bumpN off n).activity = s.activity ∧
    (s.bumpN off n).snapshot = s.snapshot ∧ (s.bumpN off n).pack = s.pack ∧ (s.bumpN off n).packNext = s.packNext ∧
    (s.bumpN off n).levelNext = s.levelNext ∧ (s.bumpN off n).inject = s.inject ∧ (s.bumpN off n).adits = s.adits ∧
    (s.bumpN off n).arrived = s.arrived ∧ (s.bumpN off n).cpl = s.cpl ∧ (s.bumpN off n).spareLanes = s.spareLanes ∧
    (s.bumpN off n).heldFrame = s.heldFrame ∧ (s.bumpN off n).xfer = s.xfer ∧ (s.bumpN off n).buckets = s.buckets ∧
    (s.bumpN off n).xfers = s.xfers ∧ (s.bumpN off n).riffles = s.riffles ∧ (s.bumpN off n).bcycle = s.bcycle ∧
    (s.bumpN off n).bgWin = s.bgWin ∧ (s.bumpN off n).phases = s.phases ∧ (s.bumpN off n).smelts = s.smelts ∧
    (s.bumpN off n).whistle = s.whistle ∧ (s.bumpN off n).power = s.power ∧ (s.bumpN off n).lamp = s.lamp ∧
    (s.bumpN off n).foreman = s.foreman ∧ (s.bumpN off n).port = s.port :=
  ⟨rfl, rfl, rfl, rfl, rfl, rfl, rfl, rfl, rfl, rfl, rfl, rfl, rfl, rfl, rfl, rfl, rfl, rfl, rfl, rfl, rfl, rfl,
   rfl, rfl, rfl, rfl, rfl, rfl, rfl, rfl, rfl, rfl, rfl, rfl, rfl, rfl, rfl, rfl, rfl, rfl, rfl, rfl, rfl, rfl,
   rfl, rfl, rfl, rfl, rfl, rfl, rfl, rfl, rfl, rfl, rfl, rfl, rfl, rfl, rfl, rfl, rfl, rfl, rfl, rfl, rfl, rfl,
   rfl, rfl, rfl, rfl, rfl, rfl⟩

@[simp] theorem State.bump_frame (s : State) (off : Nat) :
    (s.bump off).pending = s.pending ∧ (s.bump off).mem = s.mem ∧ (s.bump off).marks = s.marks ∧
    (s.bump off).cycle = s.cycle ∧ (s.bump off).ps = s.ps ∧ (s.bump off).sub = s.sub ∧ (s.bump off).wrote = s.wrote ∧
    (s.bump off).raised = s.raised ∧ (s.bump off).idleFrom = s.idleFrom ∧ (s.bump off).findings = s.findings ∧
    (s.bump off).free = s.free ∧ (s.bump off).fresh = s.fresh ∧ (s.bump off).outbox = s.outbox ∧
    (s.bump off).crews = s.crews ∧ (s.bump off).drills = s.drills ∧ (s.bump off).stopes = s.stopes ∧
    (s.bump off).shafts = s.shafts ∧ (s.bump off).dispatches = s.dispatches ∧ (s.bump off).requeued = s.requeued ∧
    (s.bump off).steps = s.steps ∧ (s.bump off).seqNo = s.seqNo ∧ (s.bump off).tickets = s.tickets ∧
    (s.bump off).serial = s.serial ∧ (s.bump off).born = s.born ∧ (s.bump off).poisoned = s.poisoned ∧
    (s.bump off).pairs = s.pairs ∧ (s.bump off).saved = s.saved ∧ (s.bump off).lastShaft = s.lastShaft ∧
    (s.bump off).lastStope = s.lastStope ∧ (s.bump off).preempts = s.preempts ∧ (s.bump off).skips = s.skips ∧
    (s.bump off).hfTlb = s.hfTlb ∧ (s.bump off).fid = s.fid ∧ (s.bump off).inval = s.inval ∧
    (s.bump off).locks = s.locks ∧ (s.bump off).ages = s.ages ∧ (s.bump off).corrections = s.corrections ∧
    (s.bump off).tests = s.tests ∧ (s.bump off).window = s.window ∧ (s.bump off).hbms = s.hbms ∧
    (s.bump off).hbmUsed = s.hbmUsed ∧ (s.bump off).spareRows = s.spareRows ∧ (s.bump off).repairs = s.repairs ∧
    (s.bump off).retired = s.retired ∧ (s.bump off).waitGraph = s.waitGraph ∧ (s.bump off).sums = s.sums ∧
    (s.bump off).turns = s.turns ∧ (s.bump off).waits = s.waits ∧ (s.bump off).activity = s.activity ∧
    (s.bump off).snapshot = s.snapshot ∧ (s.bump off).pack = s.pack ∧ (s.bump off).packNext = s.packNext ∧
    (s.bump off).levelNext = s.levelNext ∧ (s.bump off).inject = s.inject ∧ (s.bump off).adits = s.adits ∧
    (s.bump off).arrived = s.arrived ∧ (s.bump off).cpl = s.cpl ∧ (s.bump off).spareLanes = s.spareLanes ∧
    (s.bump off).heldFrame = s.heldFrame ∧ (s.bump off).xfer = s.xfer ∧ (s.bump off).buckets = s.buckets ∧
    (s.bump off).xfers = s.xfers ∧ (s.bump off).riffles = s.riffles ∧ (s.bump off).bcycle = s.bcycle ∧
    (s.bump off).bgWin = s.bgWin ∧ (s.bump off).phases = s.phases ∧ (s.bump off).smelts = s.smelts ∧
    (s.bump off).whistle = s.whistle ∧ (s.bump off).power = s.power ∧ (s.bump off).lamp = s.lamp ∧
    (s.bump off).foreman = s.foreman ∧ (s.bump off).port = s.port :=
  ⟨rfl, rfl, rfl, rfl, rfl, rfl, rfl, rfl, rfl, rfl, rfl, rfl, rfl, rfl, rfl, rfl, rfl, rfl, rfl, rfl, rfl, rfl,
   rfl, rfl, rfl, rfl, rfl, rfl, rfl, rfl, rfl, rfl, rfl, rfl, rfl, rfl, rfl, rfl, rfl, rfl, rfl, rfl, rfl, rfl,
   rfl, rfl, rfl, rfl, rfl, rfl, rfl, rfl, rfl, rfl, rfl, rfl, rfl, rfl, rfl, rfl, rfl, rfl, rfl, rfl, rfl, rfl,
   rfl, rfl, rfl, rfl, rfl, rfl⟩

@[simp] theorem State.setReg64_frame (s : State) (lo hi v : Nat) :
    (s.setReg64 lo hi v).pending = s.pending ∧ (s.setReg64 lo hi v).mem = s.mem ∧
    (s.setReg64 lo hi v).marks = s.marks ∧ (s.setReg64 lo hi v).cycle = s.cycle ∧ (s.setReg64 lo hi v).ps = s.ps ∧
    (s.setReg64 lo hi v).sub = s.sub ∧ (s.setReg64 lo hi v).wrote = s.wrote ∧ (s.setReg64 lo hi v).raised = s.raised ∧
    (s.setReg64 lo hi v).idleFrom = s.idleFrom ∧ (s.setReg64 lo hi v).findings = s.findings ∧
    (s.setReg64 lo hi v).free = s.free ∧ (s.setReg64 lo hi v).fresh = s.fresh ∧
    (s.setReg64 lo hi v).outbox = s.outbox ∧ (s.setReg64 lo hi v).crews = s.crews ∧
    (s.setReg64 lo hi v).drills = s.drills ∧ (s.setReg64 lo hi v).stopes = s.stopes ∧
    (s.setReg64 lo hi v).shafts = s.shafts ∧ (s.setReg64 lo hi v).dispatches = s.dispatches ∧
    (s.setReg64 lo hi v).requeued = s.requeued ∧ (s.setReg64 lo hi v).steps = s.steps ∧
    (s.setReg64 lo hi v).seqNo = s.seqNo ∧ (s.setReg64 lo hi v).tickets = s.tickets ∧
    (s.setReg64 lo hi v).serial = s.serial ∧ (s.setReg64 lo hi v).born = s.born ∧
    (s.setReg64 lo hi v).poisoned = s.poisoned ∧ (s.setReg64 lo hi v).pairs = s.pairs ∧
    (s.setReg64 lo hi v).saved = s.saved ∧ (s.setReg64 lo hi v).lastShaft = s.lastShaft ∧
    (s.setReg64 lo hi v).lastStope = s.lastStope ∧ (s.setReg64 lo hi v).preempts = s.preempts ∧
    (s.setReg64 lo hi v).skips = s.skips ∧ (s.setReg64 lo hi v).hfTlb = s.hfTlb ∧ (s.setReg64 lo hi v).fid = s.fid ∧
    (s.setReg64 lo hi v).inval = s.inval ∧ (s.setReg64 lo hi v).locks = s.locks ∧ (s.setReg64 lo hi v).ages = s.ages ∧
    (s.setReg64 lo hi v).corrections = s.corrections ∧ (s.setReg64 lo hi v).tests = s.tests ∧
    (s.setReg64 lo hi v).window = s.window ∧ (s.setReg64 lo hi v).hbms = s.hbms ∧
    (s.setReg64 lo hi v).hbmUsed = s.hbmUsed ∧ (s.setReg64 lo hi v).spareRows = s.spareRows ∧
    (s.setReg64 lo hi v).repairs = s.repairs ∧ (s.setReg64 lo hi v).retired = s.retired ∧
    (s.setReg64 lo hi v).waitGraph = s.waitGraph ∧ (s.setReg64 lo hi v).sums = s.sums ∧
    (s.setReg64 lo hi v).turns = s.turns ∧ (s.setReg64 lo hi v).waits = s.waits ∧
    (s.setReg64 lo hi v).activity = s.activity ∧ (s.setReg64 lo hi v).snapshot = s.snapshot ∧
    (s.setReg64 lo hi v).pack = s.pack ∧ (s.setReg64 lo hi v).packNext = s.packNext ∧
    (s.setReg64 lo hi v).levelNext = s.levelNext ∧ (s.setReg64 lo hi v).inject = s.inject ∧
    (s.setReg64 lo hi v).adits = s.adits ∧ (s.setReg64 lo hi v).arrived = s.arrived ∧
    (s.setReg64 lo hi v).cpl = s.cpl ∧ (s.setReg64 lo hi v).spareLanes = s.spareLanes ∧
    (s.setReg64 lo hi v).heldFrame = s.heldFrame ∧ (s.setReg64 lo hi v).xfer = s.xfer ∧
    (s.setReg64 lo hi v).buckets = s.buckets ∧ (s.setReg64 lo hi v).xfers = s.xfers ∧
    (s.setReg64 lo hi v).riffles = s.riffles ∧ (s.setReg64 lo hi v).bcycle = s.bcycle ∧
    (s.setReg64 lo hi v).bgWin = s.bgWin ∧ (s.setReg64 lo hi v).phases = s.phases ∧
    (s.setReg64 lo hi v).smelts = s.smelts ∧ (s.setReg64 lo hi v).whistle = s.whistle ∧
    (s.setReg64 lo hi v).power = s.power ∧ (s.setReg64 lo hi v).lamp = s.lamp ∧
    (s.setReg64 lo hi v).foreman = s.foreman ∧ (s.setReg64 lo hi v).port = s.port :=
  ⟨rfl, rfl, rfl, rfl, rfl, rfl, rfl, rfl, rfl, rfl, rfl, rfl, rfl, rfl, rfl, rfl, rfl, rfl, rfl, rfl, rfl, rfl,
   rfl, rfl, rfl, rfl, rfl, rfl, rfl, rfl, rfl, rfl, rfl, rfl, rfl, rfl, rfl, rfl, rfl, rfl, rfl, rfl, rfl, rfl,
   rfl, rfl, rfl, rfl, rfl, rfl, rfl, rfl, rfl, rfl, rfl, rfl, rfl, rfl, rfl, rfl, rfl, rfl, rfl, rfl, rfl, rfl,
   rfl, rfl, rfl, rfl, rfl, rfl⟩

@[simp] theorem State.emit_frame (s : State) (o : Output) :
    (s.emit o).pending = s.pending ∧ (s.emit o).regs = s.regs ∧ (s.emit o).mem = s.mem ∧ (s.emit o).marks = s.marks ∧
    (s.emit o).cycle = s.cycle ∧ (s.emit o).ps = s.ps ∧ (s.emit o).sub = s.sub ∧ (s.emit o).wrote = s.wrote ∧
    (s.emit o).raised = s.raised ∧ (s.emit o).idleFrom = s.idleFrom ∧ (s.emit o).findings = s.findings ∧
    (s.emit o).free = s.free ∧ (s.emit o).fresh = s.fresh ∧ (s.emit o).crews = s.crews ∧
    (s.emit o).drills = s.drills ∧ (s.emit o).stopes = s.stopes ∧ (s.emit o).shafts = s.shafts ∧
    (s.emit o).dispatches = s.dispatches ∧ (s.emit o).requeued = s.requeued ∧ (s.emit o).steps = s.steps ∧
    (s.emit o).seqNo = s.seqNo ∧ (s.emit o).tickets = s.tickets ∧ (s.emit o).serial = s.serial ∧
    (s.emit o).born = s.born ∧ (s.emit o).poisoned = s.poisoned ∧ (s.emit o).pairs = s.pairs ∧
    (s.emit o).saved = s.saved ∧ (s.emit o).lastShaft = s.lastShaft ∧ (s.emit o).lastStope = s.lastStope ∧
    (s.emit o).preempts = s.preempts ∧ (s.emit o).skips = s.skips ∧ (s.emit o).hfTlb = s.hfTlb ∧
    (s.emit o).fid = s.fid ∧ (s.emit o).inval = s.inval ∧ (s.emit o).locks = s.locks ∧ (s.emit o).ages = s.ages ∧
    (s.emit o).corrections = s.corrections ∧ (s.emit o).tests = s.tests ∧ (s.emit o).window = s.window ∧
    (s.emit o).hbms = s.hbms ∧ (s.emit o).hbmUsed = s.hbmUsed ∧ (s.emit o).spareRows = s.spareRows ∧
    (s.emit o).repairs = s.repairs ∧ (s.emit o).retired = s.retired ∧ (s.emit o).waitGraph = s.waitGraph ∧
    (s.emit o).sums = s.sums ∧ (s.emit o).turns = s.turns ∧ (s.emit o).waits = s.waits ∧
    (s.emit o).activity = s.activity ∧ (s.emit o).snapshot = s.snapshot ∧ (s.emit o).pack = s.pack ∧
    (s.emit o).packNext = s.packNext ∧ (s.emit o).levelNext = s.levelNext ∧ (s.emit o).inject = s.inject ∧
    (s.emit o).adits = s.adits ∧ (s.emit o).arrived = s.arrived ∧ (s.emit o).cpl = s.cpl ∧
    (s.emit o).spareLanes = s.spareLanes ∧ (s.emit o).heldFrame = s.heldFrame ∧ (s.emit o).xfer = s.xfer ∧
    (s.emit o).buckets = s.buckets ∧ (s.emit o).xfers = s.xfers ∧ (s.emit o).riffles = s.riffles ∧
    (s.emit o).bcycle = s.bcycle ∧ (s.emit o).bgWin = s.bgWin ∧ (s.emit o).phases = s.phases ∧
    (s.emit o).smelts = s.smelts ∧ (s.emit o).whistle = s.whistle ∧ (s.emit o).power = s.power ∧
    (s.emit o).lamp = s.lamp ∧ (s.emit o).foreman = s.foreman ∧ (s.emit o).port = s.port :=
  ⟨rfl, rfl, rfl, rfl, rfl, rfl, rfl, rfl, rfl, rfl, rfl, rfl, rfl, rfl, rfl, rfl, rfl, rfl, rfl, rfl, rfl, rfl,
   rfl, rfl, rfl, rfl, rfl, rfl, rfl, rfl, rfl, rfl, rfl, rfl, rfl, rfl, rfl, rfl, rfl, rfl, rfl, rfl, rfl, rfl,
   rfl, rfl, rfl, rfl, rfl, rfl, rfl, rfl, rfl, rfl, rfl, rfl, rfl, rfl, rfl, rfl, rfl, rfl, rfl, rfl, rfl, rfl,
   rfl, rfl, rfl, rfl, rfl, rfl⟩

@[simp] theorem State.mark_frame (s : State) (pa syn : Nat) :
    (s.mark pa syn).pending = s.pending ∧ (s.mark pa syn).regs = s.regs ∧ (s.mark pa syn).mem = s.mem ∧
    (s.mark pa syn).cycle = s.cycle ∧ (s.mark pa syn).ps = s.ps ∧ (s.mark pa syn).sub = s.sub ∧
    (s.mark pa syn).wrote = s.wrote ∧ (s.mark pa syn).raised = s.raised ∧ (s.mark pa syn).idleFrom = s.idleFrom ∧
    (s.mark pa syn).findings = s.findings ∧ (s.mark pa syn).free = s.free ∧ (s.mark pa syn).fresh = s.fresh ∧
    (s.mark pa syn).outbox = s.outbox ∧ (s.mark pa syn).crews = s.crews ∧ (s.mark pa syn).drills = s.drills ∧
    (s.mark pa syn).stopes = s.stopes ∧ (s.mark pa syn).shafts = s.shafts ∧
    (s.mark pa syn).dispatches = s.dispatches ∧ (s.mark pa syn).requeued = s.requeued ∧
    (s.mark pa syn).steps = s.steps ∧ (s.mark pa syn).seqNo = s.seqNo ∧ (s.mark pa syn).tickets = s.tickets ∧
    (s.mark pa syn).serial = s.serial ∧ (s.mark pa syn).born = s.born ∧ (s.mark pa syn).poisoned = s.poisoned ∧
    (s.mark pa syn).pairs = s.pairs ∧ (s.mark pa syn).saved = s.saved ∧ (s.mark pa syn).lastShaft = s.lastShaft ∧
    (s.mark pa syn).lastStope = s.lastStope ∧ (s.mark pa syn).preempts = s.preempts ∧
    (s.mark pa syn).skips = s.skips ∧ (s.mark pa syn).hfTlb = s.hfTlb ∧ (s.mark pa syn).fid = s.fid ∧
    (s.mark pa syn).inval = s.inval ∧ (s.mark pa syn).locks = s.locks ∧ (s.mark pa syn).ages = s.ages ∧
    (s.mark pa syn).corrections = s.corrections ∧ (s.mark pa syn).tests = s.tests ∧
    (s.mark pa syn).window = s.window ∧ (s.mark pa syn).hbms = s.hbms ∧ (s.mark pa syn).hbmUsed = s.hbmUsed ∧
    (s.mark pa syn).spareRows = s.spareRows ∧ (s.mark pa syn).repairs = s.repairs ∧
    (s.mark pa syn).retired = s.retired ∧ (s.mark pa syn).waitGraph = s.waitGraph ∧ (s.mark pa syn).sums = s.sums ∧
    (s.mark pa syn).turns = s.turns ∧ (s.mark pa syn).waits = s.waits ∧ (s.mark pa syn).activity = s.activity ∧
    (s.mark pa syn).snapshot = s.snapshot ∧ (s.mark pa syn).pack = s.pack ∧ (s.mark pa syn).packNext = s.packNext ∧
    (s.mark pa syn).levelNext = s.levelNext ∧ (s.mark pa syn).inject = s.inject ∧ (s.mark pa syn).adits = s.adits ∧
    (s.mark pa syn).arrived = s.arrived ∧ (s.mark pa syn).cpl = s.cpl ∧ (s.mark pa syn).spareLanes = s.spareLanes ∧
    (s.mark pa syn).heldFrame = s.heldFrame ∧ (s.mark pa syn).xfer = s.xfer ∧ (s.mark pa syn).buckets = s.buckets ∧
    (s.mark pa syn).xfers = s.xfers ∧ (s.mark pa syn).riffles = s.riffles ∧ (s.mark pa syn).bcycle = s.bcycle ∧
    (s.mark pa syn).bgWin = s.bgWin ∧ (s.mark pa syn).phases = s.phases ∧ (s.mark pa syn).smelts = s.smelts ∧
    (s.mark pa syn).whistle = s.whistle ∧ (s.mark pa syn).power = s.power ∧ (s.mark pa syn).lamp = s.lamp ∧
    (s.mark pa syn).foreman = s.foreman ∧ (s.mark pa syn).port = s.port :=
  ⟨rfl, rfl, rfl, rfl, rfl, rfl, rfl, rfl, rfl, rfl, rfl, rfl, rfl, rfl, rfl, rfl, rfl, rfl, rfl, rfl, rfl, rfl,
   rfl, rfl, rfl, rfl, rfl, rfl, rfl, rfl, rfl, rfl, rfl, rfl, rfl, rfl, rfl, rfl, rfl, rfl, rfl, rfl, rfl, rfl,
   rfl, rfl, rfl, rfl, rfl, rfl, rfl, rfl, rfl, rfl, rfl, rfl, rfl, rfl, rfl, rfl, rfl, rfl, rfl, rfl, rfl, rfl,
   rfl, rfl, rfl, rfl, rfl, rfl⟩

@[simp] theorem State.setCrew_frame (s : State) (c : CrewRef) (x : Crew) :
    (s.setCrew c x).pending = s.pending ∧ (s.setCrew c x).regs = s.regs ∧ (s.setCrew c x).mem = s.mem ∧
    (s.setCrew c x).marks = s.marks ∧ (s.setCrew c x).cycle = s.cycle ∧ (s.setCrew c x).ps = s.ps ∧
    (s.setCrew c x).sub = s.sub ∧ (s.setCrew c x).wrote = s.wrote ∧ (s.setCrew c x).raised = s.raised ∧
    (s.setCrew c x).idleFrom = s.idleFrom ∧ (s.setCrew c x).findings = s.findings ∧ (s.setCrew c x).free = s.free ∧
    (s.setCrew c x).fresh = s.fresh ∧ (s.setCrew c x).outbox = s.outbox ∧ (s.setCrew c x).drills = s.drills ∧
    (s.setCrew c x).stopes = s.stopes ∧ (s.setCrew c x).shafts = s.shafts ∧
    (s.setCrew c x).dispatches = s.dispatches ∧ (s.setCrew c x).requeued = s.requeued ∧
    (s.setCrew c x).steps = s.steps ∧ (s.setCrew c x).seqNo = s.seqNo ∧ (s.setCrew c x).tickets = s.tickets ∧
    (s.setCrew c x).serial = s.serial ∧ (s.setCrew c x).born = s.born ∧ (s.setCrew c x).poisoned = s.poisoned ∧
    (s.setCrew c x).pairs = s.pairs ∧ (s.setCrew c x).saved = s.saved ∧ (s.setCrew c x).lastShaft = s.lastShaft ∧
    (s.setCrew c x).lastStope = s.lastStope ∧ (s.setCrew c x).preempts = s.preempts ∧
    (s.setCrew c x).skips = s.skips ∧ (s.setCrew c x).hfTlb = s.hfTlb ∧ (s.setCrew c x).fid = s.fid ∧
    (s.setCrew c x).inval = s.inval ∧ (s.setCrew c x).locks = s.locks ∧ (s.setCrew c x).ages = s.ages ∧
    (s.setCrew c x).corrections = s.corrections ∧ (s.setCrew c x).tests = s.tests ∧
    (s.setCrew c x).window = s.window ∧ (s.setCrew c x).hbms = s.hbms ∧ (s.setCrew c x).hbmUsed = s.hbmUsed ∧
    (s.setCrew c x).spareRows = s.spareRows ∧ (s.setCrew c x).repairs = s.repairs ∧
    (s.setCrew c x).retired = s.retired ∧ (s.setCrew c x).waitGraph = s.waitGraph ∧ (s.setCrew c x).sums = s.sums ∧
    (s.setCrew c x).turns = s.turns ∧ (s.setCrew c x).waits = s.waits ∧ (s.setCrew c x).activity = s.activity ∧
    (s.setCrew c x).snapshot = s.snapshot ∧ (s.setCrew c x).pack = s.pack ∧ (s.setCrew c x).packNext = s.packNext ∧
    (s.setCrew c x).levelNext = s.levelNext ∧ (s.setCrew c x).inject = s.inject ∧ (s.setCrew c x).adits = s.adits ∧
    (s.setCrew c x).arrived = s.arrived ∧ (s.setCrew c x).cpl = s.cpl ∧ (s.setCrew c x).spareLanes = s.spareLanes ∧
    (s.setCrew c x).heldFrame = s.heldFrame ∧ (s.setCrew c x).xfer = s.xfer ∧ (s.setCrew c x).buckets = s.buckets ∧
    (s.setCrew c x).xfers = s.xfers ∧ (s.setCrew c x).riffles = s.riffles ∧ (s.setCrew c x).bcycle = s.bcycle ∧
    (s.setCrew c x).bgWin = s.bgWin ∧ (s.setCrew c x).phases = s.phases ∧ (s.setCrew c x).smelts = s.smelts ∧
    (s.setCrew c x).whistle = s.whistle ∧ (s.setCrew c x).power = s.power ∧ (s.setCrew c x).lamp = s.lamp ∧
    (s.setCrew c x).foreman = s.foreman ∧ (s.setCrew c x).port = s.port :=
  ⟨rfl, rfl, rfl, rfl, rfl, rfl, rfl, rfl, rfl, rfl, rfl, rfl, rfl, rfl, rfl, rfl, rfl, rfl, rfl, rfl, rfl, rfl,
   rfl, rfl, rfl, rfl, rfl, rfl, rfl, rfl, rfl, rfl, rfl, rfl, rfl, rfl, rfl, rfl, rfl, rfl, rfl, rfl, rfl, rfl,
   rfl, rfl, rfl, rfl, rfl, rfl, rfl, rfl, rfl, rfl, rfl, rfl, rfl, rfl, rfl, rfl, rfl, rfl, rfl, rfl, rfl, rfl,
   rfl, rfl, rfl, rfl, rfl, rfl⟩

@[simp] theorem State.setSkip_frame (s : State) (k : Nat) (x : Skip) :
    (s.setSkip k x).pending = s.pending ∧ (s.setSkip k x).regs = s.regs ∧ (s.setSkip k x).mem = s.mem ∧
    (s.setSkip k x).marks = s.marks ∧ (s.setSkip k x).cycle = s.cycle ∧ (s.setSkip k x).ps = s.ps ∧
    (s.setSkip k x).sub = s.sub ∧ (s.setSkip k x).wrote = s.wrote ∧ (s.setSkip k x).raised = s.raised ∧
    (s.setSkip k x).idleFrom = s.idleFrom ∧ (s.setSkip k x).findings = s.findings ∧ (s.setSkip k x).free = s.free ∧
    (s.setSkip k x).fresh = s.fresh ∧ (s.setSkip k x).outbox = s.outbox ∧ (s.setSkip k x).crews = s.crews ∧
    (s.setSkip k x).drills = s.drills ∧ (s.setSkip k x).stopes = s.stopes ∧ (s.setSkip k x).shafts = s.shafts ∧
    (s.setSkip k x).dispatches = s.dispatches ∧ (s.setSkip k x).requeued = s.requeued ∧
    (s.setSkip k x).steps = s.steps ∧ (s.setSkip k x).seqNo = s.seqNo ∧ (s.setSkip k x).tickets = s.tickets ∧
    (s.setSkip k x).serial = s.serial ∧ (s.setSkip k x).born = s.born ∧ (s.setSkip k x).poisoned = s.poisoned ∧
    (s.setSkip k x).pairs = s.pairs ∧ (s.setSkip k x).saved = s.saved ∧ (s.setSkip k x).lastShaft = s.lastShaft ∧
    (s.setSkip k x).lastStope = s.lastStope ∧ (s.setSkip k x).preempts = s.preempts ∧
    (s.setSkip k x).hfTlb = s.hfTlb ∧ (s.setSkip k x).fid = s.fid ∧ (s.setSkip k x).inval = s.inval ∧
    (s.setSkip k x).locks = s.locks ∧ (s.setSkip k x).ages = s.ages ∧ (s.setSkip k x).corrections = s.corrections ∧
    (s.setSkip k x).tests = s.tests ∧ (s.setSkip k x).window = s.window ∧ (s.setSkip k x).hbms = s.hbms ∧
    (s.setSkip k x).hbmUsed = s.hbmUsed ∧ (s.setSkip k x).spareRows = s.spareRows ∧
    (s.setSkip k x).repairs = s.repairs ∧ (s.setSkip k x).retired = s.retired ∧
    (s.setSkip k x).waitGraph = s.waitGraph ∧ (s.setSkip k x).sums = s.sums ∧ (s.setSkip k x).turns = s.turns ∧
    (s.setSkip k x).waits = s.waits ∧ (s.setSkip k x).activity = s.activity ∧ (s.setSkip k x).snapshot = s.snapshot ∧
    (s.setSkip k x).pack = s.pack ∧ (s.setSkip k x).packNext = s.packNext ∧ (s.setSkip k x).levelNext = s.levelNext ∧
    (s.setSkip k x).inject = s.inject ∧ (s.setSkip k x).adits = s.adits ∧ (s.setSkip k x).arrived = s.arrived ∧
    (s.setSkip k x).cpl = s.cpl ∧ (s.setSkip k x).spareLanes = s.spareLanes ∧
    (s.setSkip k x).heldFrame = s.heldFrame ∧ (s.setSkip k x).xfer = s.xfer ∧ (s.setSkip k x).buckets = s.buckets ∧
    (s.setSkip k x).xfers = s.xfers ∧ (s.setSkip k x).riffles = s.riffles ∧ (s.setSkip k x).bcycle = s.bcycle ∧
    (s.setSkip k x).bgWin = s.bgWin ∧ (s.setSkip k x).phases = s.phases ∧ (s.setSkip k x).smelts = s.smelts ∧
    (s.setSkip k x).whistle = s.whistle ∧ (s.setSkip k x).power = s.power ∧ (s.setSkip k x).lamp = s.lamp ∧
    (s.setSkip k x).foreman = s.foreman ∧ (s.setSkip k x).port = s.port :=
  ⟨rfl, rfl, rfl, rfl, rfl, rfl, rfl, rfl, rfl, rfl, rfl, rfl, rfl, rfl, rfl, rfl, rfl, rfl, rfl, rfl, rfl, rfl,
   rfl, rfl, rfl, rfl, rfl, rfl, rfl, rfl, rfl, rfl, rfl, rfl, rfl, rfl, rfl, rfl, rfl, rfl, rfl, rfl, rfl, rfl,
   rfl, rfl, rfl, rfl, rfl, rfl, rfl, rfl, rfl, rfl, rfl, rfl, rfl, rfl, rfl, rfl, rfl, rfl, rfl, rfl, rfl, rfl,
   rfl, rfl, rfl, rfl, rfl, rfl⟩

@[simp] theorem State.modStep_frame (s : State) (id : StepId) (f : StepRec → StepRec) :
    (s.modStep id f).pending = s.pending ∧ (s.modStep id f).regs = s.regs ∧ (s.modStep id f).mem = s.mem ∧
    (s.modStep id f).marks = s.marks ∧ (s.modStep id f).cycle = s.cycle ∧ (s.modStep id f).ps = s.ps ∧
    (s.modStep id f).sub = s.sub ∧ (s.modStep id f).wrote = s.wrote ∧ (s.modStep id f).raised = s.raised ∧
    (s.modStep id f).idleFrom = s.idleFrom ∧ (s.modStep id f).findings = s.findings ∧ (s.modStep id f).free = s.free ∧
    (s.modStep id f).fresh = s.fresh ∧ (s.modStep id f).outbox = s.outbox ∧ (s.modStep id f).crews = s.crews ∧
    (s.modStep id f).drills = s.drills ∧ (s.modStep id f).stopes = s.stopes ∧ (s.modStep id f).shafts = s.shafts ∧
    (s.modStep id f).dispatches = s.dispatches ∧ (s.modStep id f).requeued = s.requeued ∧
    (s.modStep id f).seqNo = s.seqNo ∧ (s.modStep id f).tickets = s.tickets ∧ (s.modStep id f).serial = s.serial ∧
    (s.modStep id f).born = s.born ∧ (s.modStep id f).poisoned = s.poisoned ∧ (s.modStep id f).pairs = s.pairs ∧
    (s.modStep id f).saved = s.saved ∧ (s.modStep id f).lastShaft = s.lastShaft ∧
    (s.modStep id f).lastStope = s.lastStope ∧ (s.modStep id f).preempts = s.preempts ∧
    (s.modStep id f).skips = s.skips ∧ (s.modStep id f).hfTlb = s.hfTlb ∧ (s.modStep id f).fid = s.fid ∧
    (s.modStep id f).inval = s.inval ∧ (s.modStep id f).locks = s.locks ∧ (s.modStep id f).ages = s.ages ∧
    (s.modStep id f).corrections = s.corrections ∧ (s.modStep id f).tests = s.tests ∧
    (s.modStep id f).window = s.window ∧ (s.modStep id f).hbms = s.hbms ∧ (s.modStep id f).hbmUsed = s.hbmUsed ∧
    (s.modStep id f).spareRows = s.spareRows ∧ (s.modStep id f).repairs = s.repairs ∧
    (s.modStep id f).retired = s.retired ∧ (s.modStep id f).waitGraph = s.waitGraph ∧ (s.modStep id f).sums = s.sums ∧
    (s.modStep id f).turns = s.turns ∧ (s.modStep id f).waits = s.waits ∧ (s.modStep id f).activity = s.activity ∧
    (s.modStep id f).snapshot = s.snapshot ∧ (s.modStep id f).pack = s.pack ∧ (s.modStep id f).packNext = s.packNext ∧
    (s.modStep id f).levelNext = s.levelNext ∧ (s.modStep id f).inject = s.inject ∧ (s.modStep id f).adits = s.adits ∧
    (s.modStep id f).arrived = s.arrived ∧ (s.modStep id f).cpl = s.cpl ∧ (s.modStep id f).spareLanes = s.spareLanes ∧
    (s.modStep id f).heldFrame = s.heldFrame ∧ (s.modStep id f).xfer = s.xfer ∧ (s.modStep id f).buckets = s.buckets ∧
    (s.modStep id f).xfers = s.xfers ∧ (s.modStep id f).riffles = s.riffles ∧ (s.modStep id f).bcycle = s.bcycle ∧
    (s.modStep id f).bgWin = s.bgWin ∧ (s.modStep id f).phases = s.phases ∧ (s.modStep id f).smelts = s.smelts ∧
    (s.modStep id f).whistle = s.whistle ∧ (s.modStep id f).power = s.power ∧ (s.modStep id f).lamp = s.lamp ∧
    (s.modStep id f).foreman = s.foreman ∧ (s.modStep id f).port = s.port :=
  ⟨rfl, rfl, rfl, rfl, rfl, rfl, rfl, rfl, rfl, rfl, rfl, rfl, rfl, rfl, rfl, rfl, rfl, rfl, rfl, rfl, rfl, rfl,
   rfl, rfl, rfl, rfl, rfl, rfl, rfl, rfl, rfl, rfl, rfl, rfl, rfl, rfl, rfl, rfl, rfl, rfl, rfl, rfl, rfl, rfl,
   rfl, rfl, rfl, rfl, rfl, rfl, rfl, rfl, rfl, rfl, rfl, rfl, rfl, rfl, rfl, rfl, rfl, rfl, rfl, rfl, rfl, rfl,
   rfl, rfl, rfl, rfl, rfl, rfl⟩

@[simp] theorem State.send_frame (s : State) (p : Packet) :
    (s.send p).pending = s.pending ∧ (s.send p).regs = s.regs ∧ (s.send p).mem = s.mem ∧ (s.send p).marks = s.marks ∧
    (s.send p).cycle = s.cycle ∧ (s.send p).ps = s.ps ∧ (s.send p).sub = s.sub ∧ (s.send p).wrote = s.wrote ∧
    (s.send p).raised = s.raised ∧ (s.send p).idleFrom = s.idleFrom ∧ (s.send p).findings = s.findings ∧
    (s.send p).free = s.free ∧ (s.send p).outbox = s.outbox ∧ (s.send p).crews = s.crews ∧
    (s.send p).drills = s.drills ∧ (s.send p).stopes = s.stopes ∧ (s.send p).shafts = s.shafts ∧
    (s.send p).dispatches = s.dispatches ∧ (s.send p).requeued = s.requeued ∧ (s.send p).steps = s.steps ∧
    (s.send p).seqNo = s.seqNo ∧ (s.send p).tickets = s.tickets ∧ (s.send p).serial = s.serial ∧
    (s.send p).born = s.born ∧ (s.send p).poisoned = s.poisoned ∧ (s.send p).pairs = s.pairs ∧
    (s.send p).saved = s.saved ∧ (s.send p).lastShaft = s.lastShaft ∧ (s.send p).lastStope = s.lastStope ∧
    (s.send p).preempts = s.preempts ∧ (s.send p).skips = s.skips ∧ (s.send p).hfTlb = s.hfTlb ∧
    (s.send p).fid = s.fid ∧ (s.send p).inval = s.inval ∧ (s.send p).locks = s.locks ∧ (s.send p).ages = s.ages ∧
    (s.send p).corrections = s.corrections ∧ (s.send p).tests = s.tests ∧ (s.send p).window = s.window ∧
    (s.send p).hbms = s.hbms ∧ (s.send p).hbmUsed = s.hbmUsed ∧ (s.send p).spareRows = s.spareRows ∧
    (s.send p).repairs = s.repairs ∧ (s.send p).retired = s.retired ∧ (s.send p).waitGraph = s.waitGraph ∧
    (s.send p).sums = s.sums ∧ (s.send p).turns = s.turns ∧ (s.send p).waits = s.waits ∧
    (s.send p).activity = s.activity ∧ (s.send p).snapshot = s.snapshot ∧ (s.send p).pack = s.pack ∧
    (s.send p).packNext = s.packNext ∧ (s.send p).levelNext = s.levelNext ∧ (s.send p).adits = s.adits ∧
    (s.send p).arrived = s.arrived ∧ (s.send p).cpl = s.cpl ∧ (s.send p).spareLanes = s.spareLanes ∧
    (s.send p).heldFrame = s.heldFrame ∧ (s.send p).xfer = s.xfer ∧ (s.send p).buckets = s.buckets ∧
    (s.send p).xfers = s.xfers ∧ (s.send p).riffles = s.riffles ∧ (s.send p).bcycle = s.bcycle ∧
    (s.send p).bgWin = s.bgWin ∧ (s.send p).phases = s.phases ∧ (s.send p).smelts = s.smelts ∧
    (s.send p).whistle = s.whistle ∧ (s.send p).power = s.power ∧ (s.send p).lamp = s.lamp ∧
    (s.send p).foreman = s.foreman ∧ (s.send p).port = s.port :=
  ⟨rfl, rfl, rfl, rfl, rfl, rfl, rfl, rfl, rfl, rfl, rfl, rfl, rfl, rfl, rfl, rfl, rfl, rfl, rfl, rfl, rfl, rfl,
   rfl, rfl, rfl, rfl, rfl, rfl, rfl, rfl, rfl, rfl, rfl, rfl, rfl, rfl, rfl, rfl, rfl, rfl, rfl, rfl, rfl, rfl,
   rfl, rfl, rfl, rfl, rfl, rfl, rfl, rfl, rfl, rfl, rfl, rfl, rfl, rfl, rfl, rfl, rfl, rfl, rfl, rfl, rfl, rfl,
   rfl, rfl, rfl, rfl, rfl⟩

@[simp] theorem State.modShaft_frame (s : State) (n : Nat) (f : Shaft → Shaft) :
    (s.modShaft n f).pending = s.pending ∧ (s.modShaft n f).regs = s.regs ∧ (s.modShaft n f).mem = s.mem ∧
    (s.modShaft n f).marks = s.marks ∧ (s.modShaft n f).cycle = s.cycle ∧ (s.modShaft n f).ps = s.ps ∧
    (s.modShaft n f).sub = s.sub ∧ (s.modShaft n f).wrote = s.wrote ∧ (s.modShaft n f).raised = s.raised ∧
    (s.modShaft n f).idleFrom = s.idleFrom ∧ (s.modShaft n f).findings = s.findings ∧ (s.modShaft n f).free = s.free ∧
    (s.modShaft n f).fresh = s.fresh ∧ (s.modShaft n f).outbox = s.outbox ∧ (s.modShaft n f).crews = s.crews ∧
    (s.modShaft n f).drills = s.drills ∧ (s.modShaft n f).stopes = s.stopes ∧
    (s.modShaft n f).dispatches = s.dispatches ∧ (s.modShaft n f).requeued = s.requeued ∧
    (s.modShaft n f).steps = s.steps ∧ (s.modShaft n f).seqNo = s.seqNo ∧ (s.modShaft n f).tickets = s.tickets ∧
    (s.modShaft n f).serial = s.serial ∧ (s.modShaft n f).born = s.born ∧ (s.modShaft n f).poisoned = s.poisoned ∧
    (s.modShaft n f).pairs = s.pairs ∧ (s.modShaft n f).saved = s.saved ∧ (s.modShaft n f).lastShaft = s.lastShaft ∧
    (s.modShaft n f).lastStope = s.lastStope ∧ (s.modShaft n f).preempts = s.preempts ∧
    (s.modShaft n f).skips = s.skips ∧ (s.modShaft n f).hfTlb = s.hfTlb ∧ (s.modShaft n f).fid = s.fid ∧
    (s.modShaft n f).inval = s.inval ∧ (s.modShaft n f).locks = s.locks ∧ (s.modShaft n f).ages = s.ages ∧
    (s.modShaft n f).corrections = s.corrections ∧ (s.modShaft n f).tests = s.tests ∧
    (s.modShaft n f).window = s.window ∧ (s.modShaft n f).hbms = s.hbms ∧ (s.modShaft n f).hbmUsed = s.hbmUsed ∧
    (s.modShaft n f).spareRows = s.spareRows ∧ (s.modShaft n f).repairs = s.repairs ∧
    (s.modShaft n f).retired = s.retired ∧ (s.modShaft n f).waitGraph = s.waitGraph ∧ (s.modShaft n f).sums = s.sums ∧
    (s.modShaft n f).turns = s.turns ∧ (s.modShaft n f).waits = s.waits ∧ (s.modShaft n f).activity = s.activity ∧
    (s.modShaft n f).snapshot = s.snapshot ∧ (s.modShaft n f).pack = s.pack ∧ (s.modShaft n f).packNext = s.packNext ∧
    (s.modShaft n f).levelNext = s.levelNext ∧ (s.modShaft n f).inject = s.inject ∧ (s.modShaft n f).adits = s.adits ∧
    (s.modShaft n f).arrived = s.arrived ∧ (s.modShaft n f).cpl = s.cpl ∧ (s.modShaft n f).spareLanes = s.spareLanes ∧
    (s.modShaft n f).heldFrame = s.heldFrame ∧ (s.modShaft n f).xfer = s.xfer ∧ (s.modShaft n f).buckets = s.buckets ∧
    (s.modShaft n f).xfers = s.xfers ∧ (s.modShaft n f).riffles = s.riffles ∧ (s.modShaft n f).bcycle = s.bcycle ∧
    (s.modShaft n f).bgWin = s.bgWin ∧ (s.modShaft n f).phases = s.phases ∧ (s.modShaft n f).smelts = s.smelts ∧
    (s.modShaft n f).whistle = s.whistle ∧ (s.modShaft n f).power = s.power ∧ (s.modShaft n f).lamp = s.lamp ∧
    (s.modShaft n f).foreman = s.foreman ∧ (s.modShaft n f).port = s.port :=
  ⟨rfl, rfl, rfl, rfl, rfl, rfl, rfl, rfl, rfl, rfl, rfl, rfl, rfl, rfl, rfl, rfl, rfl, rfl, rfl, rfl, rfl, rfl,
   rfl, rfl, rfl, rfl, rfl, rfl, rfl, rfl, rfl, rfl, rfl, rfl, rfl, rfl, rfl, rfl, rfl, rfl, rfl, rfl, rfl, rfl,
   rfl, rfl, rfl, rfl, rfl, rfl, rfl, rfl, rfl, rfl, rfl, rfl, rfl, rfl, rfl, rfl, rfl, rfl, rfl, rfl, rfl, rfl,
   rfl, rfl, rfl, rfl, rfl, rfl⟩

@[simp] theorem State.modStope_frame (s : State) (n : Nat) (f : StopeCtl → StopeCtl) :
    (s.modStope n f).pending = s.pending ∧ (s.modStope n f).regs = s.regs ∧ (s.modStope n f).mem = s.mem ∧
    (s.modStope n f).marks = s.marks ∧ (s.modStope n f).cycle = s.cycle ∧ (s.modStope n f).ps = s.ps ∧
    (s.modStope n f).sub = s.sub ∧ (s.modStope n f).wrote = s.wrote ∧ (s.modStope n f).raised = s.raised ∧
    (s.modStope n f).idleFrom = s.idleFrom ∧ (s.modStope n f).findings = s.findings ∧ (s.modStope n f).free = s.free ∧
    (s.modStope n f).fresh = s.fresh ∧ (s.modStope n f).outbox = s.outbox ∧ (s.modStope n f).crews = s.crews ∧
    (s.modStope n f).drills = s.drills ∧ (s.modStope n f).shafts = s.shafts ∧
    (s.modStope n f).dispatches = s.dispatches ∧ (s.modStope n f).requeued = s.requeued ∧
    (s.modStope n f).steps = s.steps ∧ (s.modStope n f).seqNo = s.seqNo ∧ (s.modStope n f).tickets = s.tickets ∧
    (s.modStope n f).serial = s.serial ∧ (s.modStope n f).born = s.born ∧ (s.modStope n f).poisoned = s.poisoned ∧
    (s.modStope n f).pairs = s.pairs ∧ (s.modStope n f).saved = s.saved ∧ (s.modStope n f).lastShaft = s.lastShaft ∧
    (s.modStope n f).lastStope = s.lastStope ∧ (s.modStope n f).preempts = s.preempts ∧
    (s.modStope n f).skips = s.skips ∧ (s.modStope n f).hfTlb = s.hfTlb ∧ (s.modStope n f).fid = s.fid ∧
    (s.modStope n f).inval = s.inval ∧ (s.modStope n f).locks = s.locks ∧ (s.modStope n f).ages = s.ages ∧
    (s.modStope n f).corrections = s.corrections ∧ (s.modStope n f).tests = s.tests ∧
    (s.modStope n f).window = s.window ∧ (s.modStope n f).hbms = s.hbms ∧ (s.modStope n f).hbmUsed = s.hbmUsed ∧
    (s.modStope n f).spareRows = s.spareRows ∧ (s.modStope n f).repairs = s.repairs ∧
    (s.modStope n f).retired = s.retired ∧ (s.modStope n f).waitGraph = s.waitGraph ∧ (s.modStope n f).sums = s.sums ∧
    (s.modStope n f).turns = s.turns ∧ (s.modStope n f).waits = s.waits ∧ (s.modStope n f).activity = s.activity ∧
    (s.modStope n f).snapshot = s.snapshot ∧ (s.modStope n f).pack = s.pack ∧ (s.modStope n f).packNext = s.packNext ∧
    (s.modStope n f).levelNext = s.levelNext ∧ (s.modStope n f).inject = s.inject ∧ (s.modStope n f).adits = s.adits ∧
    (s.modStope n f).arrived = s.arrived ∧ (s.modStope n f).cpl = s.cpl ∧ (s.modStope n f).spareLanes = s.spareLanes ∧
    (s.modStope n f).heldFrame = s.heldFrame ∧ (s.modStope n f).xfer = s.xfer ∧ (s.modStope n f).buckets = s.buckets ∧
    (s.modStope n f).xfers = s.xfers ∧ (s.modStope n f).riffles = s.riffles ∧ (s.modStope n f).bcycle = s.bcycle ∧
    (s.modStope n f).bgWin = s.bgWin ∧ (s.modStope n f).phases = s.phases ∧ (s.modStope n f).smelts = s.smelts ∧
    (s.modStope n f).whistle = s.whistle ∧ (s.modStope n f).power = s.power ∧ (s.modStope n f).lamp = s.lamp ∧
    (s.modStope n f).foreman = s.foreman ∧ (s.modStope n f).port = s.port :=
  ⟨rfl, rfl, rfl, rfl, rfl, rfl, rfl, rfl, rfl, rfl, rfl, rfl, rfl, rfl, rfl, rfl, rfl, rfl, rfl, rfl, rfl, rfl,
   rfl, rfl, rfl, rfl, rfl, rfl, rfl, rfl, rfl, rfl, rfl, rfl, rfl, rfl, rfl, rfl, rfl, rfl, rfl, rfl, rfl, rfl,
   rfl, rfl, rfl, rfl, rfl, rfl, rfl, rfl, rfl, rfl, rfl, rfl, rfl, rfl, rfl, rfl, rfl, rfl, rfl, rfl, rfl, rfl,
   rfl, rfl, rfl, rfl, rfl, rfl⟩

@[simp] theorem State.setOutcome_frame (s : State) (ids : List Nat) (bad : Option Nat) :
    (s.setOutcome ids bad).pending = s.pending ∧ (s.setOutcome ids bad).regs = s.regs ∧
    (s.setOutcome ids bad).mem = s.mem ∧ (s.setOutcome ids bad).marks = s.marks ∧
    (s.setOutcome ids bad).cycle = s.cycle ∧ (s.setOutcome ids bad).ps = s.ps ∧ (s.setOutcome ids bad).sub = s.sub ∧
    (s.setOutcome ids bad).wrote = s.wrote ∧ (s.setOutcome ids bad).raised = s.raised ∧
    (s.setOutcome ids bad).idleFrom = s.idleFrom ∧ (s.setOutcome ids bad).findings = s.findings ∧
    (s.setOutcome ids bad).free = s.free ∧ (s.setOutcome ids bad).fresh = s.fresh ∧
    (s.setOutcome ids bad).outbox = s.outbox ∧ (s.setOutcome ids bad).crews = s.crews ∧
    (s.setOutcome ids bad).drills = s.drills ∧ (s.setOutcome ids bad).stopes = s.stopes ∧
    (s.setOutcome ids bad).shafts = s.shafts ∧ (s.setOutcome ids bad).dispatches = s.dispatches ∧
    (s.setOutcome ids bad).requeued = s.requeued ∧ (s.setOutcome ids bad).steps = s.steps ∧
    (s.setOutcome ids bad).seqNo = s.seqNo ∧ (s.setOutcome ids bad).serial = s.serial ∧
    (s.setOutcome ids bad).born = s.born ∧ (s.setOutcome ids bad).poisoned = s.poisoned ∧
    (s.setOutcome ids bad).pairs = s.pairs ∧ (s.setOutcome ids bad).saved = s.saved ∧
    (s.setOutcome ids bad).lastShaft = s.lastShaft ∧ (s.setOutcome ids bad).lastStope = s.lastStope ∧
    (s.setOutcome ids bad).preempts = s.preempts ∧ (s.setOutcome ids bad).skips = s.skips ∧
    (s.setOutcome ids bad).hfTlb = s.hfTlb ∧ (s.setOutcome ids bad).fid = s.fid ∧
    (s.setOutcome ids bad).inval = s.inval ∧ (s.setOutcome ids bad).locks = s.locks ∧
    (s.setOutcome ids bad).ages = s.ages ∧ (s.setOutcome ids bad).corrections = s.corrections ∧
    (s.setOutcome ids bad).tests = s.tests ∧ (s.setOutcome ids bad).window = s.window ∧
    (s.setOutcome ids bad).hbms = s.hbms ∧ (s.setOutcome ids bad).hbmUsed = s.hbmUsed ∧
    (s.setOutcome ids bad).spareRows = s.spareRows ∧ (s.setOutcome ids bad).repairs = s.repairs ∧
    (s.setOutcome ids bad).retired = s.retired ∧ (s.setOutcome ids bad).waitGraph = s.waitGraph ∧
    (s.setOutcome ids bad).sums = s.sums ∧ (s.setOutcome ids bad).turns = s.turns ∧
    (s.setOutcome ids bad).waits = s.waits ∧ (s.setOutcome ids bad).activity = s.activity ∧
    (s.setOutcome ids bad).snapshot = s.snapshot ∧ (s.setOutcome ids bad).pack = s.pack ∧
    (s.setOutcome ids bad).packNext = s.packNext ∧ (s.setOutcome ids bad).levelNext = s.levelNext ∧
    (s.setOutcome ids bad).inject = s.inject ∧ (s.setOutcome ids bad).adits = s.adits ∧
    (s.setOutcome ids bad).arrived = s.arrived ∧ (s.setOutcome ids bad).cpl = s.cpl ∧
    (s.setOutcome ids bad).spareLanes = s.spareLanes ∧ (s.setOutcome ids bad).heldFrame = s.heldFrame ∧
    (s.setOutcome ids bad).xfer = s.xfer ∧ (s.setOutcome ids bad).buckets = s.buckets ∧
    (s.setOutcome ids bad).xfers = s.xfers ∧ (s.setOutcome ids bad).riffles = s.riffles ∧
    (s.setOutcome ids bad).bcycle = s.bcycle ∧ (s.setOutcome ids bad).bgWin = s.bgWin ∧
    (s.setOutcome ids bad).phases = s.phases ∧ (s.setOutcome ids bad).smelts = s.smelts ∧
    (s.setOutcome ids bad).whistle = s.whistle ∧ (s.setOutcome ids bad).power = s.power ∧
    (s.setOutcome ids bad).lamp = s.lamp ∧ (s.setOutcome ids bad).foreman = s.foreman ∧
    (s.setOutcome ids bad).port = s.port :=
  ⟨rfl, rfl, rfl, rfl, rfl, rfl, rfl, rfl, rfl, rfl, rfl, rfl, rfl, rfl, rfl, rfl, rfl, rfl, rfl, rfl, rfl, rfl,
   rfl, rfl, rfl, rfl, rfl, rfl, rfl, rfl, rfl, rfl, rfl, rfl, rfl, rfl, rfl, rfl, rfl, rfl, rfl, rfl, rfl, rfl,
   rfl, rfl, rfl, rfl, rfl, rfl, rfl, rfl, rfl, rfl, rfl, rfl, rfl, rfl, rfl, rfl, rfl, rfl, rfl, rfl, rfl, rfl,
   rfl, rfl, rfl, rfl, rfl, rfl⟩

@[simp] theorem State.modDispatch_frame (s : State) (id : Nat) (f : Dispatch → Dispatch) :
    (s.modDispatch id f).pending = s.pending ∧ (s.modDispatch id f).regs = s.regs ∧ (s.modDispatch id f).mem = s.mem ∧
    (s.modDispatch id f).marks = s.marks ∧ (s.modDispatch id f).cycle = s.cycle ∧ (s.modDispatch id f).ps = s.ps ∧
    (s.modDispatch id f).sub = s.sub ∧ (s.modDispatch id f).wrote = s.wrote ∧ (s.modDispatch id f).raised = s.raised ∧
    (s.modDispatch id f).idleFrom = s.idleFrom ∧ (s.modDispatch id f).findings = s.findings ∧
    (s.modDispatch id f).free = s.free ∧ (s.modDispatch id f).fresh = s.fresh ∧
    (s.modDispatch id f).outbox = s.outbox ∧ (s.modDispatch id f).crews = s.crews ∧
    (s.modDispatch id f).drills = s.drills ∧ (s.modDispatch id f).stopes = s.stopes ∧
    (s.modDispatch id f).shafts = s.shafts ∧ (s.modDispatch id f).requeued = s.requeued ∧
    (s.modDispatch id f).steps = s.steps ∧ (s.modDispatch id f).seqNo = s.seqNo ∧
    (s.modDispatch id f).tickets = s.tickets ∧ (s.modDispatch id f).serial = s.serial ∧
    (s.modDispatch id f).born = s.born ∧ (s.modDispatch id f).poisoned = s.poisoned ∧
    (s.modDispatch id f).pairs = s.pairs ∧ (s.modDispatch id f).saved = s.saved ∧
    (s.modDispatch id f).lastShaft = s.lastShaft ∧ (s.modDispatch id f).lastStope = s.lastStope ∧
    (s.modDispatch id f).preempts = s.preempts ∧ (s.modDispatch id f).skips = s.skips ∧
    (s.modDispatch id f).hfTlb = s.hfTlb ∧ (s.modDispatch id f).fid = s.fid ∧ (s.modDispatch id f).inval = s.inval ∧
    (s.modDispatch id f).locks = s.locks ∧ (s.modDispatch id f).ages = s.ages ∧
    (s.modDispatch id f).corrections = s.corrections ∧ (s.modDispatch id f).tests = s.tests ∧
    (s.modDispatch id f).window = s.window ∧ (s.modDispatch id f).hbms = s.hbms ∧
    (s.modDispatch id f).hbmUsed = s.hbmUsed ∧ (s.modDispatch id f).spareRows = s.spareRows ∧
    (s.modDispatch id f).repairs = s.repairs ∧ (s.modDispatch id f).retired = s.retired ∧
    (s.modDispatch id f).waitGraph = s.waitGraph ∧ (s.modDispatch id f).sums = s.sums ∧
    (s.modDispatch id f).turns = s.turns ∧ (s.modDispatch id f).waits = s.waits ∧
    (s.modDispatch id f).activity = s.activity ∧ (s.modDispatch id f).snapshot = s.snapshot ∧
    (s.modDispatch id f).pack = s.pack ∧ (s.modDispatch id f).packNext = s.packNext ∧
    (s.modDispatch id f).levelNext = s.levelNext ∧ (s.modDispatch id f).inject = s.inject ∧
    (s.modDispatch id f).adits = s.adits ∧ (s.modDispatch id f).arrived = s.arrived ∧
    (s.modDispatch id f).cpl = s.cpl ∧ (s.modDispatch id f).spareLanes = s.spareLanes ∧
    (s.modDispatch id f).heldFrame = s.heldFrame ∧ (s.modDispatch id f).xfer = s.xfer ∧
    (s.modDispatch id f).buckets = s.buckets ∧ (s.modDispatch id f).xfers = s.xfers ∧
    (s.modDispatch id f).riffles = s.riffles ∧ (s.modDispatch id f).bcycle = s.bcycle ∧
    (s.modDispatch id f).bgWin = s.bgWin ∧ (s.modDispatch id f).phases = s.phases ∧
    (s.modDispatch id f).smelts = s.smelts ∧ (s.modDispatch id f).whistle = s.whistle ∧
    (s.modDispatch id f).power = s.power ∧ (s.modDispatch id f).lamp = s.lamp ∧
    (s.modDispatch id f).foreman = s.foreman ∧ (s.modDispatch id f).port = s.port :=
  ⟨rfl, rfl, rfl, rfl, rfl, rfl, rfl, rfl, rfl, rfl, rfl, rfl, rfl, rfl, rfl, rfl, rfl, rfl, rfl, rfl, rfl, rfl,
   rfl, rfl, rfl, rfl, rfl, rfl, rfl, rfl, rfl, rfl, rfl, rfl, rfl, rfl, rfl, rfl, rfl, rfl, rfl, rfl, rfl, rfl,
   rfl, rfl, rfl, rfl, rfl, rfl, rfl, rfl, rfl, rfl, rfl, rfl, rfl, rfl, rfl, rfl, rfl, rfl, rfl, rfl, rfl, rfl,
   rfl, rfl, rfl, rfl, rfl, rfl⟩

@[simp] theorem State.setHbm_frame (s : State) (k : Nat) (c : HbmCtl) :
    (s.setHbm k c).pending = s.pending ∧ (s.setHbm k c).regs = s.regs ∧ (s.setHbm k c).mem = s.mem ∧
    (s.setHbm k c).marks = s.marks ∧ (s.setHbm k c).cycle = s.cycle ∧ (s.setHbm k c).ps = s.ps ∧
    (s.setHbm k c).sub = s.sub ∧ (s.setHbm k c).wrote = s.wrote ∧ (s.setHbm k c).raised = s.raised ∧
    (s.setHbm k c).idleFrom = s.idleFrom ∧ (s.setHbm k c).findings = s.findings ∧ (s.setHbm k c).free = s.free ∧
    (s.setHbm k c).fresh = s.fresh ∧ (s.setHbm k c).outbox = s.outbox ∧ (s.setHbm k c).crews = s.crews ∧
    (s.setHbm k c).drills = s.drills ∧ (s.setHbm k c).stopes = s.stopes ∧ (s.setHbm k c).shafts = s.shafts ∧
    (s.setHbm k c).dispatches = s.dispatches ∧ (s.setHbm k c).requeued = s.requeued ∧ (s.setHbm k c).steps = s.steps ∧
    (s.setHbm k c).seqNo = s.seqNo ∧ (s.setHbm k c).tickets = s.tickets ∧ (s.setHbm k c).serial = s.serial ∧
    (s.setHbm k c).born = s.born ∧ (s.setHbm k c).poisoned = s.poisoned ∧ (s.setHbm k c).pairs = s.pairs ∧
    (s.setHbm k c).saved = s.saved ∧ (s.setHbm k c).lastShaft = s.lastShaft ∧ (s.setHbm k c).lastStope = s.lastStope ∧
    (s.setHbm k c).preempts = s.preempts ∧ (s.setHbm k c).skips = s.skips ∧ (s.setHbm k c).hfTlb = s.hfTlb ∧
    (s.setHbm k c).fid = s.fid ∧ (s.setHbm k c).inval = s.inval ∧ (s.setHbm k c).locks = s.locks ∧
    (s.setHbm k c).ages = s.ages ∧ (s.setHbm k c).corrections = s.corrections ∧ (s.setHbm k c).tests = s.tests ∧
    (s.setHbm k c).window = s.window ∧ (s.setHbm k c).hbmUsed = s.hbmUsed ∧ (s.setHbm k c).spareRows = s.spareRows ∧
    (s.setHbm k c).repairs = s.repairs ∧ (s.setHbm k c).retired = s.retired ∧ (s.setHbm k c).waitGraph = s.waitGraph ∧
    (s.setHbm k c).sums = s.sums ∧ (s.setHbm k c).turns = s.turns ∧ (s.setHbm k c).waits = s.waits ∧
    (s.setHbm k c).activity = s.activity ∧ (s.setHbm k c).snapshot = s.snapshot ∧ (s.setHbm k c).pack = s.pack ∧
    (s.setHbm k c).packNext = s.packNext ∧ (s.setHbm k c).levelNext = s.levelNext ∧ (s.setHbm k c).inject = s.inject ∧
    (s.setHbm k c).adits = s.adits ∧ (s.setHbm k c).arrived = s.arrived ∧ (s.setHbm k c).cpl = s.cpl ∧
    (s.setHbm k c).spareLanes = s.spareLanes ∧ (s.setHbm k c).heldFrame = s.heldFrame ∧ (s.setHbm k c).xfer = s.xfer ∧
    (s.setHbm k c).buckets = s.buckets ∧ (s.setHbm k c).xfers = s.xfers ∧ (s.setHbm k c).riffles = s.riffles ∧
    (s.setHbm k c).bcycle = s.bcycle ∧ (s.setHbm k c).bgWin = s.bgWin ∧ (s.setHbm k c).phases = s.phases ∧
    (s.setHbm k c).smelts = s.smelts ∧ (s.setHbm k c).whistle = s.whistle ∧ (s.setHbm k c).power = s.power ∧
    (s.setHbm k c).lamp = s.lamp ∧ (s.setHbm k c).foreman = s.foreman ∧ (s.setHbm k c).port = s.port :=
  ⟨rfl, rfl, rfl, rfl, rfl, rfl, rfl, rfl, rfl, rfl, rfl, rfl, rfl, rfl, rfl, rfl, rfl, rfl, rfl, rfl, rfl, rfl,
   rfl, rfl, rfl, rfl, rfl, rfl, rfl, rfl, rfl, rfl, rfl, rfl, rfl, rfl, rfl, rfl, rfl, rfl, rfl, rfl, rfl, rfl,
   rfl, rfl, rfl, rfl, rfl, rfl, rfl, rfl, rfl, rfl, rfl, rfl, rfl, rfl, rfl, rfl, rfl, rfl, rfl, rfl, rfl, rfl,
   rfl, rfl, rfl, rfl, rfl, rfl⟩

@[simp] theorem State.modAdit_frame (s : State) (a : Nat) (f : Adit → Adit) :
    (s.modAdit a f).pending = s.pending ∧ (s.modAdit a f).regs = s.regs ∧ (s.modAdit a f).mem = s.mem ∧
    (s.modAdit a f).marks = s.marks ∧ (s.modAdit a f).cycle = s.cycle ∧ (s.modAdit a f).ps = s.ps ∧
    (s.modAdit a f).sub = s.sub ∧ (s.modAdit a f).wrote = s.wrote ∧ (s.modAdit a f).raised = s.raised ∧
    (s.modAdit a f).idleFrom = s.idleFrom ∧ (s.modAdit a f).findings = s.findings ∧ (s.modAdit a f).free = s.free ∧
    (s.modAdit a f).fresh = s.fresh ∧ (s.modAdit a f).outbox = s.outbox ∧ (s.modAdit a f).crews = s.crews ∧
    (s.modAdit a f).drills = s.drills ∧ (s.modAdit a f).stopes = s.stopes ∧ (s.modAdit a f).shafts = s.shafts ∧
    (s.modAdit a f).dispatches = s.dispatches ∧ (s.modAdit a f).requeued = s.requeued ∧
    (s.modAdit a f).steps = s.steps ∧ (s.modAdit a f).seqNo = s.seqNo ∧ (s.modAdit a f).tickets = s.tickets ∧
    (s.modAdit a f).serial = s.serial ∧ (s.modAdit a f).born = s.born ∧ (s.modAdit a f).poisoned = s.poisoned ∧
    (s.modAdit a f).pairs = s.pairs ∧ (s.modAdit a f).saved = s.saved ∧ (s.modAdit a f).lastShaft = s.lastShaft ∧
    (s.modAdit a f).lastStope = s.lastStope ∧ (s.modAdit a f).preempts = s.preempts ∧
    (s.modAdit a f).skips = s.skips ∧ (s.modAdit a f).hfTlb = s.hfTlb ∧ (s.modAdit a f).fid = s.fid ∧
    (s.modAdit a f).inval = s.inval ∧ (s.modAdit a f).locks = s.locks ∧ (s.modAdit a f).ages = s.ages ∧
    (s.modAdit a f).corrections = s.corrections ∧ (s.modAdit a f).tests = s.tests ∧
    (s.modAdit a f).window = s.window ∧ (s.modAdit a f).hbms = s.hbms ∧ (s.modAdit a f).hbmUsed = s.hbmUsed ∧
    (s.modAdit a f).spareRows = s.spareRows ∧ (s.modAdit a f).repairs = s.repairs ∧
    (s.modAdit a f).retired = s.retired ∧ (s.modAdit a f).waitGraph = s.waitGraph ∧ (s.modAdit a f).sums = s.sums ∧
    (s.modAdit a f).turns = s.turns ∧ (s.modAdit a f).waits = s.waits ∧ (s.modAdit a f).activity = s.activity ∧
    (s.modAdit a f).snapshot = s.snapshot ∧ (s.modAdit a f).pack = s.pack ∧ (s.modAdit a f).packNext = s.packNext ∧
    (s.modAdit a f).levelNext = s.levelNext ∧ (s.modAdit a f).inject = s.inject ∧
    (s.modAdit a f).arrived = s.arrived ∧ (s.modAdit a f).cpl = s.cpl ∧ (s.modAdit a f).spareLanes = s.spareLanes ∧
    (s.modAdit a f).heldFrame = s.heldFrame ∧ (s.modAdit a f).xfer = s.xfer ∧ (s.modAdit a f).buckets = s.buckets ∧
    (s.modAdit a f).xfers = s.xfers ∧ (s.modAdit a f).riffles = s.riffles ∧ (s.modAdit a f).bcycle = s.bcycle ∧
    (s.modAdit a f).bgWin = s.bgWin ∧ (s.modAdit a f).phases = s.phases ∧ (s.modAdit a f).smelts = s.smelts ∧
    (s.modAdit a f).whistle = s.whistle ∧ (s.modAdit a f).power = s.power ∧ (s.modAdit a f).lamp = s.lamp ∧
    (s.modAdit a f).foreman = s.foreman ∧ (s.modAdit a f).port = s.port :=
  ⟨rfl, rfl, rfl, rfl, rfl, rfl, rfl, rfl, rfl, rfl, rfl, rfl, rfl, rfl, rfl, rfl, rfl, rfl, rfl, rfl, rfl, rfl,
   rfl, rfl, rfl, rfl, rfl, rfl, rfl, rfl, rfl, rfl, rfl, rfl, rfl, rfl, rfl, rfl, rfl, rfl, rfl, rfl, rfl, rfl,
   rfl, rfl, rfl, rfl, rfl, rfl, rfl, rfl, rfl, rfl, rfl, rfl, rfl, rfl, rfl, rfl, rfl, rfl, rfl, rfl, rfl, rfl,
   rfl, rfl, rfl, rfl, rfl, rfl⟩

@[simp] theorem State.deliver_frame (s : State) (p : QPkt) :
    (s.deliver p).pending = s.pending ∧ (s.deliver p).regs = s.regs ∧ (s.deliver p).mem = s.mem ∧
    (s.deliver p).marks = s.marks ∧ (s.deliver p).cycle = s.cycle ∧ (s.deliver p).ps = s.ps ∧
    (s.deliver p).sub = s.sub ∧ (s.deliver p).wrote = s.wrote ∧ (s.deliver p).raised = s.raised ∧
    (s.deliver p).idleFrom = s.idleFrom ∧ (s.deliver p).findings = s.findings ∧ (s.deliver p).free = s.free ∧
    (s.deliver p).fresh = s.fresh ∧ (s.deliver p).outbox = s.outbox ∧ (s.deliver p).crews = s.crews ∧
    (s.deliver p).drills = s.drills ∧ (s.deliver p).stopes = s.stopes ∧ (s.deliver p).shafts = s.shafts ∧
    (s.deliver p).dispatches = s.dispatches ∧ (s.deliver p).requeued = s.requeued ∧ (s.deliver p).steps = s.steps ∧
    (s.deliver p).seqNo = s.seqNo ∧ (s.deliver p).tickets = s.tickets ∧ (s.deliver p).serial = s.serial ∧
    (s.deliver p).born = s.born ∧ (s.deliver p).poisoned = s.poisoned ∧ (s.deliver p).pairs = s.pairs ∧
    (s.deliver p).saved = s.saved ∧ (s.deliver p).lastShaft = s.lastShaft ∧ (s.deliver p).lastStope = s.lastStope ∧
    (s.deliver p).preempts = s.preempts ∧ (s.deliver p).skips = s.skips ∧ (s.deliver p).hfTlb = s.hfTlb ∧
    (s.deliver p).fid = s.fid ∧ (s.deliver p).inval = s.inval ∧ (s.deliver p).locks = s.locks ∧
    (s.deliver p).ages = s.ages ∧ (s.deliver p).corrections = s.corrections ∧ (s.deliver p).tests = s.tests ∧
    (s.deliver p).window = s.window ∧ (s.deliver p).hbms = s.hbms ∧ (s.deliver p).hbmUsed = s.hbmUsed ∧
    (s.deliver p).spareRows = s.spareRows ∧ (s.deliver p).repairs = s.repairs ∧ (s.deliver p).retired = s.retired ∧
    (s.deliver p).waitGraph = s.waitGraph ∧ (s.deliver p).sums = s.sums ∧ (s.deliver p).turns = s.turns ∧
    (s.deliver p).waits = s.waits ∧ (s.deliver p).activity = s.activity ∧ (s.deliver p).snapshot = s.snapshot ∧
    (s.deliver p).pack = s.pack ∧ (s.deliver p).packNext = s.packNext ∧ (s.deliver p).levelNext = s.levelNext ∧
    (s.deliver p).inject = s.inject ∧ (s.deliver p).adits = s.adits ∧ (s.deliver p).cpl = s.cpl ∧
    (s.deliver p).spareLanes = s.spareLanes ∧ (s.deliver p).heldFrame = s.heldFrame ∧ (s.deliver p).xfer = s.xfer ∧
    (s.deliver p).buckets = s.buckets ∧ (s.deliver p).xfers = s.xfers ∧ (s.deliver p).riffles = s.riffles ∧
    (s.deliver p).bcycle = s.bcycle ∧ (s.deliver p).bgWin = s.bgWin ∧ (s.deliver p).phases = s.phases ∧
    (s.deliver p).smelts = s.smelts ∧ (s.deliver p).whistle = s.whistle ∧ (s.deliver p).power = s.power ∧
    (s.deliver p).lamp = s.lamp ∧ (s.deliver p).foreman = s.foreman ∧ (s.deliver p).port = s.port :=
  ⟨rfl, rfl, rfl, rfl, rfl, rfl, rfl, rfl, rfl, rfl, rfl, rfl, rfl, rfl, rfl, rfl, rfl, rfl, rfl, rfl, rfl, rfl,
   rfl, rfl, rfl, rfl, rfl, rfl, rfl, rfl, rfl, rfl, rfl, rfl, rfl, rfl, rfl, rfl, rfl, rfl, rfl, rfl, rfl, rfl,
   rfl, rfl, rfl, rfl, rfl, rfl, rfl, rfl, rfl, rfl, rfl, rfl, rfl, rfl, rfl, rfl, rfl, rfl, rfl, rfl, rfl, rfl,
   rfl, rfl, rfl, rfl, rfl, rfl⟩

@[simp] theorem State.modBucket_frame (s : State) (n : Nat) (f : Bucket → Bucket) :
    (s.modBucket n f).pending = s.pending ∧ (s.modBucket n f).regs = s.regs ∧ (s.modBucket n f).mem = s.mem ∧
    (s.modBucket n f).marks = s.marks ∧ (s.modBucket n f).cycle = s.cycle ∧ (s.modBucket n f).ps = s.ps ∧
    (s.modBucket n f).sub = s.sub ∧ (s.modBucket n f).wrote = s.wrote ∧ (s.modBucket n f).raised = s.raised ∧
    (s.modBucket n f).idleFrom = s.idleFrom ∧ (s.modBucket n f).findings = s.findings ∧
    (s.modBucket n f).free = s.free ∧ (s.modBucket n f).fresh = s.fresh ∧ (s.modBucket n f).outbox = s.outbox ∧
    (s.modBucket n f).crews = s.crews ∧ (s.modBucket n f).drills = s.drills ∧ (s.modBucket n f).stopes = s.stopes ∧
    (s.modBucket n f).shafts = s.shafts ∧ (s.modBucket n f).dispatches = s.dispatches ∧
    (s.modBucket n f).requeued = s.requeued ∧ (s.modBucket n f).steps = s.steps ∧ (s.modBucket n f).seqNo = s.seqNo ∧
    (s.modBucket n f).tickets = s.tickets ∧ (s.modBucket n f).serial = s.serial ∧ (s.modBucket n f).born = s.born ∧
    (s.modBucket n f).poisoned = s.poisoned ∧ (s.modBucket n f).pairs = s.pairs ∧ (s.modBucket n f).saved = s.saved ∧
    (s.modBucket n f).lastShaft = s.lastShaft ∧ (s.modBucket n f).lastStope = s.lastStope ∧
    (s.modBucket n f).preempts = s.preempts ∧ (s.modBucket n f).skips = s.skips ∧ (s.modBucket n f).hfTlb = s.hfTlb ∧
    (s.modBucket n f).fid = s.fid ∧ (s.modBucket n f).inval = s.inval ∧ (s.modBucket n f).locks = s.locks ∧
    (s.modBucket n f).ages = s.ages ∧ (s.modBucket n f).corrections = s.corrections ∧
    (s.modBucket n f).tests = s.tests ∧ (s.modBucket n f).window = s.window ∧ (s.modBucket n f).hbms = s.hbms ∧
    (s.modBucket n f).hbmUsed = s.hbmUsed ∧ (s.modBucket n f).spareRows = s.spareRows ∧
    (s.modBucket n f).repairs = s.repairs ∧ (s.modBucket n f).retired = s.retired ∧
    (s.modBucket n f).waitGraph = s.waitGraph ∧ (s.modBucket n f).sums = s.sums ∧ (s.modBucket n f).turns = s.turns ∧
    (s.modBucket n f).waits = s.waits ∧ (s.modBucket n f).activity = s.activity ∧
    (s.modBucket n f).snapshot = s.snapshot ∧ (s.modBucket n f).pack = s.pack ∧
    (s.modBucket n f).packNext = s.packNext ∧ (s.modBucket n f).levelNext = s.levelNext ∧
    (s.modBucket n f).inject = s.inject ∧ (s.modBucket n f).adits = s.adits ∧ (s.modBucket n f).arrived = s.arrived ∧
    (s.modBucket n f).cpl = s.cpl ∧ (s.modBucket n f).spareLanes = s.spareLanes ∧
    (s.modBucket n f).heldFrame = s.heldFrame ∧ (s.modBucket n f).xfer = s.xfer ∧ (s.modBucket n f).xfers = s.xfers ∧
    (s.modBucket n f).riffles = s.riffles ∧ (s.modBucket n f).bcycle = s.bcycle ∧ (s.modBucket n f).bgWin = s.bgWin ∧
    (s.modBucket n f).phases = s.phases ∧ (s.modBucket n f).smelts = s.smelts ∧
    (s.modBucket n f).whistle = s.whistle ∧ (s.modBucket n f).power = s.power ∧ (s.modBucket n f).lamp = s.lamp ∧
    (s.modBucket n f).foreman = s.foreman ∧ (s.modBucket n f).port = s.port :=
  ⟨rfl, rfl, rfl, rfl, rfl, rfl, rfl, rfl, rfl, rfl, rfl, rfl, rfl, rfl, rfl, rfl, rfl, rfl, rfl, rfl, rfl, rfl,
   rfl, rfl, rfl, rfl, rfl, rfl, rfl, rfl, rfl, rfl, rfl, rfl, rfl, rfl, rfl, rfl, rfl, rfl, rfl, rfl, rfl, rfl,
   rfl, rfl, rfl, rfl, rfl, rfl, rfl, rfl, rfl, rfl, rfl, rfl, rfl, rfl, rfl, rfl, rfl, rfl, rfl, rfl, rfl, rfl,
   rfl, rfl, rfl, rfl, rfl, rfl⟩

@[simp] theorem State.modRfl_frame (s : State) (id : Nat) (f : Riffle → Riffle) :
    (s.modRfl id f).pending = s.pending ∧ (s.modRfl id f).regs = s.regs ∧ (s.modRfl id f).mem = s.mem ∧
    (s.modRfl id f).marks = s.marks ∧ (s.modRfl id f).cycle = s.cycle ∧ (s.modRfl id f).ps = s.ps ∧
    (s.modRfl id f).sub = s.sub ∧ (s.modRfl id f).wrote = s.wrote ∧ (s.modRfl id f).raised = s.raised ∧
    (s.modRfl id f).idleFrom = s.idleFrom ∧ (s.modRfl id f).findings = s.findings ∧ (s.modRfl id f).free = s.free ∧
    (s.modRfl id f).fresh = s.fresh ∧ (s.modRfl id f).outbox = s.outbox ∧ (s.modRfl id f).crews = s.crews ∧
    (s.modRfl id f).drills = s.drills ∧ (s.modRfl id f).stopes = s.stopes ∧ (s.modRfl id f).shafts = s.shafts ∧
    (s.modRfl id f).dispatches = s.dispatches ∧ (s.modRfl id f).requeued = s.requeued ∧
    (s.modRfl id f).steps = s.steps ∧ (s.modRfl id f).seqNo = s.seqNo ∧ (s.modRfl id f).tickets = s.tickets ∧
    (s.modRfl id f).serial = s.serial ∧ (s.modRfl id f).born = s.born ∧ (s.modRfl id f).poisoned = s.poisoned ∧
    (s.modRfl id f).pairs = s.pairs ∧ (s.modRfl id f).saved = s.saved ∧ (s.modRfl id f).lastShaft = s.lastShaft ∧
    (s.modRfl id f).lastStope = s.lastStope ∧ (s.modRfl id f).preempts = s.preempts ∧
    (s.modRfl id f).skips = s.skips ∧ (s.modRfl id f).hfTlb = s.hfTlb ∧ (s.modRfl id f).fid = s.fid ∧
    (s.modRfl id f).inval = s.inval ∧ (s.modRfl id f).locks = s.locks ∧ (s.modRfl id f).ages = s.ages ∧
    (s.modRfl id f).corrections = s.corrections ∧ (s.modRfl id f).tests = s.tests ∧
    (s.modRfl id f).window = s.window ∧ (s.modRfl id f).hbms = s.hbms ∧ (s.modRfl id f).hbmUsed = s.hbmUsed ∧
    (s.modRfl id f).spareRows = s.spareRows ∧ (s.modRfl id f).repairs = s.repairs ∧
    (s.modRfl id f).retired = s.retired ∧ (s.modRfl id f).waitGraph = s.waitGraph ∧ (s.modRfl id f).sums = s.sums ∧
    (s.modRfl id f).turns = s.turns ∧ (s.modRfl id f).waits = s.waits ∧ (s.modRfl id f).activity = s.activity ∧
    (s.modRfl id f).snapshot = s.snapshot ∧ (s.modRfl id f).pack = s.pack ∧ (s.modRfl id f).packNext = s.packNext ∧
    (s.modRfl id f).levelNext = s.levelNext ∧ (s.modRfl id f).inject = s.inject ∧ (s.modRfl id f).adits = s.adits ∧
    (s.modRfl id f).arrived = s.arrived ∧ (s.modRfl id f).cpl = s.cpl ∧ (s.modRfl id f).spareLanes = s.spareLanes ∧
    (s.modRfl id f).heldFrame = s.heldFrame ∧ (s.modRfl id f).xfer = s.xfer ∧ (s.modRfl id f).buckets = s.buckets ∧
    (s.modRfl id f).xfers = s.xfers ∧ (s.modRfl id f).bcycle = s.bcycle ∧ (s.modRfl id f).bgWin = s.bgWin ∧
    (s.modRfl id f).phases = s.phases ∧ (s.modRfl id f).smelts = s.smelts ∧ (s.modRfl id f).whistle = s.whistle ∧
    (s.modRfl id f).power = s.power ∧ (s.modRfl id f).lamp = s.lamp ∧ (s.modRfl id f).foreman = s.foreman ∧
    (s.modRfl id f).port = s.port :=
  ⟨rfl, rfl, rfl, rfl, rfl, rfl, rfl, rfl, rfl, rfl, rfl, rfl, rfl, rfl, rfl, rfl, rfl, rfl, rfl, rfl, rfl, rfl,
   rfl, rfl, rfl, rfl, rfl, rfl, rfl, rfl, rfl, rfl, rfl, rfl, rfl, rfl, rfl, rfl, rfl, rfl, rfl, rfl, rfl, rfl,
   rfl, rfl, rfl, rfl, rfl, rfl, rfl, rfl, rfl, rfl, rfl, rfl, rfl, rfl, rfl, rfl, rfl, rfl, rfl, rfl, rfl, rfl,
   rfl, rfl, rfl, rfl, rfl, rfl⟩

@[simp] theorem State.modSmelt_frame (s : State) (id : Nat) (f : Smelt → Smelt) :
    (s.modSmelt id f).pending = s.pending ∧ (s.modSmelt id f).regs = s.regs ∧ (s.modSmelt id f).mem = s.mem ∧
    (s.modSmelt id f).marks = s.marks ∧ (s.modSmelt id f).cycle = s.cycle ∧ (s.modSmelt id f).ps = s.ps ∧
    (s.modSmelt id f).sub = s.sub ∧ (s.modSmelt id f).wrote = s.wrote ∧ (s.modSmelt id f).raised = s.raised ∧
    (s.modSmelt id f).idleFrom = s.idleFrom ∧ (s.modSmelt id f).findings = s.findings ∧
    (s.modSmelt id f).free = s.free ∧ (s.modSmelt id f).fresh = s.fresh ∧ (s.modSmelt id f).outbox = s.outbox ∧
    (s.modSmelt id f).crews = s.crews ∧ (s.modSmelt id f).drills = s.drills ∧ (s.modSmelt id f).stopes = s.stopes ∧
    (s.modSmelt id f).shafts = s.shafts ∧ (s.modSmelt id f).dispatches = s.dispatches ∧
    (s.modSmelt id f).requeued = s.requeued ∧ (s.modSmelt id f).steps = s.steps ∧ (s.modSmelt id f).seqNo = s.seqNo ∧
    (s.modSmelt id f).tickets = s.tickets ∧ (s.modSmelt id f).serial = s.serial ∧ (s.modSmelt id f).born = s.born ∧
    (s.modSmelt id f).poisoned = s.poisoned ∧ (s.modSmelt id f).pairs = s.pairs ∧ (s.modSmelt id f).saved = s.saved ∧
    (s.modSmelt id f).lastShaft = s.lastShaft ∧ (s.modSmelt id f).lastStope = s.lastStope ∧
    (s.modSmelt id f).preempts = s.preempts ∧ (s.modSmelt id f).skips = s.skips ∧ (s.modSmelt id f).hfTlb = s.hfTlb ∧
    (s.modSmelt id f).fid = s.fid ∧ (s.modSmelt id f).inval = s.inval ∧ (s.modSmelt id f).locks = s.locks ∧
    (s.modSmelt id f).ages = s.ages ∧ (s.modSmelt id f).corrections = s.corrections ∧
    (s.modSmelt id f).tests = s.tests ∧ (s.modSmelt id f).window = s.window ∧ (s.modSmelt id f).hbms = s.hbms ∧
    (s.modSmelt id f).hbmUsed = s.hbmUsed ∧ (s.modSmelt id f).spareRows = s.spareRows ∧
    (s.modSmelt id f).repairs = s.repairs ∧ (s.modSmelt id f).retired = s.retired ∧
    (s.modSmelt id f).waitGraph = s.waitGraph ∧ (s.modSmelt id f).sums = s.sums ∧ (s.modSmelt id f).turns = s.turns ∧
    (s.modSmelt id f).waits = s.waits ∧ (s.modSmelt id f).activity = s.activity ∧
    (s.modSmelt id f).snapshot = s.snapshot ∧ (s.modSmelt id f).pack = s.pack ∧
    (s.modSmelt id f).packNext = s.packNext ∧ (s.modSmelt id f).levelNext = s.levelNext ∧
    (s.modSmelt id f).inject = s.inject ∧ (s.modSmelt id f).adits = s.adits ∧ (s.modSmelt id f).arrived = s.arrived ∧
    (s.modSmelt id f).cpl = s.cpl ∧ (s.modSmelt id f).spareLanes = s.spareLanes ∧
    (s.modSmelt id f).heldFrame = s.heldFrame ∧ (s.modSmelt id f).xfer = s.xfer ∧
    (s.modSmelt id f).buckets = s.buckets ∧ (s.modSmelt id f).xfers = s.xfers ∧
    (s.modSmelt id f).riffles = s.riffles ∧ (s.modSmelt id f).bcycle = s.bcycle ∧ (s.modSmelt id f).bgWin = s.bgWin ∧
    (s.modSmelt id f).phases = s.phases ∧ (s.modSmelt id f).whistle = s.whistle ∧ (s.modSmelt id f).power = s.power ∧
    (s.modSmelt id f).lamp = s.lamp ∧ (s.modSmelt id f).foreman = s.foreman ∧ (s.modSmelt id f).port = s.port :=
  ⟨rfl, rfl, rfl, rfl, rfl, rfl, rfl, rfl, rfl, rfl, rfl, rfl, rfl, rfl, rfl, rfl, rfl, rfl, rfl, rfl, rfl, rfl,
   rfl, rfl, rfl, rfl, rfl, rfl, rfl, rfl, rfl, rfl, rfl, rfl, rfl, rfl, rfl, rfl, rfl, rfl, rfl, rfl, rfl, rfl,
   rfl, rfl, rfl, rfl, rfl, rfl, rfl, rfl, rfl, rfl, rfl, rfl, rfl, rfl, rfl, rfl, rfl, rfl, rfl, rfl, rfl, rfl,
   rfl, rfl, rfl, rfl, rfl, rfl⟩

@[simp] theorem State.modPower_frame (s : State) (f : Power → Power) :
    (s.modPower f).pending = s.pending ∧ (s.modPower f).regs = s.regs ∧ (s.modPower f).mem = s.mem ∧
    (s.modPower f).marks = s.marks ∧ (s.modPower f).cycle = s.cycle ∧ (s.modPower f).ps = s.ps ∧
    (s.modPower f).sub = s.sub ∧ (s.modPower f).wrote = s.wrote ∧ (s.modPower f).raised = s.raised ∧
    (s.modPower f).idleFrom = s.idleFrom ∧ (s.modPower f).findings = s.findings ∧ (s.modPower f).free = s.free ∧
    (s.modPower f).fresh = s.fresh ∧ (s.modPower f).outbox = s.outbox ∧ (s.modPower f).crews = s.crews ∧
    (s.modPower f).drills = s.drills ∧ (s.modPower f).stopes = s.stopes ∧ (s.modPower f).shafts = s.shafts ∧
    (s.modPower f).dispatches = s.dispatches ∧ (s.modPower f).requeued = s.requeued ∧ (s.modPower f).steps = s.steps ∧
    (s.modPower f).seqNo = s.seqNo ∧ (s.modPower f).tickets = s.tickets ∧ (s.modPower f).serial = s.serial ∧
    (s.modPower f).born = s.born ∧ (s.modPower f).poisoned = s.poisoned ∧ (s.modPower f).pairs = s.pairs ∧
    (s.modPower f).saved = s.saved ∧ (s.modPower f).lastShaft = s.lastShaft ∧ (s.modPower f).lastStope = s.lastStope ∧
    (s.modPower f).preempts = s.preempts ∧ (s.modPower f).skips = s.skips ∧ (s.modPower f).hfTlb = s.hfTlb ∧
    (s.modPower f).fid = s.fid ∧ (s.modPower f).inval = s.inval ∧ (s.modPower f).locks = s.locks ∧
    (s.modPower f).ages = s.ages ∧ (s.modPower f).corrections = s.corrections ∧ (s.modPower f).tests = s.tests ∧
    (s.modPower f).window = s.window ∧ (s.modPower f).hbms = s.hbms ∧ (s.modPower f).hbmUsed = s.hbmUsed ∧
    (s.modPower f).spareRows = s.spareRows ∧ (s.modPower f).repairs = s.repairs ∧ (s.modPower f).retired = s.retired ∧
    (s.modPower f).waitGraph = s.waitGraph ∧ (s.modPower f).sums = s.sums ∧ (s.modPower f).turns = s.turns ∧
    (s.modPower f).waits = s.waits ∧ (s.modPower f).activity = s.activity ∧ (s.modPower f).snapshot = s.snapshot ∧
    (s.modPower f).pack = s.pack ∧ (s.modPower f).packNext = s.packNext ∧ (s.modPower f).levelNext = s.levelNext ∧
    (s.modPower f).inject = s.inject ∧ (s.modPower f).adits = s.adits ∧ (s.modPower f).arrived = s.arrived ∧
    (s.modPower f).cpl = s.cpl ∧ (s.modPower f).spareLanes = s.spareLanes ∧ (s.modPower f).heldFrame = s.heldFrame ∧
    (s.modPower f).xfer = s.xfer ∧ (s.modPower f).buckets = s.buckets ∧ (s.modPower f).xfers = s.xfers ∧
    (s.modPower f).riffles = s.riffles ∧ (s.modPower f).bcycle = s.bcycle ∧ (s.modPower f).bgWin = s.bgWin ∧
    (s.modPower f).phases = s.phases ∧ (s.modPower f).smelts = s.smelts ∧ (s.modPower f).whistle = s.whistle ∧
    (s.modPower f).lamp = s.lamp ∧ (s.modPower f).foreman = s.foreman ∧ (s.modPower f).port = s.port :=
  ⟨rfl, rfl, rfl, rfl, rfl, rfl, rfl, rfl, rfl, rfl, rfl, rfl, rfl, rfl, rfl, rfl, rfl, rfl, rfl, rfl, rfl, rfl,
   rfl, rfl, rfl, rfl, rfl, rfl, rfl, rfl, rfl, rfl, rfl, rfl, rfl, rfl, rfl, rfl, rfl, rfl, rfl, rfl, rfl, rfl,
   rfl, rfl, rfl, rfl, rfl, rfl, rfl, rfl, rfl, rfl, rfl, rfl, rfl, rfl, rfl, rfl, rfl, rfl, rfl, rfl, rfl, rfl,
   rfl, rfl, rfl, rfl, rfl, rfl⟩

@[simp] theorem State.modWhistle_frame (s : State) (f : Whistle → Whistle) :
    (s.modWhistle f).pending = s.pending ∧ (s.modWhistle f).regs = s.regs ∧ (s.modWhistle f).mem = s.mem ∧
    (s.modWhistle f).marks = s.marks ∧ (s.modWhistle f).cycle = s.cycle ∧ (s.modWhistle f).ps = s.ps ∧
    (s.modWhistle f).sub = s.sub ∧ (s.modWhistle f).wrote = s.wrote ∧ (s.modWhistle f).raised = s.raised ∧
    (s.modWhistle f).idleFrom = s.idleFrom ∧ (s.modWhistle f).findings = s.findings ∧ (s.modWhistle f).free = s.free ∧
    (s.modWhistle f).fresh = s.fresh ∧ (s.modWhistle f).outbox = s.outbox ∧ (s.modWhistle f).crews = s.crews ∧
    (s.modWhistle f).drills = s.drills ∧ (s.modWhistle f).stopes = s.stopes ∧ (s.modWhistle f).shafts = s.shafts ∧
    (s.modWhistle f).dispatches = s.dispatches ∧ (s.modWhistle f).requeued = s.requeued ∧
    (s.modWhistle f).steps = s.steps ∧ (s.modWhistle f).seqNo = s.seqNo ∧ (s.modWhistle f).tickets = s.tickets ∧
    (s.modWhistle f).serial = s.serial ∧ (s.modWhistle f).born = s.born ∧ (s.modWhistle f).poisoned = s.poisoned ∧
    (s.modWhistle f).pairs = s.pairs ∧ (s.modWhistle f).saved = s.saved ∧ (s.modWhistle f).lastShaft = s.lastShaft ∧
    (s.modWhistle f).lastStope = s.lastStope ∧ (s.modWhistle f).preempts = s.preempts ∧
    (s.modWhistle f).skips = s.skips ∧ (s.modWhistle f).hfTlb = s.hfTlb ∧ (s.modWhistle f).fid = s.fid ∧
    (s.modWhistle f).inval = s.inval ∧ (s.modWhistle f).locks = s.locks ∧ (s.modWhistle f).ages = s.ages ∧
    (s.modWhistle f).corrections = s.corrections ∧ (s.modWhistle f).tests = s.tests ∧
    (s.modWhistle f).window = s.window ∧ (s.modWhistle f).hbms = s.hbms ∧ (s.modWhistle f).hbmUsed = s.hbmUsed ∧
    (s.modWhistle f).spareRows = s.spareRows ∧ (s.modWhistle f).repairs = s.repairs ∧
    (s.modWhistle f).retired = s.retired ∧ (s.modWhistle f).waitGraph = s.waitGraph ∧ (s.modWhistle f).sums = s.sums ∧
    (s.modWhistle f).turns = s.turns ∧ (s.modWhistle f).waits = s.waits ∧ (s.modWhistle f).activity = s.activity ∧
    (s.modWhistle f).snapshot = s.snapshot ∧ (s.modWhistle f).pack = s.pack ∧ (s.modWhistle f).packNext = s.packNext ∧
    (s.modWhistle f).levelNext = s.levelNext ∧ (s.modWhistle f).inject = s.inject ∧ (s.modWhistle f).adits = s.adits ∧
    (s.modWhistle f).arrived = s.arrived ∧ (s.modWhistle f).cpl = s.cpl ∧ (s.modWhistle f).spareLanes = s.spareLanes ∧
    (s.modWhistle f).heldFrame = s.heldFrame ∧ (s.modWhistle f).xfer = s.xfer ∧ (s.modWhistle f).buckets = s.buckets ∧
    (s.modWhistle f).xfers = s.xfers ∧ (s.modWhistle f).riffles = s.riffles ∧ (s.modWhistle f).bcycle = s.bcycle ∧
    (s.modWhistle f).bgWin = s.bgWin ∧ (s.modWhistle f).phases = s.phases ∧ (s.modWhistle f).smelts = s.smelts ∧
    (s.modWhistle f).power = s.power ∧ (s.modWhistle f).lamp = s.lamp ∧ (s.modWhistle f).foreman = s.foreman ∧
    (s.modWhistle f).port = s.port :=
  ⟨rfl, rfl, rfl, rfl, rfl, rfl, rfl, rfl, rfl, rfl, rfl, rfl, rfl, rfl, rfl, rfl, rfl, rfl, rfl, rfl, rfl, rfl,
   rfl, rfl, rfl, rfl, rfl, rfl, rfl, rfl, rfl, rfl, rfl, rfl, rfl, rfl, rfl, rfl, rfl, rfl, rfl, rfl, rfl, rfl,
   rfl, rfl, rfl, rfl, rfl, rfl, rfl, rfl, rfl, rfl, rfl, rfl, rfl, rfl, rfl, rfl, rfl, rfl, rfl, rfl, rfl, rfl,
   rfl, rfl, rfl, rfl, rfl, rfl⟩

@[simp] theorem State.modLamp_frame (s : State) (f : Lamp → Lamp) :
    (s.modLamp f).pending = s.pending ∧ (s.modLamp f).regs = s.regs ∧ (s.modLamp f).mem = s.mem ∧
    (s.modLamp f).marks = s.marks ∧ (s.modLamp f).cycle = s.cycle ∧ (s.modLamp f).ps = s.ps ∧
    (s.modLamp f).sub = s.sub ∧ (s.modLamp f).wrote = s.wrote ∧ (s.modLamp f).raised = s.raised ∧
    (s.modLamp f).idleFrom = s.idleFrom ∧ (s.modLamp f).findings = s.findings ∧ (s.modLamp f).free = s.free ∧
    (s.modLamp f).fresh = s.fresh ∧ (s.modLamp f).outbox = s.outbox ∧ (s.modLamp f).crews = s.crews ∧
    (s.modLamp f).drills = s.drills ∧ (s.modLamp f).stopes = s.stopes ∧ (s.modLamp f).shafts = s.shafts ∧
    (s.modLamp f).dispatches = s.dispatches ∧ (s.modLamp f).requeued = s.requeued ∧ (s.modLamp f).steps = s.steps ∧
    (s.modLamp f).seqNo = s.seqNo ∧ (s.modLamp f).tickets = s.tickets ∧ (s.modLamp f).serial = s.serial ∧
    (s.modLamp f).born = s.born ∧ (s.modLamp f).poisoned = s.poisoned ∧ (s.modLamp f).pairs = s.pairs ∧
    (s.modLamp f).saved = s.saved ∧ (s.modLamp f).lastShaft = s.lastShaft ∧ (s.modLamp f).lastStope = s.lastStope ∧
    (s.modLamp f).preempts = s.preempts ∧ (s.modLamp f).skips = s.skips ∧ (s.modLamp f).hfTlb = s.hfTlb ∧
    (s.modLamp f).fid = s.fid ∧ (s.modLamp f).inval = s.inval ∧ (s.modLamp f).locks = s.locks ∧
    (s.modLamp f).ages = s.ages ∧ (s.modLamp f).corrections = s.corrections ∧ (s.modLamp f).tests = s.tests ∧
    (s.modLamp f).window = s.window ∧ (s.modLamp f).hbms = s.hbms ∧ (s.modLamp f).hbmUsed = s.hbmUsed ∧
    (s.modLamp f).spareRows = s.spareRows ∧ (s.modLamp f).repairs = s.repairs ∧ (s.modLamp f).retired = s.retired ∧
    (s.modLamp f).waitGraph = s.waitGraph ∧ (s.modLamp f).sums = s.sums ∧ (s.modLamp f).turns = s.turns ∧
    (s.modLamp f).waits = s.waits ∧ (s.modLamp f).activity = s.activity ∧ (s.modLamp f).snapshot = s.snapshot ∧
    (s.modLamp f).pack = s.pack ∧ (s.modLamp f).packNext = s.packNext ∧ (s.modLamp f).levelNext = s.levelNext ∧
    (s.modLamp f).inject = s.inject ∧ (s.modLamp f).adits = s.adits ∧ (s.modLamp f).arrived = s.arrived ∧
    (s.modLamp f).cpl = s.cpl ∧ (s.modLamp f).spareLanes = s.spareLanes ∧ (s.modLamp f).heldFrame = s.heldFrame ∧
    (s.modLamp f).xfer = s.xfer ∧ (s.modLamp f).buckets = s.buckets ∧ (s.modLamp f).xfers = s.xfers ∧
    (s.modLamp f).riffles = s.riffles ∧ (s.modLamp f).bcycle = s.bcycle ∧ (s.modLamp f).bgWin = s.bgWin ∧
    (s.modLamp f).phases = s.phases ∧ (s.modLamp f).smelts = s.smelts ∧ (s.modLamp f).whistle = s.whistle ∧
    (s.modLamp f).power = s.power ∧ (s.modLamp f).foreman = s.foreman ∧ (s.modLamp f).port = s.port :=
  ⟨rfl, rfl, rfl, rfl, rfl, rfl, rfl, rfl, rfl, rfl, rfl, rfl, rfl, rfl, rfl, rfl, rfl, rfl, rfl, rfl, rfl, rfl,
   rfl, rfl, rfl, rfl, rfl, rfl, rfl, rfl, rfl, rfl, rfl, rfl, rfl, rfl, rfl, rfl, rfl, rfl, rfl, rfl, rfl, rfl,
   rfl, rfl, rfl, rfl, rfl, rfl, rfl, rfl, rfl, rfl, rfl, rfl, rfl, rfl, rfl, rfl, rfl, rfl, rfl, rfl, rfl, rfl,
   rfl, rfl, rfl, rfl, rfl, rfl⟩

@[simp] theorem State.modForeman_frame (s : State) (f : Foreman → Foreman) :
    (s.modForeman f).pending = s.pending ∧ (s.modForeman f).regs = s.regs ∧ (s.modForeman f).mem = s.mem ∧
    (s.modForeman f).marks = s.marks ∧ (s.modForeman f).cycle = s.cycle ∧ (s.modForeman f).ps = s.ps ∧
    (s.modForeman f).sub = s.sub ∧ (s.modForeman f).wrote = s.wrote ∧ (s.modForeman f).raised = s.raised ∧
    (s.modForeman f).idleFrom = s.idleFrom ∧ (s.modForeman f).findings = s.findings ∧ (s.modForeman f).free = s.free ∧
    (s.modForeman f).fresh = s.fresh ∧ (s.modForeman f).outbox = s.outbox ∧ (s.modForeman f).crews = s.crews ∧
    (s.modForeman f).drills = s.drills ∧ (s.modForeman f).stopes = s.stopes ∧ (s.modForeman f).shafts = s.shafts ∧
    (s.modForeman f).dispatches = s.dispatches ∧ (s.modForeman f).requeued = s.requeued ∧
    (s.modForeman f).steps = s.steps ∧ (s.modForeman f).seqNo = s.seqNo ∧ (s.modForeman f).tickets = s.tickets ∧
    (s.modForeman f).serial = s.serial ∧ (s.modForeman f).born = s.born ∧ (s.modForeman f).poisoned = s.poisoned ∧
    (s.modForeman f).pairs = s.pairs ∧ (s.modForeman f).saved = s.saved ∧ (s.modForeman f).lastShaft = s.lastShaft ∧
    (s.modForeman f).lastStope = s.lastStope ∧ (s.modForeman f).preempts = s.preempts ∧
    (s.modForeman f).skips = s.skips ∧ (s.modForeman f).hfTlb = s.hfTlb ∧ (s.modForeman f).fid = s.fid ∧
    (s.modForeman f).inval = s.inval ∧ (s.modForeman f).locks = s.locks ∧ (s.modForeman f).ages = s.ages ∧
    (s.modForeman f).corrections = s.corrections ∧ (s.modForeman f).tests = s.tests ∧
    (s.modForeman f).window = s.window ∧ (s.modForeman f).hbms = s.hbms ∧ (s.modForeman f).hbmUsed = s.hbmUsed ∧
    (s.modForeman f).spareRows = s.spareRows ∧ (s.modForeman f).repairs = s.repairs ∧
    (s.modForeman f).retired = s.retired ∧ (s.modForeman f).waitGraph = s.waitGraph ∧ (s.modForeman f).sums = s.sums ∧
    (s.modForeman f).turns = s.turns ∧ (s.modForeman f).waits = s.waits ∧ (s.modForeman f).activity = s.activity ∧
    (s.modForeman f).snapshot = s.snapshot ∧ (s.modForeman f).pack = s.pack ∧ (s.modForeman f).packNext = s.packNext ∧
    (s.modForeman f).levelNext = s.levelNext ∧ (s.modForeman f).inject = s.inject ∧ (s.modForeman f).adits = s.adits ∧
    (s.modForeman f).arrived = s.arrived ∧ (s.modForeman f).cpl = s.cpl ∧ (s.modForeman f).spareLanes = s.spareLanes ∧
    (s.modForeman f).heldFrame = s.heldFrame ∧ (s.modForeman f).xfer = s.xfer ∧ (s.modForeman f).buckets = s.buckets ∧
    (s.modForeman f).xfers = s.xfers ∧ (s.modForeman f).riffles = s.riffles ∧ (s.modForeman f).bcycle = s.bcycle ∧
    (s.modForeman f).bgWin = s.bgWin ∧ (s.modForeman f).phases = s.phases ∧ (s.modForeman f).smelts = s.smelts ∧
    (s.modForeman f).whistle = s.whistle ∧ (s.modForeman f).power = s.power ∧ (s.modForeman f).lamp = s.lamp ∧
    (s.modForeman f).port = s.port :=
  ⟨rfl, rfl, rfl, rfl, rfl, rfl, rfl, rfl, rfl, rfl, rfl, rfl, rfl, rfl, rfl, rfl, rfl, rfl, rfl, rfl, rfl, rfl,
   rfl, rfl, rfl, rfl, rfl, rfl, rfl, rfl, rfl, rfl, rfl, rfl, rfl, rfl, rfl, rfl, rfl, rfl, rfl, rfl, rfl, rfl,
   rfl, rfl, rfl, rfl, rfl, rfl, rfl, rfl, rfl, rfl, rfl, rfl, rfl, rfl, rfl, rfl, rfl, rfl, rfl, rfl, rfl, rfl,
   rfl, rfl, rfl, rfl, rfl, rfl⟩

@[simp] theorem State.modPort_frame (s : State) (f : HostPort → HostPort) :
    (s.modPort f).pending = s.pending ∧ (s.modPort f).regs = s.regs ∧ (s.modPort f).mem = s.mem ∧
    (s.modPort f).marks = s.marks ∧ (s.modPort f).cycle = s.cycle ∧ (s.modPort f).ps = s.ps ∧
    (s.modPort f).sub = s.sub ∧ (s.modPort f).wrote = s.wrote ∧ (s.modPort f).raised = s.raised ∧
    (s.modPort f).idleFrom = s.idleFrom ∧ (s.modPort f).findings = s.findings ∧ (s.modPort f).free = s.free ∧
    (s.modPort f).fresh = s.fresh ∧ (s.modPort f).outbox = s.outbox ∧ (s.modPort f).crews = s.crews ∧
    (s.modPort f).drills = s.drills ∧ (s.modPort f).stopes = s.stopes ∧ (s.modPort f).shafts = s.shafts ∧
    (s.modPort f).dispatches = s.dispatches ∧ (s.modPort f).requeued = s.requeued ∧ (s.modPort f).steps = s.steps ∧
    (s.modPort f).seqNo = s.seqNo ∧ (s.modPort f).tickets = s.tickets ∧ (s.modPort f).serial = s.serial ∧
    (s.modPort f).born = s.born ∧ (s.modPort f).poisoned = s.poisoned ∧ (s.modPort f).pairs = s.pairs ∧
    (s.modPort f).saved = s.saved ∧ (s.modPort f).lastShaft = s.lastShaft ∧ (s.modPort f).lastStope = s.lastStope ∧
    (s.modPort f).preempts = s.preempts ∧ (s.modPort f).skips = s.skips ∧ (s.modPort f).hfTlb = s.hfTlb ∧
    (s.modPort f).fid = s.fid ∧ (s.modPort f).inval = s.inval ∧ (s.modPort f).locks = s.locks ∧
    (s.modPort f).ages = s.ages ∧ (s.modPort f).corrections = s.corrections ∧ (s.modPort f).tests = s.tests ∧
    (s.modPort f).window = s.window ∧ (s.modPort f).hbms = s.hbms ∧ (s.modPort f).hbmUsed = s.hbmUsed ∧
    (s.modPort f).spareRows = s.spareRows ∧ (s.modPort f).repairs = s.repairs ∧ (s.modPort f).retired = s.retired ∧
    (s.modPort f).waitGraph = s.waitGraph ∧ (s.modPort f).sums = s.sums ∧ (s.modPort f).turns = s.turns ∧
    (s.modPort f).waits = s.waits ∧ (s.modPort f).activity = s.activity ∧ (s.modPort f).snapshot = s.snapshot ∧
    (s.modPort f).pack = s.pack ∧ (s.modPort f).packNext = s.packNext ∧ (s.modPort f).levelNext = s.levelNext ∧
    (s.modPort f).inject = s.inject ∧ (s.modPort f).adits = s.adits ∧ (s.modPort f).arrived = s.arrived ∧
    (s.modPort f).cpl = s.cpl ∧ (s.modPort f).spareLanes = s.spareLanes ∧ (s.modPort f).heldFrame = s.heldFrame ∧
    (s.modPort f).xfer = s.xfer ∧ (s.modPort f).buckets = s.buckets ∧ (s.modPort f).xfers = s.xfers ∧
    (s.modPort f).riffles = s.riffles ∧ (s.modPort f).bcycle = s.bcycle ∧ (s.modPort f).bgWin = s.bgWin ∧
    (s.modPort f).phases = s.phases ∧ (s.modPort f).smelts = s.smelts ∧ (s.modPort f).whistle = s.whistle ∧
    (s.modPort f).power = s.power ∧ (s.modPort f).lamp = s.lamp ∧ (s.modPort f).foreman = s.foreman :=
  ⟨rfl, rfl, rfl, rfl, rfl, rfl, rfl, rfl, rfl, rfl, rfl, rfl, rfl, rfl, rfl, rfl, rfl, rfl, rfl, rfl, rfl, rfl,
   rfl, rfl, rfl, rfl, rfl, rfl, rfl, rfl, rfl, rfl, rfl, rfl, rfl, rfl, rfl, rfl, rfl, rfl, rfl, rfl, rfl, rfl,
   rfl, rfl, rfl, rfl, rfl, rfl, rfl, rfl, rfl, rfl, rfl, rfl, rfl, rfl, rfl, rfl, rfl, rfl, rfl, rfl, rfl, rfl,
   rfl, rfl, rfl, rfl, rfl, rfl⟩

@[simp] theorem State.freeVal_frame (s : State) :
    s.freeVal.2.pending = s.pending ∧ s.freeVal.2.regs = s.regs ∧ s.freeVal.2.mem = s.mem ∧
    s.freeVal.2.marks = s.marks ∧ s.freeVal.2.cycle = s.cycle ∧ s.freeVal.2.ps = s.ps ∧ s.freeVal.2.sub = s.sub ∧
    s.freeVal.2.wrote = s.wrote ∧ s.freeVal.2.raised = s.raised ∧ s.freeVal.2.idleFrom = s.idleFrom ∧
    s.freeVal.2.findings = s.findings ∧ s.freeVal.2.fresh = s.fresh ∧ s.freeVal.2.outbox = s.outbox ∧
    s.freeVal.2.crews = s.crews ∧ s.freeVal.2.drills = s.drills ∧ s.freeVal.2.stopes = s.stopes ∧
    s.freeVal.2.shafts = s.shafts ∧ s.freeVal.2.dispatches = s.dispatches ∧ s.freeVal.2.requeued = s.requeued ∧
    s.freeVal.2.steps = s.steps ∧ s.freeVal.2.seqNo = s.seqNo ∧ s.freeVal.2.tickets = s.tickets ∧
    s.freeVal.2.serial = s.serial ∧ s.freeVal.2.born = s.born ∧ s.freeVal.2.poisoned = s.poisoned ∧
    s.freeVal.2.pairs = s.pairs ∧ s.freeVal.2.saved = s.saved ∧ s.freeVal.2.lastShaft = s.lastShaft ∧
    s.freeVal.2.lastStope = s.lastStope ∧ s.freeVal.2.preempts = s.preempts ∧ s.freeVal.2.skips = s.skips ∧
    s.freeVal.2.hfTlb = s.hfTlb ∧ s.freeVal.2.fid = s.fid ∧ s.freeVal.2.inval = s.inval ∧
    s.freeVal.2.locks = s.locks ∧ s.freeVal.2.ages = s.ages ∧ s.freeVal.2.corrections = s.corrections ∧
    s.freeVal.2.tests = s.tests ∧ s.freeVal.2.window = s.window ∧ s.freeVal.2.hbms = s.hbms ∧
    s.freeVal.2.hbmUsed = s.hbmUsed ∧ s.freeVal.2.spareRows = s.spareRows ∧ s.freeVal.2.repairs = s.repairs ∧
    s.freeVal.2.retired = s.retired ∧ s.freeVal.2.waitGraph = s.waitGraph ∧ s.freeVal.2.sums = s.sums ∧
    s.freeVal.2.turns = s.turns ∧ s.freeVal.2.waits = s.waits ∧ s.freeVal.2.activity = s.activity ∧
    s.freeVal.2.snapshot = s.snapshot ∧ s.freeVal.2.pack = s.pack ∧ s.freeVal.2.packNext = s.packNext ∧
    s.freeVal.2.levelNext = s.levelNext ∧ s.freeVal.2.inject = s.inject ∧ s.freeVal.2.adits = s.adits ∧
    s.freeVal.2.arrived = s.arrived ∧ s.freeVal.2.cpl = s.cpl ∧ s.freeVal.2.spareLanes = s.spareLanes ∧
    s.freeVal.2.heldFrame = s.heldFrame ∧ s.freeVal.2.xfer = s.xfer ∧ s.freeVal.2.buckets = s.buckets ∧
    s.freeVal.2.xfers = s.xfers ∧ s.freeVal.2.riffles = s.riffles ∧ s.freeVal.2.bcycle = s.bcycle ∧
    s.freeVal.2.bgWin = s.bgWin ∧ s.freeVal.2.phases = s.phases ∧ s.freeVal.2.smelts = s.smelts ∧
    s.freeVal.2.whistle = s.whistle ∧ s.freeVal.2.power = s.power ∧ s.freeVal.2.lamp = s.lamp ∧
    s.freeVal.2.foreman = s.foreman ∧ s.freeVal.2.port = s.port :=
  ⟨rfl, rfl, rfl, rfl, rfl, rfl, rfl, rfl, rfl, rfl, rfl, rfl, rfl, rfl, rfl, rfl, rfl, rfl, rfl, rfl, rfl, rfl,
   rfl, rfl, rfl, rfl, rfl, rfl, rfl, rfl, rfl, rfl, rfl, rfl, rfl, rfl, rfl, rfl, rfl, rfl, rfl, rfl, rfl, rfl,
   rfl, rfl, rfl, rfl, rfl, rfl, rfl, rfl, rfl, rfl, rfl, rfl, rfl, rfl, rfl, rfl, rfl, rfl, rfl, rfl, rfl, rfl,
   rfl, rfl, rfl, rfl, rfl, rfl⟩

@[simp] theorem State.newId_frame (s : State) :
    s.newId.2.pending = s.pending ∧ s.newId.2.regs = s.regs ∧ s.newId.2.mem = s.mem ∧ s.newId.2.marks = s.marks ∧
    s.newId.2.cycle = s.cycle ∧ s.newId.2.ps = s.ps ∧ s.newId.2.sub = s.sub ∧ s.newId.2.wrote = s.wrote ∧
    s.newId.2.raised = s.raised ∧ s.newId.2.idleFrom = s.idleFrom ∧ s.newId.2.findings = s.findings ∧
    s.newId.2.free = s.free ∧ s.newId.2.outbox = s.outbox ∧ s.newId.2.crews = s.crews ∧ s.newId.2.drills = s.drills ∧
    s.newId.2.stopes = s.stopes ∧ s.newId.2.shafts = s.shafts ∧ s.newId.2.dispatches = s.dispatches ∧
    s.newId.2.requeued = s.requeued ∧ s.newId.2.steps = s.steps ∧ s.newId.2.seqNo = s.seqNo ∧
    s.newId.2.tickets = s.tickets ∧ s.newId.2.serial = s.serial ∧ s.newId.2.born = s.born ∧
    s.newId.2.poisoned = s.poisoned ∧ s.newId.2.pairs = s.pairs ∧ s.newId.2.saved = s.saved ∧
    s.newId.2.lastShaft = s.lastShaft ∧ s.newId.2.lastStope = s.lastStope ∧ s.newId.2.preempts = s.preempts ∧
    s.newId.2.skips = s.skips ∧ s.newId.2.hfTlb = s.hfTlb ∧ s.newId.2.fid = s.fid ∧ s.newId.2.inval = s.inval ∧
    s.newId.2.locks = s.locks ∧ s.newId.2.ages = s.ages ∧ s.newId.2.corrections = s.corrections ∧
    s.newId.2.tests = s.tests ∧ s.newId.2.window = s.window ∧ s.newId.2.hbms = s.hbms ∧
    s.newId.2.hbmUsed = s.hbmUsed ∧ s.newId.2.spareRows = s.spareRows ∧ s.newId.2.repairs = s.repairs ∧
    s.newId.2.retired = s.retired ∧ s.newId.2.waitGraph = s.waitGraph ∧ s.newId.2.sums = s.sums ∧
    s.newId.2.turns = s.turns ∧ s.newId.2.waits = s.waits ∧ s.newId.2.activity = s.activity ∧
    s.newId.2.snapshot = s.snapshot ∧ s.newId.2.pack = s.pack ∧ s.newId.2.packNext = s.packNext ∧
    s.newId.2.levelNext = s.levelNext ∧ s.newId.2.inject = s.inject ∧ s.newId.2.adits = s.adits ∧
    s.newId.2.arrived = s.arrived ∧ s.newId.2.cpl = s.cpl ∧ s.newId.2.spareLanes = s.spareLanes ∧
    s.newId.2.heldFrame = s.heldFrame ∧ s.newId.2.xfer = s.xfer ∧ s.newId.2.buckets = s.buckets ∧
    s.newId.2.xfers = s.xfers ∧ s.newId.2.riffles = s.riffles ∧ s.newId.2.bcycle = s.bcycle ∧
    s.newId.2.bgWin = s.bgWin ∧ s.newId.2.phases = s.phases ∧ s.newId.2.smelts = s.smelts ∧
    s.newId.2.whistle = s.whistle ∧ s.newId.2.power = s.power ∧ s.newId.2.lamp = s.lamp ∧
    s.newId.2.foreman = s.foreman ∧ s.newId.2.port = s.port :=
  ⟨rfl, rfl, rfl, rfl, rfl, rfl, rfl, rfl, rfl, rfl, rfl, rfl, rfl, rfl, rfl, rfl, rfl, rfl, rfl, rfl, rfl, rfl,
   rfl, rfl, rfl, rfl, rfl, rfl, rfl, rfl, rfl, rfl, rfl, rfl, rfl, rfl, rfl, rfl, rfl, rfl, rfl, rfl, rfl, rfl,
   rfl, rfl, rfl, rfl, rfl, rfl, rfl, rfl, rfl, rfl, rfl, rfl, rfl, rfl, rfl, rfl, rfl, rfl, rfl, rfl, rfl, rfl,
   rfl, rfl, rfl, rfl, rfl, rfl⟩

/-! ## What each update stores -/

@[simp] theorem State.setCrew_crew (s : State) (c : CrewRef) (x : Crew) : (s.setCrew c x).crew c = x :=
  Store.get_set_self _ _ _ _

@[simp] theorem State.setSkip_skip (s : State) (k : Nat) (x : Skip) : (s.setSkip k x).skip k = x :=
  Store.get_set_self _ _ _ _

@[simp] theorem State.emit_outbox (s : State) (o : Output) : (s.emit o).outbox = s.outbox ++ [o] := rfl

@[simp] theorem State.setReg_reg (s : State) (off v : Nat) : (s.setReg off v).reg off = v % 2 ^ 32 := by
  unfold State.setReg State.reg
  simp only [Store.find_put]
  by_cases h : BitVec.ofNat 32 v = regReset off <;> simp [h] <;> rw [← h] <;> simp

theorem State.setReg_reg_ne (s : State) {off off' : Nat} (v : Nat) (h : off' ≠ off) :
    (s.setReg off v).reg off' = s.reg off' := by
  unfold State.setReg State.reg
  simp only [Store.find_put, h, if_false]

theorem State.reg_lt (s : State) (off : Nat) : s.reg off < 2 ^ 32 := by
  unfold State.reg; split <;> exact BitVec.isLt _

end Sys2Proof.Machine
end

