-- ==== Sys2Proof/Tests/Slice0.lean ====
section
/-!
SUPPORT. Tests: ill-formed commands that WellFormed refuses, slot words written out from the tables of 07, and for every
statement concrete states and operands that meet its hypotheses, with what the command then does.
-/
set_option Elab.async false

namespace Sys2Proof.Tests
open Sys2Proof Sys2Proof.Machine

/-- Does a command answer a next state with a property. -/
def ok (o : Host.Outcome State Fault Refusal) (f : State → Bool) : Bool :=
  match o with
  | .next t => f t
  | _ => false

/-- Crew 2 of stope 1. -/
def cr12 : CrewRef := ⟨1, 2⟩

/-- A tile instance of step 7 of sequence 0 that runs. -/
def inst0 : Instance :=
  { tile := 1, step := ⟨0, 7⟩, args := 0, coord := 0, entry := 0, kface := 0, klen := 64, seed := 0, keyStep := 0
    origin := .dispatch 1 0, ballast := false, prio := 0, shaft := 0, pos := 0, level := 0, ticket := 0, born := 0
    tickets := [], oldTickets := [], shadow := false, pair := 0, started := 0, order := 1, bad := none, ended := false
    result := 0, faultEnd := false, noImage := false, canaryFail := none, refusals := [], storeRefusals := []
    restart := Restart.empty, done := Restart.empty, nSignal := 0, nSkip := 0, nPost := 0, mergesOut := 0, mergeIssued := false }

/-- Scalar registers s[1] = 12, s[2] = 5 and s[3] = all ones. -/
def regs0 : CrewRegs := ⟨[(1, 12), (2, 5), (3, 0xFFFFFFFFFFFFFFFF)], [], []⟩

/-- A crew that runs its instance with these registers. -/
def crew0 : Crew := { Crew.idle with phase := .running, inst := some inst0, regs := regs0, snap := regs0 }

/-- The module with every domain released and images running. -/
def up6 : State :=
  { State.reset with lamp := { Lamp.idle with released := 6, rstOut := false, rails := true, input := true, booted := true } }

/-- With crew 2 of stope 1 running. -/
def run0 : State := up6.setCrew cr12 crew0

/-- A state with some registers set, offset and value. -/
def withRegs (s : State) (l : List (Nat × Nat)) : State := l.foldl (fun s e => s.setReg e.1 e.2) s

/-- A scalar or load or store slot: opcode, three fields of 5 bits and 19 bits. -/
def slot40 (op d a b low : Nat) : Slot40 := BitVec.ofNat 40 (op * 2 ^ 34 + d * 2 ^ 29 + a * 2 ^ 24 + b * 2 ^ 19 + low)

/-! ## Scalar slot -/

/-- The row of a table of commands with an opcode is met by a crew that runs. -/
def scalarOk (row : Nat × (CrewRef → Slot40 → Instr) × (Slot40 → Slot40) × (Dword → Dword → Slot40 → Dword)) (w : Slot40) : Bool :=
  decide (row.2.2.1 w = 0) && ok (exec (row.2.1 cr12 w) run0) fun t =>
    t == run0.setCrew cr12 (t.crew cr12) && Store.get 0 (t.crew cr12).regs.s 4 = row.2.2.2 12 5 w
theorem wit_ScalarOperationsWriteResult : crew0.active = true ∧ RegRef.s 4 ∉ crew0.written ∧
    ((scalarRows.filter fun r => r.1 ≤ 17).all fun r => scalarOk r (slot40 r.1 4 1 2 0)) = true ∧
    ((scalarRows.filter fun r => 0x18 ≤ r.1).all fun r => scalarOk r (slot40 r.1 4 1 0 5)) = true ∧
    scalarOk (0x17, .movi, fun w => w &&& 0x1F000000, fun _ _ w => (w.extractLsb' 0 24).signExtend 64) (slot40 0x17 4 0 31 5) = true := by
  decide +kernel
theorem wit_BranchesGoToTarget : (branchRows.all fun r => let w := slot40 r.1 (if r.1 = 0x26 then 0 else 1) 0 31 0x7FFFF
    ok (exec (r.2.1 cr12 w) { run0 with crews := [(crewKey cr12, { crew0 with curFoff := 64 })] }) fun t =>
      r.1 = 0x20 || r.1 = 0x22 || r.1 = 0x24 || (t.crew cr12).pc = 32) = true := by decide +kernel
theorem wit_LoopEntryOpensLevel :
    ok (exec (.loop cr12 (BitVec.ofNat 40 (0x28 * 2 ^ 34 + 2 ^ 33 + 3 * 2 ^ 16 + 9))) run0) (fun t =>
      (t.crew cr12).loops = [⟨32, 128, 9⟩] && (t.crew cr12).pc = 32) = true ∧
    ok (exec (.loop cr12 (BitVec.ofNat 40 (0x28 * 2 ^ 34 + 7 * 2 ^ 28 + 3 * 2 ^ 16))) run0) (fun t =>
      (t.crew cr12).loops = [] && (t.crew cr12).pc = 160 && t.reg (Reg.crwLoopZeroCnt 1) = 1) = true ∧
    ([2 ^ 33 + 2 ^ 28, 5].all fun b => ok (exec (.loop cr12 (BitVec.ofNat 40 (0x28 * 2 ^ 34 + b))) run0) fun t =>
      t.reg (Reg.crwSkipCnt 1) = 1 && (t.crew cr12).pc = (run0.crew cr12).pc) = true := by decide +kernel

/-! ## Vector slot -/

/-- A vector slot: opcode, mode, VD, VA, VB, VC, Q and the 25 bits below. -/
def v48 (op mode vd va vb vc q low : Nat) : Slot48 :=
  BitVec.ofNat 48 (op * 2 ^ 42 + mode * 2 ^ 40 + vd * 2 ^ 37 + va * 2 ^ 34 + vb * 2 ^ 31 + vc * 2 ^ 28 + q * 2 ^ 25 + low)

/-- The mode a row is tried in: 3 (integers) where its opcode asks for it. -/
def modeOf (op : Nat) : Nat := if 0x10 ≤ op && op ≤ 0x19 || 0x21 = op then 3 else 0

/-- A vector state: v[1] starts with 3.0 and 2.0, v[2] with 1.0. -/
def vrun : State :=
  let r : CrewRegs := { regs0 with v := [(1, 0x4000000040400000), (2, 0x3F800000)] }
  up6.setCrew cr12 { crew0 with regs := r, snap := r }

theorem wit_VectorElementwise :
    (vectorRows.all fun r =>
      let w := v48 r.1 (modeOf r.1) 4 1 2 3 0 0
      decide ((VecSlot.ofNat w.toNat).op = r.1) && decide ((VecSlot.ofNat w.toNat).check (vrun.crew cr12) w.toNat false = none)) = true := by
  decide +kernel
theorem wit_VectorElementwise_vadd : ok (exec (.vadd cr12 (v48 1 0 4 1 2 3 0 0)) vrun) (fun t =>
    (t.crew cr12).elem 0 4 0 = 0x40800000 && (t.crew cr12).elem 0 4 1 = 0x40000000 && t.reg (Reg.slcOpCnt 1) = 1) = true := by
  decide +kernel
theorem wit_ComparesAndPredicateOperations :
    ok (exec (.vcmp cr12 (v48 9 0 0 1 2 3 0 5)) vrun) (fun t => (t.crew cr12).predBit 3 0 = fcmp 5 ((modeFmt 0).decode 0x40400000) ((modeFmt 0).decode 0x3F800000)) = true ∧
    (VecSlot.ofNat (v48 0x1F 0 4 1 0 0 0 0).toNat).check (vrun.crew cr12) (v48 0x1F 0 4 1 0 0 0 0).toNat false = none ∧
    (VecSlot.ofNat (v48 0x1C 0 0 1 2 0 0 0).toNat).check (vrun.crew cr12) (v48 0x1C 0 0 1 2 0 0 0).toNat false = none := by
  decide +kernel
theorem wit_ConversionsAndDropout :
    (VecSlot.ofNat (v48 0xB 0 4 1 0 0 0 0).toNat).check (vrun.crew cr12) (v48 0xB 0 4 1 0 0 0 0).toNat false = none ∧
    (VecSlot.ofNat (v48 0x24 0 4 1 0 0 0 (3 * 2 ^ 12)).toNat).check (vrun.crew cr12) (v48 0x24 0 4 1 0 0 0 (3 * 2 ^ 12)).toNat false = none := by
  decide +kernel
theorem wit_ReductionsWriteTheirTarget :
    ([0, 1, 2, 3, 4, 5, 6, 7, 8].all fun k =>
      let w := v48 0x28 0 4 1 2 0 0 ((if k ≤ 6 then 0 else 1) * 2 ^ 17 + 5 * 2 ^ 7 + k)
      let f := VecSlot.ofNat w.toNat
      decide (f.check (vrun.crew cr12) w.toNat (redLimit f (vrun.crew cr12)) = none)) = true ∧
    ok (exec (.vred cr12 ⟨(v48 0x28 0 0 1 0 0 0 (1 * 2 ^ 7)), false⟩) vrun) (fun t => (t.crew cr12).merge.length = 1 && t.reg (Reg.slcRedCnt 1) = 1) = true ∧
    ok (exec (.vred cr12 ⟨(v48 0x28 0 0 1 0 0 0 (5 * 2 ^ 7 + 3)), true⟩) vrun) (fun t =>
      t.reg (Reg.slcDupFailCnt 1) = 1 && (t.crew cr12).inst.any fun i => i.bad = some 2) = true := by
  decide +kernel
/-- Crew 2 of stope 1 with a duplicate of the bundle at offset 0 pending since cycle 10. -/
def dupRun (cycle : Nat) (issued : Bool) : State :=
  { up6.setCrew cr12 { crew0 with dups := [⟨1, 0, 10, 512, issued⟩] } with cycle }
theorem wit_DuplicatesIssueAndComplete :
    ok (exec (.duplicateIssue 1 2) (dupRun 11 false)) (fun t =>
      (t.crew cr12).dups = [⟨1, 0, 10, 512, true⟩] && t.reg (Reg.slcDupStealCnt 1) = 0) = true ∧
    (dupRun 74 false).readyCrews 1 ≠ [] ∧ ok (exec (.duplicateIssue 1 2) (dupRun 74 false)) (fun t =>
      t.issuer 1 = none && t.reg (Reg.slcDupStealCnt 1) = 1) = true ∧
    ok (exec (.duplicateComplete cr12 true) (dupRun 20 true)) (fun t =>
      (t.crew cr12).dups = [] && t.reg (Reg.slcDupFailCnt 1) = 1 && (t.crew cr12).inst.any fun i => i.bad = some 2) = true := by
  decide +kernel


/-! ## Load, store and sync slots -/

/-- Crew 2 of stope 1 with registers and the bytes 0x11, 0x92 at offsets 64 and 65 of its face. -/
def face0 : State := { run0 with mem := [(faceBase 1 + 64, 0x11), (faceBase 1 + 65, 0x92)] }

/-- A full lode image of value zero lies at an offset of the face. -/
def lode0 : State := { face0 with mem := memWrite [] (faceBase 1 + 96) 96 (LodeAcc.zero.image 2 0 0) (2 ^ 96 - 1) }

theorem wit_LoadsWriteTheirRegister :
    ok (exec (.lds cr12 (slot40 1 4 1 0 (2 ^ 18 + 2 ^ 16 + 52))) face0) (fun t => (t.crew cr12).liveS 4 = 0xFFFFFFFFFFFF9211) = true ∧
    (12 + 52) % 2 ^ 1 = 0 ∧ 64 + 2 ≤ postRow ∧ face0.marked (faceBase 1 + 64) 2 = false ∧
    ok (exec (.ldv cr12 (slot40 2 4 1 0 52)) face0) (fun t => (t.crew cr12).elem 0 4 0 = 0x9211) = true ∧
    ok (exec (.ldp cr12 (slot40 4 4 1 0 52)) face0) (fun t => (t.crew cr12).predBit 4 4 && !(t.crew cr12).predBit 4 1) = true ∧
    ok (exec (.ldp cr12 (slot40 4 0 1 0 52)) face0) (fun t => t.crew cr12 == face0.crew cr12) = true := by decide +kernel
theorem wit_LoadsWriteTheirRegister_ldlc :
    let s := lode0.setCrew cr12 { crew0 with regs := { regs0 with s := [(1, 96)] }, snap := { regs0 with s := [(1, 96)] } }
    let w := slot40 6 4 1 0 0
    loadBadField 6 w.toNat = false ∧ loadBadNcb 6 w.toNat = false ∧ loadBadReg 6 w.toNat (s.crew cr12) = false ∧
    fullImageKind (faceBytes s cr12 96 96) = 2 ∧ ok (exec (.ldlc cr12 w) s) (fun t => (t.crew cr12).liveS 4 = 0) = true := by decide +kernel
theorem wit_StoresWriteFace :
    ok (exec (.sts cr12 (slot40 1 3 1 0 (2 ^ 16 + 52))) face0) (fun t => t.mem == [(faceBase 1 + 64, 0xFF), (faceBase 1 + 65, 0xFF)]) = true ∧
    ok (exec (.stp cr12 (slot40 3 0 1 0 52)) face0) (fun t => t.byte (faceBase 1 + 127) = 0xFF && t.byte (faceBase 1 + 128) = 0) = true := by
  decide +kernel
theorem wit_AtomicsActAtBank :
    ok (exec (.ldxch cr12 (slot40 5 4 1 8 (2 * 2 ^ 16 + 52))) face0) (fun t =>
      (t.crew cr12).liveS 4 = 0x9211 && t.faceRead 1 64 4 = 5) = true ∧
    ok (exec (.stadd cr12 (slot40 4 2 1 0 (2 ^ 17 + 52))) face0) (fun t => t.faceRead 1 64 4 = 0x9216) = true ∧
    ok (exec (.stladd cr12 (slot40 5 0 1 0 84)) lode0) (fun t => (LodeAcc.ofImage 2 (t.faceRead 1 96 96)).1.terms = 1) = true ∧
    fullImageKind (faceBytes lode0 cr12 96 96) = 2 := by decide +kernel
theorem wit_SignalsChangeTally :
    ok (exec (.tadd cr12 (BitVec.ofNat 32 (1 * 2 ^ 26 + 9 * 2 ^ 10 + 2 * 2 ^ 5))) run0) (fun t => t.tally 9 = 5) = true ∧
    ok (exec (.tset cr12 (BitVec.ofNat 32 (2 * 2 ^ 26 + 65535 * 2 ^ 10 + 3 * 2 ^ 5))) run0) (fun t => t.tally 65535 = 2 ^ 32 - 1) = true ∧
    ok (exec (.taddx cr12 (BitVec.ofNat 32 (8 * 2 ^ 26 + 1 * 2 ^ 21 + 2 * 2 ^ 16))) run0) (fun t => t.tally 12 = 5) = true ∧
    ok (exec (.tsetx cr12 (BitVec.ofNat 32 (9 * 2 ^ 26 + 1 * 2 ^ 21 + 3 * 2 ^ 16))) run0) (fun t => t.tally 12 = 2 ^ 32 - 1) = true ∧
    inst0.restart.signals = [] ∧ inst0.pair = 0 ∧ inst0.shadow = false := by decide +kernel
/-- Crew 2 of stope 1 waits on tally 9. -/
def waiting (w : CrewWait) : State := up6.setCrew cr12 { crew0 with phase := .waiting, wait := some w }
/-- A command NOP that waits for tally 9 to reach 3. -/
def nopWait : Command := ⟨1, 0, 0x0000000300090101, false, 0, none, false, false⟩
theorem wit_WaitsBeginAndEnd :
    ok (exec (.tread cr12 (BitVec.ofNat 32 (4 * 2 ^ 26 + 9 * 2 ^ 10 + 4))) (withRegs run0 [(Reg.tlyCount 9, 77)])) (fun t => (t.crew cr12).liveS 4 = 77) = true ∧
    ok (exec (.twait cr12 (BitVec.ofNat 32 (3 * 2 ^ 26 + 9 * 2 ^ 10 + 2 * 2 ^ 5 + 4))) run0) (fun t =>
      decide ((t.crew cr12).phase = .waiting) && (t.crew cr12).wait.any fun x => x.tally = 9 && x.thresh = 5 && decide (x.sat = none)) = true ∧
    ok (exec (.endOp cr12 (BitVec.ofNat 32 (0x10 * 2 ^ 26))) run0) (fun t => (t.crew cr12).inst.any (·.ended)) = true ∧
    ok (exec (.twaitSatisfied (.crew cr12)) (waiting ⟨9, 5, 4, 0, false, 0, 0, 0, none, 0, some 6, none⟩)) (fun t =>
      decide ((t.crew cr12).phase = .running) && (t.crew cr12).liveS 4 = 6) = true ∧
    ok (exec (.twaitTimeout cr12) (waiting ⟨9, 5, 4, 10, true, 0, 0, 0, none, 0, none, some (0, false)⟩)) (fun t =>
      (t.crew cr12).liveS 4 = 2 ^ 63 && t.reg Reg.tlyTimeoutCnt = 1) = true ∧
    nopWait.waitOn = some (9, 3) ∧
    ok (exec (.twaitSatisfied (.shaft 0)) { up6 with shafts := [(0, { Shaft.idle with decoded := [{ nopWait with met := true }] })] })
      (fun t => (t.shaft 0).decoded.all (·.sat)) = true := by decide +kernel
/-- At the end of its deadline cycle a wait is satisfied by a count of that cycle, and times out without one. -/
theorem wit_WaitsBeginAndEnd_judged :
    let s := waiting ⟨9, 5, 4, 10, false, 0, 0, 0, none, 0, none, none⟩
    ((withRegs { s with cycle := 10 } [(Reg.tlyCount 9, 5)]).judgeWaits.crew cr12).wait.any (fun (w : CrewWait) => w.sat = some 5 && w.late = none) = true ∧
    ({ s with cycle := 10 }.judgeWaits.crew cr12).wait.any (fun (w : CrewWait) => w.sat = none && w.late.isSome) = true ∧
    ({ s with cycle := 9 }.judgeWaits.crew cr12).wait.any (fun (w : CrewWait) => w.sat = none && w.late = none) = true ∧
    ((withRegs { up6 with shafts := [(0, { Shaft.idle with decoded := [nopWait] })] } [(Reg.tlyCount 9, 3)]).judgeWaits.shaft 0).decoded.all
      (fun (c : Command) => c.met && !c.sat) = true := by decide +kernel

/-! ## Matrix slot and drill -/

/-- A descriptor of an 1 x 32 binary32 tensor at a face address. -/
def descBytes (base d0 d1 : Nat) : Nat :=
  packFields [(8, base), (8, 0), (8, 0), (4, 0), (1, 0), (1, 2), (1, 0), (1, 0), (4, d0), (4, d1), (4, 1), (4, 1), (4, 2), (4, 0), (4, 0), (4, 0)]
/-- The crew of a tile: descriptors of A, B and the output in the face at 0x1000, no translation. -/
def tile0 : State :=
  let m := memWrite [] (faceBase 1 + 0x1000) 192 (descBytes 0 32 1 + 2 ^ 512 * descBytes 128 32 1 + 2 ^ 1024 * descBytes 256 1 1) (2 ^ 192 - 1)
  let r : CrewRegs := { regs0 with s := [(4, 0x8100401000), (5, 0x8100401040), (6, 0x8100401080)] }
  (withRegs { up6 with mem := m } [(Reg.skpCtrl, 0)]).setCrew cr12 { crew0 with regs := r, snap := r }
/-- A tile slot: opcode, LH 3, SA 4, shape 0, binary32, NCB 0, LCW of kind 2. -/
def matSlot (op : Nat) : Slot48 := BitVec.ofNat 48 (op * 2 ^ 42 + 3 * 2 ^ 37 + 4 * 2 ^ 32 + 8 * 2)
/-- The context that a start makes. -/
def ctx0 : TileCtx := newCtx cr12 inst0 (MatSlot.ofNat (matSlot 0x10).toNat) crew0 (TensorDesc.ofNat (descBytes 0 32 1))
  (TensorDesc.ofNat (descBytes 128 32 1)) (TensorDesc.ofNat (descBytes 256 1 1)) 5
/-- The drill of stope 1 holds one context, and the handle of the crew is in a state. -/
def drill0 (x : TileCtx) (h : Handle) : State :=
  (tile0.setDrill 1 { Drill.idle with ctxs := [x] }).modCrew cr12 fun c => { c.setHandle 3 h with inst := some inst0 }
theorem wit_TilesStart : (tileStartRows.filter fun r => r.1 < 0x14).all (fun r =>
    decide ((MatSlot.ofNat (matSlot r.1).toNat).op = r.1) && ok (exec (r.2 cr12 (matSlot r.1)) tile0) fun t =>
      (t.drill 1).ctxs.length = 1 && (t.drill 1).ctxs.all (fun x => x.kind = 2 && x.start = 0 && x.out = r.1 % 4) &&
      decide ((t.crew cr12).handle 3 ≠ .invalid)) = true := by decide +kernel
theorem wit_TilesStart_hyps :
    let m := MatSlot.ofNat (matSlot 0x10).toNat
    let x := tile0.tileDescs 1 (tile0.crew cr12) 4
    (matSlot 0x10).getLsbD 0 = false ∧ (Ncb.ofNat m.ncb).ok = true ∧ (Lcw.ofNat m.lcw).ok = true ∧ m.shape < 5 ∧ m.sa ≤ 28 ∧
    x.2 = some (ctx0.a, ctx0.b, ctx0.o, false) ∧ tileOk m ctx0.a ctx0.b ctx0.o 0 0 = true ∧
    (x.1.tileAnchor 1 (Lcw.ofNat m.lcw) ctx0.a ctx0.b).2 = (2, 0) ∧ (x.1.drill 1).room (tileUnits 0 2) = true := by decide +kernel
/-- With a lode image of value zero at the output's place. -/
def image0 : State := { tile0 with mem := memWrite tile0.mem (faceBase 1 + 256) 96 (LodeAcc.zero.image 2 0 0) (2 ^ 96 - 1) }
theorem wit_TilesStart_images : (image0.startImages 1 (MatSlot.ofNat (matSlot 0x15).toNat) ctx0.o 0 0).2.isSome = true ∧
    ok (exec (.mtIl cr12 (matSlot 0x15)) image0) (fun t => (t.drill 1).ctxs.length = 1) = true := by decide +kernel
theorem wit_TilesStart_room :
    let s := drill0 { ctx0 with phase := .retained, units := 96 } .invalid
    (s.drill 1).room (tileUnits 0 2) = false ∧ ok (exec (.mtZc cr12 (matSlot 0x10)) s) (fun t => t == s) = true := by decide +kernel
theorem wit_TilesStart_retained : ok (exec (.mtHr cr12 (matSlot 0x1A)) (drill0 { ctx0 with phase := .retained, units := 1 } (.retained 5))) (fun t =>
      (t.drill 1).ctxs.all fun x => x.start = 2 && x.id = 5 && x.units = 1 && decide (x.phase = .ready)) = true := by decide +kernel
theorem wit_HandlesFreeAndWait :
    ok (exec (.mfree cr12 (BitVec.ofNat 48 (0x20 * 2 ^ 42 + 3 * 2 ^ 37))) (drill0 { ctx0 with phase := .retained } (.retained 5))) (fun t =>
      (t.drill 1).ctxs.isEmpty && decide ((t.crew cr12).handle 3 = .invalid)) = true ∧
    ok (exec (.mwait cr12 (BitVec.ofNat 48 (0x21 * 2 ^ 42 + 3 * 2 ^ 37))) run0) (fun t => t == run0) = true ∧
    ok (exec (.mtZc cr12 (matSlot 0x10)) (drill0 ctx0 (.pending 5))) (fun t => t == drill0 ctx0 (.pending 5)) = true := by decide +kernel
theorem wit_PassesStart :
    ok (exec (.drillPassStart 1) (drill0 ctx0 (.pending 5))) (fun t => (t.drill 1).ctxs.all fun x => x.on 4) = true ∧
    ok (exec (.drillPassStart 1) (drill0 { ctx0 with quad := true } (.pending 5))) (fun t => (t.drill 1).ctxs.all fun x => x.on 0) = true := by
  decide +kernel
/-- The context runs on the whole array. -/
def running0 (x : TileCtx) : State := drill0 { x with phase := .running 4 } (.pending 5)
theorem wit_ArrayCyclesCount :
    ((running0 ctx0).drill 1).ctxs.find? (·.on 4) = some { ctx0 with phase := .running 4 } ∧ ctx0.splitting = false ∧ ctx0.kpos < ctx0.slabEnd ∧
    Store.get ArrayPlace.idle ((running0 ctx0).drill 1).places 4 = ArrayPlace.idle ∧ (running0 ctx0).fetchHeld 1 { ctx0 with phase := .running 4 } = false ∧
    ok (exec (.drillArrayCycle 1 4 true) (running0 ctx0)) (fun t => t.reg (Reg.drlOpndStallCnt 1) = 1 && t.reg (Reg.drlIssueCnt 1) = 0) = true ∧
    ok (exec (.drillArrayCycle 1 4 false) (running0 { ctx0 with cells := [(0, { OutCell.empty with pend := [⟨0, 1⟩] })] })) (fun t =>
      t.reg (Reg.drlSplitCnt 1) = 1) = true ∧
    ok (exec (.drillArrayCycle 1 4 false) ((running0 ctx0).setDrill 1 { Drill.idle with ctxs := [{ ctx0 with phase := .running 4 }], places := [(4, ⟨99, [], []⟩)] }))
      (fun t => t.reg (Reg.drlFoldStallCnt 1) = 1 && (Store.get ArrayPlace.idle (t.drill 1).places 4).owed < 99) = true := by decide +kernel
/-- A locked sequence holds the row of A that the pass reads next. -/
theorem wit_ArrayCyclesCount_held :
    let s := { running0 ctx0 with locks := [⟨1, .face 1, List.range 128, 5, none, none, none, 0, 2, ⟨0, 0⟩⟩] }
    s.fetchHeld 1 { ctx0 with phase := .running 4 } = true ∧
    ok (exec (.drillArrayCycle 1 4 false) s) (fun t => t.reg (Reg.drlOpndStallCnt 1) = 1 && t.reg (Reg.drlIssueCnt 1) = 0) = true := by decide +kernel
theorem wit_PassesEnd : ok (exec (.drillPassEnd 1 4) (running0 { ctx0 with kpos := 32 })) (fun t =>
    (t.drill 1).ctxs.all fun x => decide (x.phase = .done) && x.slab = 1) = true := by decide +kernel
theorem wit_TilesWidenAndRerun :
    let x := { ctx0 with phase := .stopped, breached := true, widen := true, kind := 0, startKind := 0 }
    x.reruns = true ∧ ok (exec (.tileWidenRerun 1 5) (drill0 x (.pending 5))) (fun t => t.reg (Reg.lodWidenCnt 1) = 1 &&
      (t.drill 1).ctxs.all fun x => x.kind = 1 && x.run = 1 && decide (x.phase = .ready)) = true ∧
    ok (exec (.tileWidenRerun 1 5) (drill0 { x with phase := .waitUnits } (.pending 5))) (fun t =>
      (t.drill 1).ctxs.all fun x => x.kind = 0 && x.units = tileUnits 0 0 && decide (x.phase = .ready)) = true := by decide +kernel
theorem wit_TileChecksDecideOutcome :
    ok (exec (.tileCheckComplete 1 5 true) (drill0 { ctx0 with phase := .done, check := true } (.pending 5))) (fun t =>
      t.reg (Reg.drlChkFailCnt 1) = 1 && (t.crew cr12).inst.any (fun i => i.bad = some 1) && t.findings.length = 1) = true ∧
    ok (exec (.tileCheckComplete 1 5 false) (drill0 { ctx0 with phase := .done } (.pending 5))) (fun t =>
      t.reg (Reg.drlChkFailCnt 1) = 0 && (t.drill 1).ctxs.all fun x => x.outcome = some false) = true := by decide +kernel
theorem wit_TilesCommit :
    ok (exec (.tileCommit 1 5) (drill0 { ctx0 with phase := .done, outcome := some false, out := 2 } (.pending 5))) (fun t =>
      t.reg (Reg.drlTileCnt 1) = 1 && decide ((t.crew cr12).handle 3 = .retained 5) && t.mem == tile0.mem) = true ∧
    ok (exec (.tileCommit 1 5) (drill0 { ctx0 with phase := .done, outcome := some false, out := 1 } (.pending 5))) (fun t =>
      (t.drill 1).ctxs.isEmpty && decide ((t.crew cr12).handle 3 = .invalid) && fullImageKind (t.faceRead 1 256 96) = 2) = true := by decide +kernel

/-! ## Crews and the onsetter -/

/-- A dispatch of two entries at 0x2000 for level 0, in shaft 0. -/
def disp0 : Dispatch :=
  { id := 1, shaft := 0, cmd := 9, pos := 3, step := ⟨0, 7⟩, list := 0x2000, count := 2, klen := 64, kimg := 0x4000, kface := 0x100
    levels := 1, itally := none, prio := 0, next := 0, finished := 0, waitSince := 0, copied := [], copying := [], copyFailed := [] }
/-- Stope 1 active, the dispatch in progress, its first entry in memory. -/
def disps0 : State :=
  { withRegs up6 [(Reg.skpCtrl, 0), (Reg.dptStopeStat 1, 2 ^ 28), (Reg.crwSaveSlots, 4), (Reg.crwSaveBase0, 0x800000)] with
    dispatches := [disp0], mem := memWrite [] 0x2000 32 (packFields [(8, 11), (8, 12), (8, 13), (4, 32), (4, 0)]) (2 ^ 32 - 1), cycle := 10 ^ 9 }
theorem wit_SkippedSlotsPerformNothing :
    ok (exec (.add cr12 (slot40 1 4 1 2 1)) run0) (fun t => t.reg (Reg.crwSkipCnt 1) = 1 && (t.crew cr12).regs == regs0) = true ∧
    (VecSlot.ofNat (v48 1 3 4 1 2 3 0 0).toNat).check (run0.crew cr12) (v48 1 3 4 1 2 3 0 0).toNat false = some 2 ∧
    ok (exec (.vadd cr12 (v48 1 3 4 1 2 3 0 0)) run0) (fun t => t.reg (Reg.crwSkipCnt 1) = 1) = true := by decide +kernel
theorem wit_BundlesIssue :
    let s := run0.setCrew cr12 { crew0 with pc := 0x2FFFE0 }
    s.imageWait cr12 inst0 = false ∧ s.imageFailed cr12 inst0 = false ∧ s.pairLeads inst0 = false ∧
    s.mayFetch cr12 inst0 = true ∧ s.fetchFaults cr12 inst0 = false ∧ s.issuer 1 = some 2 ∧
    ok (exec (.bundleFetch cr12) s) (fun t => (t.crew cr12).pc = 0x300000 && t.reg (Reg.crwBundleCnt 1) = 1) = true ∧
    ok (exec (.bundleFetch cr12) (run0.setCrew cr12 { crew0 with pc := 0x300000 })) (fun t => decide ((t.crew cr12).phase = .idle)) = true := by
  decide +kernel
theorem wit_BundlesIssue_loop :
    ok (exec (.loop cr12 (BitVec.ofNat 40 (0x28 * 2 ^ 34 + 2 ^ 33 + 3 * 2 ^ 16)))
      (run0.setCrew cr12 { crew0 with curLoops := [⟨0, 128, 5⟩] })) (fun t =>
      (t.crew cr12).pc = 0 && (t.crew cr12).loops = [⟨0, 128, 4⟩]) = true := by decide +kernel
theorem wit_EntriesAreDispatched :
    disps0.pickStope 0 (fun st => (disps0.resumeOn st).isSome) = none ∧ disps0.canaryPack = none ∧ disps0.returnFor 0 = none ∧
    disps0.pickStope 0 (fun st => !(disps0.resuming st)) = some ⟨1, 0⟩ ∧ disps0.checkLevel < 2 ∧ disps0.ticketRoom = true ∧
    ok (exec (.onsetterDispatch 0) disps0) (fun t => decide ((t.crew ⟨1, 0⟩).phase = .running) && (t.crew ⟨1, 0⟩).pc = 0x120 &&
      (t.crew ⟨1, 0⟩).liveS 1 = 12 && t.dispatches.all fun d => d.next = 1) = true := by decide +kernel
theorem wit_InstancesCommit :
    let c := { crew0 with inst := some { inst0 with ended := true } }
    ok (exec (.instanceCommit cr12) (up6.setCrew cr12 { c with merge := [⟨64, LodeAcc.zero, ⟨0, 0⟩⟩] })) (fun t =>
      (t.crew cr12).merge.isEmpty && (t.skip 1).streams.length = 1 && (t.crew cr12).inst.any fun i => i.mergesOut = 1) = true ∧
    ok (exec (.instanceCommit cr12) (up6.setCrew cr12 c)) (fun t => (t.crew cr12).inst.isNone) = true := by decide +kernel
theorem wit_CrewsSwitchOut :
    let s := disps0.setCrew cr12 { crew0 with phase := .waiting, wait := some ⟨9, 5, 4, 0, false, 0, 0, 0, none, 0, none, none⟩ }
    let full := (List.range 16).foldl (fun s k => s.setCrew ⟨1, k⟩ { crew0 with phase := .waiting, wait := some ⟨9, 5, 4, 0, false, 0, 0, 0, none, 0, none, none⟩ }) s
    full.entryFor 1 = true ∧ full.idleCrewOf 1 = none ∧ full.slotRoom = true ∧ full.was Reg.crwSwitchWait < full.cycle ∧ full.was Reg.crwSaveSlots ≠ 0 ∧
    ok (exec (.switchWaitExpiry cr12) full) (fun t => decide ((t.crew cr12).phase = .draining)) = true ∧
    (let none := full.setReg Reg.crwSaveSlots 1
     let s := none.setCrew ⟨2, 0⟩ { crew0 with phase := .draining }
     s.slotRoom = false ∧ ok (exec (.switchWaitExpiry cr12) s) (fun t => t.reg (Reg.crwNoslotCnt 1) = 1) = true) := by decide +kernel
theorem wit_CrewsSwitchOut_preempt :
    let full := (List.range 16).foldl (fun s k => s.setCrew ⟨1, k⟩ crew0) { disps0 with dispatches := [{ disp0 with shaft := 1 }] }
    let s := withRegs full [(Reg.sftShaftCtrl 1, 0x60011)]
    (s.firstServed 0 ((s.entries 0).filter fun d => (s.preempts? d).isSome)).isSome = true ∧ (pickVictim (s.victims 1 1)).isSome = true ∧ s.reg Reg.sftPreemptWait ≤ s.cycle ∧
    ok (exec (.preemptRequest 0) s) (fun t => Store.get 0 t.preempts 0 ≠ 0) = true := by decide +kernel
theorem wit_ContextsAreSavedAndResumed :
    let c := { crew0 with phase := .draining, saveSlot := some 0, saveLen := 19264 }
    disps0.flag Reg.skpCtrl Fld.skpCtrlXlate = false ∧ disps0.slotVa 0 + 0x400000 ≤ 0x6000000000 ∧
    ((19264 + 63) / 64 * 64) + 64 + 96 * 1024 ≤ 0x400000 ∧
    (let c := { crew0 with phase := .draining }
     let s := disps0.setCrew cr12 c
     s.drained cr12 = true ∧ s.freeSlots.head? = some 0 ∧ ok (exec (.crewSave cr12) s) (fun t => t.saved.any (·.slot = 0)) = true) ∧
    ok (exec (.crewSave cr12) (disps0.setCrew cr12 c)) (fun t => t.saved.length = 1 && decide ((t.crew cr12).phase = .idle)) = true := by
  decide +kernel
theorem wit_ContextsAreSavedAndResumed_resume :
    let x : SavedCtx := ⟨1, 0, 0, inst0, 96, none, true, true, [], []⟩
    let s := { disps0 with saved := [x], mem := [(0x800048, 77)] }
    (s.resumables 1).head? = some x ∧ (s.stope 1).leaving = 0 ∧ s.idleCrewOf 1 = some ⟨1, 0⟩ ∧ s.stopeState 1 = 1 ∧
    ok (exec (.crewResume 1) s) (fun t => (t.crew ⟨1, 0⟩).pc = 96 && (t.crew ⟨1, 0⟩).liveS 1 = 77 && t.saved.isEmpty) = true := by decide +kernel
theorem wit_ContextsAreSavedAndResumed_tile :
    let s := (drill0 ctx0 (.pending 5)).modCrew cr12 fun c => { c with phase := .draining, saveSlot := some 0, saveLen := 19264 }
    s.tile 1 5 = some ctx0 ∧ (s.crew (ctx0.crewRef 1)).phase = .draining ∧ (s.crew (ctx0.crewRef 1)).saveSlot = some 0 ∧
    (s.crew (ctx0.crewRef 1)).inst = some inst0 ∧ s.flag Reg.skpCtrl Fld.skpCtrlXlate = false ∧ s.slotVa 0 + 0x400000 ≤ 0x6000000000 ∧
    (19264 + 63) / 64 * 64 + ctx0.size ≤ 0x400000 ∧
    ok (exec (.tileContextSave 1 5) s) (fun t => (t.drill 1).ctxs.isEmpty && t.reg (Reg.drlCtxSaveCnt 1) = 1) = true := by decide +kernel

/-! ## Shafts and tallies -/

/-- A command of an opcode whose bytes from 16 on are given. -/
def cmd (op pay : Nat) : Command := ⟨9, 3, op + 2 ^ 128 * pay, false, 0, none, true, true⟩
/-- Shaft 0 enabled, with a head command and a step begun that is its current one, and some registers set. -/
def shaftRun (c : Command) (l : List (Nat × Nat)) : State :=
  { withRegs up6 ([(Reg.sftShaftCtrl 0, 0x60001), (Reg.skpCtrl, 0)] ++ l) with
    shafts := [(0, { Shaft.idle with decoded := [c], step := some ⟨0, 7⟩ })]
    steps := [⟨⟨0, 7⟩, 0, 0, [0], none, 0, 0, 0, none, none, .begun, [], false, 0, 0, 0, 0, false, none⟩] }
theorem wit_ShaftControl :
    up6.up 1 = true ∧ up6.shaftOn 0 = false ∧ ok (exec (.shaftEnable 0) up6) (fun t => t.shaftOn 0) = true ∧
    ok (exec (.shaftDisable 255) up6) (fun t => !t.shaftOn 255) = true ∧
    ok (exec (.shaftDoorbell 0 66) up6) (fun t => t.reg (Reg.sftDoorbell 0) = 2) = true ∧
    ok (exec (.shaftDoorbell 0 0) up6) (fun t => t == up6) = true ∧
    (let s := withRegs up6 [(Reg.sftDoorbell 0, 5), (Reg.sftHead 0, 4)]
     ok (exec (.shaftDoorbell 0 4) s) (fun t => t.reg (Reg.sftDoorbell 0) = 5 && t.reg Reg.sftDbBadCnt = 1) = true) ∧
    (let s := withRegs up6 [(Reg.sftDoorbell 0, 5), (Reg.sftHead 0, 4), (Reg.sftCtrl, 7)]
     s.flag Reg.sftCtrl Fld.sftCtrlRefuseEvent = true ∧ ok (exec (.shaftDoorbell 0 4) s) (fun t => (t.reg Reg.lmpEventStat).testBit 3) = true) ∧
    (let s := shaftRun (cmd 1 0) [(Reg.sftShaftStat 0, 2 ^ 30), (Reg.sftDoorbell 0, 4)]
     s.halted 0 = true ∧ ok (exec (.shaftAbort 0) s) (fun t => !t.halted 0 && t.reg (Reg.sftHead 0) = 4) = true ∧
     ok (exec (.shaftResume 0) { s with shafts := [(0, { Shaft.idle with decoded := [cmd 1 5], rejudge := true })] }) (fun t =>
       !t.halted 0 && (t.shaft 0).decoded.map (·.raw) = [0]) = true) := by decide +kernel
theorem wit_CommandsStart :
    ok (exec (.nop 0) (shaftRun (cmd 1 0) [])) (fun t => (t.shaft 0).started.length = 1) = true ∧
    ok (exec (.tally 0) (shaftRun (cmd 5 (3 + 2 ^ 64 * 4)) [])) (fun t => (t.shaft 0).started.length = 1) = true ∧
    ok (exec (.phase 0) (shaftRun (cmd 6 63) [])) (fun t => (t.shaft 0).started.length = 1) = true ∧
    ok (exec (.stepEnd 0) (shaftRun (cmd 7 (7 + 2 ^ 64 * 1)) [])) (fun t => t.steps.all fun r => r.endStarted = 1) = true ∧
    ok (exec (.assayClear 0) { shaftRun (cmd 4 0x1000) [] with mem := memWrite [] 0x1000 64 (descBytes 64 8 1) (2 ^ 64 - 1) }) (fun t =>
      (t.shaft 0).started.length = 1) = true := by decide +kernel
/-- A tensor with an assay record at 0x3000 of kind 9 that has seen a store. -/
theorem wit_CommandsStart_assay :
    let d := descBytes 64 8 1 % 2 ^ 64 + 2 ^ 128 * 0x3000 + descBytes 64 8 1 / 2 ^ 192 * 2 ^ 192
    let s := { shaftRun (cmd 4 0x1000) [] with mem := memWrite (memWrite [] 0x1000 64 d (2 ^ 64 - 1)) 0x3000 17 (2 ^ 128 + 2 ^ 64 + 2 ^ 16 * 0x0F + 5) (2 ^ 17 - 1) }
    (TensorDesc.ofNat d).assay = 0x3000 ∧ s.headCommand 0 = some (cmd 4 0x1000) ∧ (s.readDesc none 0x1000).2 = some (TensorDesc.ofNat d, false) ∧
    (TensorDesc.ofNat d).ok = true ∧ ok (exec (.assayClear 0) s) (fun t => t.readLE 0x3000 17 = 0x088000) = true := by decide +kernel
theorem wit_StepsAndDispatchesStart_full :
    let r : StepRec := ⟨⟨0, 7⟩, 0, 0, [0], none, 0, 0, 0, none, none, .begun, [], false, 0, 0, 0, 0, false, none⟩
    let s := { shaftRun (cmd 2 9) [] with steps := [7, 5, 6, 8].map fun k => { r with id := ⟨0, k⟩ } }
    s.newStep 9 = true ∧ 4 ≤ s.inflight ∧ ok (exec (.stepBegin 0) s) (fun t => t == s) = true := by decide +kernel
theorem wit_StepsAndDispatchesStart :
    ok (exec (.stepBegin 0) (shaftRun (cmd 2 8) [])) (fun t => t.steps.length = 2 && t.reg Reg.sftStepNum0 = 8) = true ∧
    ok (exec (.stepBegin 0) (shaftRun (cmd 2 7) [])) (fun t => t.steps.length = 1 && t.reg Reg.sftStepNum0 = 7) = true ∧
    ok (exec (.stepBegin 0) (shaftRun (cmd 2 6) [])) (fun t => t.reg (Reg.sftShaftStat 0) = 2 ^ 30 + 7 * 2 ^ 16 + 3) = true ∧
    (let pay := packFields [(8, 0x2000), (4, 2), (4, 64), (8, 0x4000), (4, 0x100), (1, 3), (1, 1), (2, 65535)]
     ok (exec (.dispatch 0) (shaftRun (cmd 3 pay) [])) (fun t => t.dispatches.any fun d => d.count = 2 && d.itally = some 65535) = true ∧
     ok (exec (.dispatch 0) { shaftRun (cmd 3 pay) [] with shafts := [(0, { Shaft.idle with decoded := [cmd 3 pay] })] }) (fun t =>
       t.dispatches.isEmpty && t.reg (Reg.sftShaftStat 0) = 2 ^ 30 + 7 * 2 ^ 16 + 3) = true) ∧
    ok (exec (.dispatch 0) (shaftRun (cmd 0x15 0) [])) (fun t => t.reg (Reg.sftShaftStat 0) = 2 ^ 30 + 2 ^ 16 + 3) = true := by decide +kernel
theorem wit_CommandsComplete :
    let c : Command := ⟨9, 63, packFields [(1, 1), (1, 2), (6, 0), (2, 65535), (2, 0), (4, 3)], false, 0, none, true, true⟩
    let x : Started := ⟨c, .done, none, [], false, false, 0, false⟩
    let s := { shaftRun c [(Reg.sftHead 0, 63)] with shafts := [(0, { Shaft.idle with started := [x] })] }
    s.completable x = true ∧ c.op = 1 ∧ ok (exec (.commandComplete 0) s) (fun t => t.reg (Reg.sftHead 0) = 0 &&
      t.reg (Reg.sftCplCnt 0) = 1 && t.tally 65535 = 3) = true := by decide +kernel
theorem wit_TalliesTakeSignals :
    let s := withRegs up6 [(Reg.tlyHostArg, 5), (Reg.tlyCount 4, 2 ^ 32 - 1), (Reg.tlyRemoteEn0, 1)]
    ok (exec (.tlyHostAdd 4) s) (fun t => t.tally 4 = 4) = true ∧ ok (exec (.tlyHostSet 4) s) (fun t => t.tally 4 = 5) = true ∧
    ok (exec (.remoteSignalArrive ⟨1, 0, 0, 1023, false, 9⟩) s) (fun t => t.tally 1023 = 9) = true ∧
    ok (exec (.remoteSignalArrive ⟨1, 0, 0, 1024, false, 9⟩) s) (fun t => t.tally 1024 = 0 && t.reg Reg.tlyRemoteDropCnt = 1) = true ∧
    ok (exec (.remoteSignalArrive ⟨1, 0, 1, 1023, false, 9⟩) s) (fun t => t.tally 1023 = 0 && t.reg Reg.tlyStaleCnt = 1) = true := by decide +kernel
/-- Two signals to one tally in one cycle (R226): the add stands upon the set, whichever comes first; the larger set wins. -/
theorem test_signals_of_one_cycle :
    let s := withRegs up6 [(Reg.tlyHostArg, 5), (Reg.tlyCount 4, 40), (Reg.tlyRemoteEn0, 1)]
    let r := fun (set : Bool) (v : Nat) (f : State → Bool) (t : State) => ok (exec (.remoteSignalArrive ⟨4, 0, 0, 4, set, v⟩) t) f
    s.sums = [] ∧ r false 3 (r true 7 fun t => t.tally 4 = 10) s = true ∧ r true 7 (r false 3 fun t => t.tally 4 = 10) s = true ∧
    r true 7 (r true 2 fun t => t.tally 4 = 7) s = true := by decide +kernel
theorem wit_StallsAreDeclared :
    let s := { shaftRun { nopWait with age := 2500 } [] with cycle := 1 }
    s.waitingCommand 0 = some ({ nopWait with age := 2500 }, 9, 3) ∧ ok (exec .stallDeclare s) (fun t =>
      t.reg Reg.tlyStallCnt = 1 && t.waitGraph.length = 1) = true := by decide +kernel

/-! ## Memory -/

/-- A plain write of a byte run, and a plain read. -/
def wr (off len v : Nat) : BankAcc := ⟨off, len, true, v, 2 ^ len - 1, .clean⟩
def rd (off len : Nat) : BankAcc := ⟨off, len, false, 0, 0, .clean⟩
/-- A request of plain accesses, and one for a locked add of 5 to four bytes at an offset. -/
def req (port : Nat) (acc : List BankAcc) : BankReq := ⟨port, acc, none, none, 0, none, []⟩
def addReq (off : Nat) : BankReq := ⟨6, [], some (.add off 4 5), none, 0, none, []⟩
/-- A locked sequence of six cycles that began in cycle 0 at bank 1 of the face of stope 1. -/
def lock0 (op : LockOp) : LockedSeq := ⟨1, .face 1, [1], 6, some op, none, none, 0, 6, ⟨0, 0⟩⟩
/-- Within the background window. -/
def bg (s : State) : State := { s with window := true, bgWin := 100000 }
theorem wit_BanksGrantLockAndEnd :
    let a := wr 64 4 0x11223344
    let b := wr 66 4 0xAABBCCDD
    let s := { up6 with mem := [(faceBase 143 + 65, 9)] }
    (bankOf (.face 143) a.off = bankOf (.face 143) b.off ∧ up6.bankLocked (.face 143) 1 = false ∧
      BankReq.fits (.face 143) (req 6 [a]) = true ∧ BankReq.fits (.face 143) (req 10 [b]) = true) ∧
    ok (exec (.bankGrant (.face 143) [req 6 [a], req 10 [b]]) up6) (fun t =>
      t.faceRead 143 64 8 = 0xAABB11223344 && t.reg (ovtCnt (.face 143)) = 1) = true ∧
    (BankReq.fits (.face 143) (req 5 [rd 64 4]) = true ∧ ok (exec (.bankGrant (.face 143) [req 5 [rd 64 4], req 6 [a]]) s) (fun t =>
      t.outbox = [.readData 0x900] && t.faceRead 143 64 4 = 0x11223344) = true) ∧
    (BankReq.fits (.stockpile 1) (addReq 64) = true ∧ ok (exec (.bankGrant (.stockpile 1) [addReq 64]) up6) (fun t => t.locks.map (·.cycles) = [6]) = true) ∧
    (let s := { up6 with locks := [lock0 (.add 64 4 5)] }
     s.bankLocked (.face 1) 1 = true ∧ ok (exec (.bankGrant (.face 1) [req 6 [wr 64 4 7]]) s) (fun t => t.mem.isEmpty) = true) := by decide +kernel
theorem wit_BanksGrantLockAndEnd_ages :
    ok (exec (.portPromote (.face 1) 0 5) { up6 with ages := [(portKey (.face 1) 0 5, ⟨16, 0, false⟩)] }) (fun t => t.promoted (.face 1) 0 5) = true ∧
    ok (exec .backgroundWindowClose { up6 with window := true, bgWin := 5, cycle := 5 }) (fun t => !t.window) = true ∧
    ok (exec .backgroundWindowClose { up6 with window := true, bgWin := 5, cycle := 4 }) (fun t => t.window) = true := by decide +kernel
theorem wit_BanksGrantLockAndEnd_ends :
    let s := { up6 with cycle := 6, mem := [(faceBase 1 + 64, 255), (faceBase 1 + 65, 255), (faceBase 1 + 66, 255), (faceBase 1 + 67, 255), (faceBase 1 + 68, 9)] }
    ok (exec (.bankAtomicComplete 1) { s with locks := [lock0 (.add 64 4 5)] }) (fun t => t.locks.isEmpty && t.faceRead 1 64 5 = 9 * 2 ^ 32 + 4) = true ∧
    ok (exec (.bankAtomicComplete 1) { s with locks := [lock0 (.swap 64 4 5)] }) (fun t => t.faceRead 1 64 5 = 9 * 2 ^ 32 + 5 && t.outbox = [.readData 0xFFFFFFFF]) = true ∧
    ok (exec (.bankAtomicComplete 1) { s with locks := [lock0 (.add 64 4 5)], marks := [((faceBase 1 + 64) / 4, 1)] }) (fun t =>
      t.faceRead 1 64 5 = 9 * 2 ^ 32 + 0xFFFFFFFF) = true ∧
    (let s := bg { up6 with corrections := [(bankKey (.face 1) 31, [0x7C4, 0x7C8])] }
     s.windowOpen = true ∧ ok (exec (.correctionWriteback (.face 1) 31) s) (fun t => t.locks.map (·.op) = [some (.writeback 0x7C4)]) = true) ∧
    ok (exec (.bankAtomicComplete 1) { up6 with cycle := 6, locks := [lock0 (.writeback 0x7C4)], corrections := [(bankKey (.face 1) 31, [0x7C4, 0x7C8])] })
      (fun t => Store.get [] t.corrections (bankKey (.face 1) 31) = [0x7C8]) = true := by decide +kernel
/-- The test of the last region of stope 143, with 15 spare rows of its bank in use. -/
def rtest (phase : TestPhase) (pos : Nat) (l : List Nat) : State :=
  bg { up6 with tests := [⟨.face 143, 767, phase, pos, l⟩], spareRows := [(spareKey (.face 143) 767, List.range 15)] }
/-- The locked copy of a row of that region, that has lasted its cycles. -/
def rowLock (op : LockOp) : List LockedSeq := [⟨1, .face 143, [31], 0, some op, none, none, 0, 2, ⟨0, 0⟩⟩]
theorem wit_RegionTestsAdvance :
    let run := fun (l : List Nat) (s : State) (f : State → Bool) => ok (exec (.sramRegionTest (.face 143) 767 l) s) f = true
    (let s := bg (withRegs up6 [(Reg.memCtrl, 1)])
     s.windowOpen = true ∧ s.testRoom (.face 143) = true ∧ s.flag Reg.memCtrl Fld.memCtrlTestEn = true ∧
     run [] s (fun t => t.tests.map (·.phase) = [.copyIn])) ∧
    run [] (rtest .copyIn 63 []) (fun t => t.locks.map (·.op) = [some (.copyIn 767 63)]) ∧
    run [3, 4] (rtest .march 0 []) (fun t => t.tests.map (·.phase) = [.repair]) ∧ run [] (rtest .march 0 []) (fun t => t.tests.map (·.phase) = [.copyBack]) ∧
    run [] (rtest .repair 0 [3]) (fun t => (Store.get [] t.spareRows (spareKey (.face 143) 767)).length = 16 &&
      t.reg (Reg.memFaceSpare 143) = 1 && (t.stope 143).fence = 0) ∧
    (let s := withRegs (rtest .repair 0 [3, 4]) [(Reg.dptStopeStat 143, 2 ^ 28)]
     s.stopeState 143 = 1 ∧ run [] s (fun t => (t.stope 143).fence = 2)) ∧
    run [] (rtest .again 0 []) (fun t => t.tests.map (·.phase) = [.copyBack]) ∧
    run [] (rtest .copyBack 0 []) (fun t => t.locks.map (·.op) = [some (.copyBack 767 0)]) := by decide +kernel
theorem wit_RegionTestsAdvance_rows :
    let done := fun (op : LockOp) (s : State) (f : State → Bool) => ok (exec (.bankAtomicComplete 1) { s with locks := rowLock op, cycle := 2 }) f = true
    done (.copyIn 767 62) (rtest .copyIn 62 []) (fun t => t.tests.map (fun x => (x.phase, x.pos)) = [(.copyIn, 63)]) ∧
    done (.copyIn 767 63) (rtest .copyIn 63 []) (fun t => t.tests.map (·.phase) = [.march]) ∧
    done (.copyBack 767 62) (rtest .copyBack 62 []) (fun t => t.tests.map (·.pos) = [63]) ∧
    done (.copyBack 767 63) (rtest .copyBack 63 []) (fun t => t.tests.isEmpty && t.reg (Reg.memFaceTestCnt 143) = 1) := by decide +kernel
/-- Stack 7 trained, in the window, with marked rows 9 and 11, rows in its cache, and its scrub at its last unit. -/
def hbm7 (cached : List Nat) : State :=
  bg { withRegs up6 [(Reg.hbmCtrl, 7), (Reg.hbmStat 7, 1), (Reg.hbmScrubPos 7, 201326591), (Reg.whsPeriod, 40000)] with
    hbms := [(7, { HbmCtl.idle with marked := [(9, 0x12345), (11, 0)], cached, ueTop := true })] }
theorem wit_HbmControllersWork :
    ((hbm7 []).windowOpen = true ∧ 2000000 * subUnit ≤ (hbm7 []).windowLeft) ∧
    ok (exec (.patrolScrub 7 []) (hbm7 [])) (fun t => t.reg (Reg.hbmScrubPos 7) = 0 && t.reg (Reg.hbmScrubPassCnt 7) = 1) = true ∧
    ok (exec (.hbmRowSpare 7 [] true) (hbm7 [])) (fun t => t.repairs = [(7, 9)] && t.reg (Reg.hbmSpareCnt 7) = 1) = true ∧
    ok (exec (.hbmRowSpare 7 [] false) (hbm7 [])) (fun t => (t.hbm 7).cached = [9]) = true ∧
    ok (exec (.hbmRowSpare 7 [] false) (hbm7 [1, 2, 3, 4, 5, 6, 7, 8])) (fun t => t.retired = [0x10000] && t.reg Reg.hbmRetireCnt = 1) = true ∧
    ok (exec (.hbmRecalibrate 1 3) (hbm7 [])) (fun t => t.reg (Reg.hbmCalCnt 7) = 1 && (t.hbm 7).calFrame = 1) = true ∧
    ok (exec (.interleaveWrite 0xF0) up6) (fun t => t.reg Reg.hbmCtrl = 0xF0) = true ∧
    ok (exec (.interleaveWrite 1) { up6 with hbmUsed := true }) (fun t =>
      t.fld Reg.hbmCtrl Fld.hbmCtrlInterleave = up6.fld Reg.hbmCtrl Fld.hbmCtrlInterleave) = true ∧
    ok (exec (.hbmUeAddrRead 7) (hbm7 [])) (fun t => t.reg (Reg.hbmUeAddrTop 7) = 1 && t.outbox.length = 1) = true := by decide +kernel

/-! ## Skips -/

/-- The bytes of a descriptor of one row: source, destination, length, space, completion tally and amount. -/
def streamDesc (src dst len space ct cadd : Nat) : Nat :=
  packFields [(8, src), (8, dst), (4, len), (4, 1), (4, 0), (4, 0), (1, space), (1, 0), (2, ct), (4, cadd)]
/-- A posted stream of crew 2. -/
def stream0 : Stream :=
  { id := 1, use := .posted 2 1 0 1, step := ⟨0, 7⟩, at_ := 0x40, byVa := false, desc := none, phase := .queued, next := 0, tags := []
    tokens := 0, refill := 0, ticket := 0, born := 0, tickets := [], bad := none, xfer := 0, acked := false, committed := true
    shadow := false, pair := 0, residue := 0, expect := none, taken := 0 }
/-- Its descriptor: 64 bytes of the face of stope 1 from 0x100 to 0x200, adding 3 to tally 65535. -/
def desc0 : StreamDesc := StreamDesc.ofNat (streamDesc 0x100 0x200 64 3 65535 3)
/-- The one stream of a skip. -/
def skip1 (k : Nat) (x : Stream) : State := { up6 with skips := [(k, { Skip.idle with streams := [x] })] }
/-- The stream in service. -/
def streaming : Stream := { stream0 with desc := some desc0, phase := .running }
/-- Its tag. -/
def tag0 : Tag := ⟨4, 0, 64, [(faceBase 1 + 0x100, 64)], [(faceBase 1 + 0x200, 64)], 0x100, 0x200, 0⟩
theorem wit_StreamsRun_copy :
    let s := shaftRun (cmd 0x10 (0x1000 + 2 ^ 64 * 2 + 2 ^ 96 * 15)) []
    s.headCommand 0 = some (cmd 0x10 (0x1000 + 2 ^ 64 * 2 + 2 ^ 96 * 15)) ∧ s.engineShut (cmd 0x10 0) = false ∧
    ok (exec (.copy 0) s) (fun t => (t.skip 159).streams.map (·.at_) = [0x1000, 0x1040]) = true := by decide +kernel
/-- A merge of crew 2 that its skip accepts without a descriptor. -/
theorem wit_StreamsRun_merge :
    let x := { stream0 with use := .merge 2 ⟨0, 0⟩ LodeAcc.zero }
    ((skip1 1 x).skip 1).place true = true ∧
    ok (exec (.streamAccept 1) (skip1 1 x)) (fun t => (t.skip 1).streams.all fun y => decide (y.phase = .running)) = true := by decide +kernel
theorem wit_StreamsRun :
    (let s := { skip1 1 stream0 with mem := memWrite [] (faceBase 1 + 0x40) 64 (streamDesc 0x100 0x200 64 3 65535 3) (2 ^ 64 - 1) }
     (s.readStreamDesc 1 stream0).2 = .ok desc0 ∧ desc0.malformed 1 = false ∧
     ok (exec (.streamAccept 1) s) (fun t => (t.skip 1).streams.map (·.desc) = [some desc0]) = true) ∧
    (let s := skip1 1 streaming
     s.pickStream 1 = some (streaming, true, false) ∧ (s.sideRuns 1 true 0x100 64 false).2 = (.ok tag0.src, 0x100) ∧
     (s.sideRuns 1 true 0x200 64 true).2 = (.ok tag0.dst, 0x200) ∧ s.cxlDown tag0.src = none ∧
     ok (exec (.tagIssue 1) s) (fun t => (t.skip 1).streams.map (·.next) = [64]) = true) ∧
    ok (exec (.tagComplete 1 1 4 (.ok [])) { skip1 1 { streaming with next := 64, tags := [tag0] } with mem := [(faceBase 1 + 0x13F, 7)] }) (fun t =>
      t.mem = [(faceBase 1 + 0x13F, 7), (faceBase 1 + 0x23F, 7)] && (t.skip 1).streams.all fun y => y.tags.isEmpty) = true ∧
    ok (exec (.streamComplete 1 1) (skip1 1 { streaming with next := 64 })) (fun t => (t.skip 1).streams.isEmpty && t.tally 65535 = 3 &&
      t.reg (Reg.skpKibbleCnt 1) = 1) = true := by decide +kernel
/-- The stream halted under FID 65535. -/
def halted1 : State := skip1 1 { streaming with phase := .halted 65535 0 false }
theorem wit_StreamsStopAndResume :
    (up6.haltedBy 5 = none ∧ ok (exec (.streamResumeAbort 5) up6) (fun t => t.reg Reg.skpResumeBadCnt = 1) = true) ∧
    (halted1.haltedBy 65535).isSome = true ∧
    ok (exec (.streamResume 65535) halted1) (fun t => (t.skip 1).streams.all fun y => decide (y.phase = .running)) = true ∧
    ok (exec (.streamResumeAbort 65535) halted1) (fun t => (t.skip 1).streams.isEmpty && t.reg (Reg.skpErrCnt 1) = 1) = true ∧
    ok (exec (.streamResumeAbort 65535) (skip1 1 { streaming with phase := .halted 65535 0 false, tags := [tag0] })) (fun t =>
      (t.skip 1).streams.all fun y => decide (y.phase = .ended)) = true ∧
    (let s := withRegs up6 [(Reg.skpInvCtrl, 2 ^ 31)]
     s.flag Reg.skpInvCtrl Fld.skpInvCtrlBusy = true ∧ ok (exec .tlbInvalidateAll s) (fun t => t == s) = true ∧
     ok (exec .tlbInvalidateDone { s with inval := some ⟨[(1, 4)]⟩ }) (fun t => t.inval.isNone && t.reg Reg.skpInvCtrl = 0) = true) ∧
    (let s := { withRegs up6 [(Reg.skpInvAddr0, 0x30000), (Reg.skpInvAddr1, 0)] with hfTlb := [⟨3, 16, 0, true⟩, ⟨1, 21, 0, true⟩, ⟨0, 21, 0, true⟩] }
     s.flag Reg.skpInvCtrl Fld.skpInvCtrlBusy = false ∧
     ok (exec (.tlbInvalidatePage false) s) (fun t => t.hfTlb.length = 1 && t.inval.isSome) = true ∧
     ok (exec .tlbInvalidateAll s) (fun t => t.hfTlb.isEmpty) = true) ∧
    ok (exec (.skpShareWrite 0x00030205) up6) (fun t => t.reg Reg.skpShare = 0x00030205) = true ∧
    ok (exec (.skpShareWrite 0x00030206) up6) (fun t => t.reg Reg.skpShare = up6.reg Reg.skpShare) = true := by decide +kernel
theorem wit_StreamsStopAndResume_cxl :
    let g : Tag := { tag0 with dst := [(0x200000000000, 64)] }
    let x := { streaming with next := 64, tags := [g] }
    let s := withRegs { skip1 1 x with ps := 10 ^ 12 } [(Reg.cxlPortStat 0, 0x40002)]
    s.stream? 1 1 = some x ∧ s.atPort 0 (g.src ++ g.dst) = true ∧ g.since + s.cxlLimit ≤ s.ps ∧
    ok (exec (.cxlRequestTimeout 0 1 1) s) (fun t => t.reg (Reg.cxlTimeoutCnt 0) = 1 && (t.skip 1).streams.isEmpty) = true ∧
    ok (exec (.cxlLinkDown 1) (withRegs up6 [(Reg.cxlPortStat 1, 0x40002)])) (fun t => t.fld (Reg.cxlPortStat 1) Fld.cxlPortStatState = 3) = true := by decide +kernel

/-! ## Fabric -/

/-- A ring of two modules in Z, this one at node 0, and adit 23 in a state with its lanes and hidden state. -/
def link (st lanes : Nat) (x : Adit) : State :=
  let s := { withRegs up6 [(Reg.bnlRing, 1)] with adits := [(23, x)] }
  (s.setFld (Reg.bnlPortStat 23) Fld.bnlPortStatState st).setFld (Reg.bnlPortStat 23) Fld.bnlPortStatLaneOk lanes
/-- STATE and CAUSE of adit 23 after a command. -/
def portIs (st cause : Nat) (t : State) : Bool :=
  t.fld (Reg.bnlPortStat 23) Fld.bnlPortStatState = st && t.fld (Reg.bnlPortStat 23) Fld.bnlPortStatCause = cause
theorem wit_LinksTrainAndCarry_train :
    let s := link 1 0 Adit.idle
    s.ring 3 = 2 ∧ s.expectedPeer 23 = 1 ∧
    ok (exec (.aditTrain 23 1 20 100 15) s) (portIs 2 0) = true ∧ ok (exec (.aditTrain 23 1 20 100 7) s) (portIs 3 0) = true ∧
    ok (exec (.aditTrain 23 1 20 100 3) s) (portIs 4 4) = true ∧ ok (exec (.aditTrain 23 1 20 100 0) s) (portIs 4 1) = true ∧
    ok (exec (.aditTrain 23 1 20 65535 15) s) (portIs 4 3) = true ∧ ok (exec (.aditTrain 23 1 21 100 15) s) (portIs 4 5) = true := by
  decide +kernel
/-- A block of eight idle flits in sequence 0 that acknowledges block 4095. -/
def block0 : Nat := 2 ^ 4096 * (4095 * 2 ^ 16 + 255 * 2 ^ 88 + 0xD16F6BEC * 2 ^ 96)
theorem wit_LinksTrainAndCarry_blocks :
    let s := link 2 15 Adit.idle
    let b : LinkBlock := ⟨4095, false, 0, 0, 0, 255, 0, 2, false⟩
    let r := { Adit.idle with replay := [b], resend := some 0 }
    s.aditUp 23 = true ∧
    ok (exec (.linkBlockSend 23) s) (fun t => (t.adit 23).txSeq = 1 && (t.adit 23).replay.length = 1 && t.outbox.length = 1) = true ∧
    ok (exec (.linkBlockSend 23) (link 2 15 r)) (fun t => t.reg (Reg.bnlRetryCnt 23) = 1 && (t.adit 23).resend = none) = true ∧
    ok (exec (.linkBlockReceive 23 block0 1 false) s) (fun t => (t.adit 23).nak && t.reg (Reg.bnlFecUncCnt 23) = 1) = true := by
  decide +kernel
/-- A byte of the CRC. -/
def byteCrc (c w : Nat) : Nat := crcBit (crcBit (crcBit (crcBit (crcBit (crcBit (crcBit (crcBit (c ^^^ (w % 256)))))))))
/-- The CRC of a byte string, its state looked at once a byte so that the kernel keeps it evaluated. -/
def crcLook (c w : Nat) : Nat → Nat
  | 0 => c
  | n + 1 => if byteCrc c w = 0 then crcLook (byteCrc c w) (w / 256) n else crcLook (byteCrc c w) (w / 256) n
theorem crcBytes_succ (c w n : Nat) : crcBytes c w (n + 1) = crcBytes (byteCrc c w) (w / 256) n := by exact id rfl
theorem crcLook_succ (c w n : Nat) : crcLook c w (n + 1) = crcLook (byteCrc c w) (w / 256) n := by rw [crcLook, ite_self]
theorem crcLook_eq (n : Nat) : ∀ c w, crcBytes c w n = crcLook c w n := by
  induction n with
  | zero => intros; rfl
  | succ n ih => intro c w; rw [crcBytes_succ, crcLook_succ, ih]
theorem crc32c_look (w n : Nat) : crcLook 0xFFFFFFFF w n ^^^ 0xFFFFFFFF = crc32c w n := by rw [crc32c, crcLook_eq]
theorem block0_crc : crcLook 0xFFFFFFFF (block0 % 2 ^ (8 * 524)) 524 ^^^ 0xFFFFFFFF = getBytes block0 524 4 := by decide +kernel
theorem wit_LinksTrainAndCarry_good :
    (link 2 15 Adit.idle).aditUp 23 = true ∧ getBytes block0 524 4 = crc32c (block0 % 2 ^ (8 * 524)) 524 ∧
    getBytes block0 512 2 % 4096 = (((link 2 15 Adit.idle).adit 23).rxSeq + 1) % 4096 := by
  have h := block0_crc
  rw [crc32c_look] at h
  exact ⟨by decide +kernel, h.symm, by decide +kernel⟩
theorem wit_LinksTrainAndCarry_lanes :
    ok (exec (.aditRetrain 23) (link 2 15 { Adit.idle with fails := 8 })) (fun t => portIs 1 0 t && (t.adit 23).attempts = 1) = true ∧
    ok (exec (.retrainAttemptEnd 23 true) (link 1 15 { Adit.idle with attempts := 1 })) (portIs 2 0) = true ∧
    ok (exec (.retrainAttemptEnd 23 false) (link 1 15 { Adit.idle with attempts := 2 })) (fun t => portIs 1 0 t && (t.adit 23).attempts = 3) = true ∧
    ok (exec (.retrainAttemptEnd 23 false) (link 1 15 { Adit.idle with attempts := 3, replay := [⟨0, false, 0, 0, 0, 0, 0, 2, false⟩] })) (fun t =>
      portIs 4 2 t && t.reg Reg.bnlLostCnt = 2) = true ∧
    ok (exec (.laneFail 23 3) (link 2 15 Adit.idle)) (fun t => portIs 2 0 t && (t.adit 23).lanePending) = true ∧
    ok (exec (.laneFail 23 0) (link 3 7 Adit.idle)) (portIs 4 4) = true ∧
    (let s := (link 1 7 Adit.idle).setFld (Reg.bnlPortStat 23) Fld.bnlPortStatSpare 1
     ok (exec (.laneSpareTrained 23 true) s) (portIs 2 0) = true ∧ ok (exec (.laneSpareTrained 23 false) s) (portIs 3 0) = true) := by
  decide +kernel
/-- A WRITE packet of one piece to this module or another. -/
def pkt0 (dst : Nat) : Packet :=
  { dst, cls := 0, half := false, esc := false, mcast := false, repoch := 0, src := 1, kind := 1, hops := 62, plen := 4, last := true
    prov := false, poison := false, rsig := true, tepoch := 0, xfer := 5, addr := 0x40000, count := 1, rtally := 65535, ticket := 0
    payload := 0x11223344 }
/-- A queued packet. -/
def q0 (p : Packet) (since : Option Nat) : QPkt := ⟨p, 0, none, since, false, none, false⟩
/-- The packet waits to be injected; adit 23 is up, its peer is ON, and the table sends coordinate 1 through it. -/
def route0 (q : QPkt) : State :=
  withRegs { link 2 15 { Adit.idle with peerOn := 2 ^ 32 - 1 } with inject := [q], cycle := 10 ^ 6 } [(Reg.bnlDimEnt 97, 0x20)]
theorem wit_PacketsAreRouted :
    ok (exec (.packetRoute none 14 false) (route0 (q0 { pkt0 0 with cls := 7 } none))) (fun t => t.inject.isEmpty && t.reg Reg.bnlNorouteCnt = 1) = true ∧
    ok (exec (.packetRoute none 0 false) (route0 (q0 (pkt0 0) none))) (fun t => t.arrived = [q0 (pkt0 0) none]) = true ∧
    (let s := route0 (q0 (pkt0 1) none)
     s.bankFor 0 = some 0 ∧ s.adaptive (q0 (pkt0 1) none) (s.allowedAdits 0 1) = some 23 ∧
     ok (exec (.packetRoute none 0 false) s) (fun t => (t.adit 23).queue.map (fun x => x.pkt.hops) = [62]) = true) ∧
    (let s := route0 { q0 (pkt0 1) none with held := true }
     ok (exec (.packetRoute none 0 false) s) (fun t => t == s) = true) ∧
    (let s := { route0 (q0 (pkt0 1) none) with adits := [] }
     let s := s.setReg (Reg.bnlPortStat 23) 0
     s.allowedAdits 0 1 = [] ∧ s.escape 0 (q0 (pkt0 1) none) = none ∧
     ok (exec (.packetRoute none 0 false) s) (fun t => t.inject.all (·.held) && t.reg Reg.bnlNorouteCnt = 1) = true) ∧
    ok (exec (.escWaitExpiry none 0) (route0 (q0 (pkt0 1) (some 0)))) (fun t => t.inject.all fun x => x.pkt.esc) = true := by decide +kernel
theorem wit_PacketsAreRouted_tables :
    let free := withRegs up6 [(Reg.bnlRouteStat, 0)]
    ok (exec .routeArm free) (fun t => t.reg Reg.bnlRouteStat = 2) = true ∧
    entryBank (Reg.bnlDimEnt 255) = some 1 ∧ entryBank (Reg.bnlDetourLo 0) = some 0 ∧
    ok (exec (.routeEntryWrite (Reg.bnlDimEnt 255) 9) free) (fun t => t.reg (Reg.bnlDimEnt 255) = 9) = true ∧
    ok (exec (.routeEntryWrite (Reg.bnlDimEnt 0) 9) free) (fun t => t.reg (Reg.bnlDimEnt 0) = free.reg (Reg.bnlDimEnt 0)) = true ∧
    ok (exec .routeBankDrainEnd (withRegs up6 [(Reg.bnlRouteStat, 0x105)])) (fun t => t.reg Reg.bnlRouteStat = 0x101) = true ∧
    ok (exec (.galMarkWrite 15 0x0200) up6) (fun t => t.reg (Reg.bnlGalMark 15) = 0x0200) = true ∧
    ok (exec (.galMarkWrite 15 0x0202) up6) (fun t => t.reg (Reg.bnlGalMark 15) = up6.reg (Reg.bnlGalMark 15)) = true ∧
    ok (exec (.headroomWrite 1) up6) (fun t => t.reg Reg.bnlHeadroom = 1) = true ∧
    ok (exec (.headroomWrite 0x1FF) up6) (fun t => t.reg Reg.bnlHeadroom = up6.reg Reg.bnlHeadroom) = true := by decide +kernel
/-- A stream to another module, its data sent, under transfer 5. -/
def remote1 : State :=
  skip1 1 { streaming with use := .copy 0 0 0, desc := some { desc0 with remote := true }, next := 64, tags := [tag0], xfer := 5 }
theorem wit_TransfersAreCounted :
    (let p := { pkt0 0 with tepoch := 1 }
     ok (exec (.countedPacketArrive p) { up6 with arrived := [q0 p none] }) (fun t => t.arrived.isEmpty && t.reg Reg.bnlStaleXferCnt = 1) = true) ∧
    (let p := pkt0 0
     let s := { withRegs up6 [(Reg.skpCtrl, 0)] with arrived := [q0 p none] }
     ((((s.stand p).openCpl p).arrive p).devRuns none p.addr p.plen true).2 = .ok [(0x40000, 4)] ∧ (s.consume p).arrived = [] ∧
     ok (exec (.countedPacketArrive p) s) (fun t => t.readLE 0x40000 4 = 0x11223344 && t.tally 65535 = 1 && t.cpl.isEmpty &&
       t.inject.map (fun (q : QPkt) => q.pkt.kind) = [3]) = true) ∧
    (let p := pkt0 0
     let s := { up6 with arrived := [q0 p none], cpl := List.replicate 4096 ⟨2, 9, 0, 0, none, false⟩ }
     s.cpl? p = none ∧ ok (exec (.countedPacketArrive p) s) (fun t => t.waits.length = 1 && t.arrived.length = 1) = true) ∧
    (remote1.streamOf 5).isSome = true ∧
    ok (exec (.xackArrive { pkt0 0 with kind := 3 }) remote1) (fun t => (t.skip 1).streams.all fun y => y.acked && y.tags.isEmpty) = true ∧
    ok (exec (.xnakArrive { pkt0 0 with kind := 4 }) remote1) (fun t => t.reg (Reg.skpErrCnt 1) = 1) = true := by decide +kernel

/-! ## Hoist, riffle and smelter -/

/-- An entry of the bucket table: scratch at 0x20000, DEST at 0x3040, one block, the ring of Z, a sum in ore of 32 bits, binary32. -/
def hstEntry : Nat := packFields
  [(8, 0x20000), (8, 0x3040), (8, 0), (4, 1), (1, 8), (1, 0), (1, 0), (1, 0), (2, 0), (1, 1), (1, 0), (1, 0), (1, 0), (1, 1)]
/-- The entry as bucket 4095, descriptors of the source and the destination, a ring of two, no translation. -/
def hoist0 (c : Command) : State :=
  let m := memWrite [] (64 * 4095) 64 hstEntry (2 ^ 64 - 1)
  let m := memWrite m 0x3000 128 (descBytes 0x10000 8 1 + 2 ^ 512 * descBytes 0x10100 8 1) (2 ^ 128 - 1)
  { shaftRun c [(Reg.bnlRing, 1)] with mem := m }
/-- COLLECTIVE of bucket 4095 with a MUSTER. -/
def coll (muster : Nat) : Command := cmd 0x11 (packFields [(2, 4095), (1, muster), (1, 0), (8, 0x3000)])
theorem wit_BucketsOpenAndDeliver_collective :
    let s := hoist0 (coll 2)
    s.headCommand 0 = some (coll 2) ∧ s.engineShut (coll 2) = false ∧ (s.readBucketEntry 4095).2 = .ok (hstEntry, false) ∧
    s.entryOk hstEntry = true ∧ (s.readDescs [0x3000, 0x3040]).2 = ([TensorDesc.ofNat (descBytes 0x10000 8 1), TensorDesc.ofNat (descBytes 0x10100 8 1)], []) ∧
    collectiveFits hstEntry [TensorDesc.ofNat (descBytes 0x10000 8 1), TensorDesc.ofNat (descBytes 0x10100 8 1)] = true ∧
    s.anyFrozen (collectiveSpans hstEntry (TensorDesc.ofNat (descBytes 0x10100 8 1)) (s.membersOf hstEntry)) = false ∧ (s.openBucket 4095 hstEntry ⟨0, 7⟩).2 = .ok () ∧
    ok (exec (.collective 0) s) (fun t => t.reg Reg.hstTailingsCnt = 1 && t.buckets.all fun b => b.included = some false) = true ∧
    ok (exec (.collective 0) (hoist0 (coll 0))) (fun t => t.reg Reg.hstTailingsCnt = 0 && t.buckets.length = 1 &&
      t.buckets.all fun b => b.included = some true) = true := by decide +kernel
/-- The bucket after its opening. -/
def bucket0 : Bucket :=
  { num := 4095, entry := hstEntry, step := ⟨0, 7⟩, cmd := none, src := none, dest := none, mode := 0, included := none, muster := 0
    f0 := some 0, deadline := 8, finalSeal := false, tailEvent := false, first := 0, stage := some ⟨0, false, 0, 0⟩, sets := [], own := []
    prev := [], firstMask := 3, total := 2, anchors := [], data := [], flagged := [], reshifts := 0, failed := false, delivered := false
    wsent := false, wgot := [], doneFrom := [] }
theorem wit_BucketsOpenAndDeliver :
    (let s := withRegs { hoist0 (cmd 1 0) with buckets := [bucket0], cycle := 1 } [(Reg.whsFrame0, 8)]
     s.frame = 8 ∧ s.bcycle < s.cycle ∧ ok (exec (.bucketDeadline 4095) s) (fun t => t.buckets.all fun b => b.included = some false) = true) ∧
    (let b := { bucket0 with cmd := some (0, 9), src := some (TensorDesc.ofNat (descBytes 0x10000 8 1)),
                             dest := some (TensorDesc.ofNat (descBytes 0x10100 8 1)), stage := none }
     let s := { hoist0 (cmd 1 0) with buckets := [b], shafts := [(0, { Shaft.idle with started := [⟨coll 0, .working, none, [], false, false, 0, false⟩] })] }
     ok (exec (.bucketDeliver 4095) s) (fun t => t.reg Reg.hstBucketCnt = 1 && (t.buckets.all fun b => b.delivered) &&
       (t.shaft 0).started.all fun x => decide (x.state = .done)) = true) ∧
    ok (exec (.btabBaseWrite true (2 ^ 25 - 1)) up6) (fun t => t.reg Reg.hstBtabBase1 = 2 ^ 25 - 1) = true ∧
    ok (exec (.btabBaseWrite false (2 ^ 32 - 1)) up6) (fun t => t.reg Reg.hstBtabBase0 = 2 ^ 32 - 2 ^ 18) = true ∧
    ok (exec (.btabBaseWrite false 0) { up6 with buckets := [bucket0] }) (fun t => t == { up6 with buckets := [bucket0] }) = true := by
  decide +kernel
/-- A gather whose copy is whole. -/
theorem wit_BucketsOpenAndDeliver_gather :
    let b := { bucket0 with cmd := some (0, 9), src := some (TensorDesc.ofNat (descBytes 0x10000 8 1)), entry := hstEntry + 16 * 2 ^ 232
                            dest := some (TensorDesc.ofNat (descBytes 0x10100 8 1)), stage := none }
    let s := { hoist0 (cmd 1 0) with buckets := [b], shafts := [(0, { Shaft.idle with started := [⟨coll 0, .working, none, [], false, false, 0, false⟩] })] }
    b.gather = true ∧ s.whole b = true ∧ s.doneDue b = none ∧ ¬ 0 ∈ b.dims ∧
    ok (exec (.bucketDeliver 4095) s) (fun t => t.mem == s.mem && t.reg Reg.hstBucketCnt = 1 && (t.buckets.all fun b => b.delivered) &&
      (t.shaft 0).started.all fun x => decide (x.state = .done)) = true := by decide +kernel
/-- An entry of the riffle table: one token, one choice, one expert a member, rows of 64 bytes of binary32, in the ring of Z. -/
def rflE : Nat := packFields
  [(8, 0x10000), (8, 0x11000), (8, 0x12000), (8, 0x13000), (8, 0x14000), (8, 0x15000), (8, 0x16000), (8, 0x17000), (8, 0x3000), (4, 5), (2, 1),
   (2, 1), (2, 1), (1, 1), (1, 1), (1, 8), (1, 0), (1, 1), (1, 0)]
/-- The entry as number 1023 of the table, OUTD, a route to expert 0, more memory, and the operations open. -/
def riffle0 (c : Command) (l : List Riffle) (m : List Host.Cell) : State :=
  let m := memWrite (memWrite m (128 * 1023) 128 rflE (2 ^ 128 - 1)) 0x3000 64 (descBytes 0x20000 16 1) (2 ^ 64 - 1)
  { shaftRun c [(Reg.bnlRing, 1)] with mem := m, riffles := l }
/-- RIFFLE of entry 1023 with an OPER. -/
def rifl (oper : Nat) : Command := cmd 0x12 (1023 + 2 ^ 16 * oper)
theorem wit_RiffleOperationsRun_start :
    let s := riffle0 (rifl 1) [] []
    s.headCommand 0 = some (rifl 1) ∧ s.engineShut (rifl 1) = false ∧ (s.readRflEntry 1023).2 = .ok (rflE, false) ∧ s.rflEntryOk rflE = true ∧
    (s.readDescs [0x3000]).2 = ([TensorDesc.ofNat (descBytes 0x20000 16 1)], []) ∧ outdFits rflE (TensorDesc.ofNat (descBytes 0x20000 16 1)) = true ∧
    s.anyFrozen (rflSpans rflE 1 (TensorDesc.ofNat (descBytes 0x20000 16 1))) = false ∧
    ok (exec (.riffleDispatch 0) s) (fun t => t.riffles.map (·.oper) = [1] && t.fld Reg.rflOpen Fld.rflOpenOps = 1) = true ∧
    ok (exec (.riffleCombine 0) (riffle0 (rifl 2) [] [])) (fun t => t.riffles.map (·.oper) = [2]) = true ∧
    (let c := cmd 0x12 (3 * 2 ^ 16 + 16 * 2 ^ 224)
     c.get 18 1 = 3 ∧ c.get 44 1 = 16 ∧ ok (exec (.riffleTeach 0) (shaftRun c [])) (fun t => t.reg Reg.rflTeachCnt = 1) = true) ∧
    ok (exec (.rflTabBaseWrite true (2 ^ 25 - 1)) up6) (fun t => t.reg Reg.rflTabBase1 = 2 ^ 25 - 1) = true ∧
    ok (exec (.rflTabBaseWrite false (2 ^ 32 - 1)) up6) (fun t => t.reg Reg.rflTabBase0 = 2 ^ 32 - 2 ^ 17) = true := by decide +kernel
/-- An open operation of the entry. -/
def rfl0 (oper : Nat) : Riffle :=
  { id := 1, num := 1023, entry := rflE, oper, step := ⟨0, 7⟩, cmd := some (0, 9), raw := 0, badSeal := false, dropEvent := false, todo := []
    census := [⟨0, 5, 0, 0, 0, false⟩, ⟨1, 6, 0, 0, 0, false⟩], censusFrom := [0, 1], verdicts := [⟨1, 5, 0, 0, 0, true⟩], verdictFrom := [0, 1]
    decided := false, masked := false, rowsFrom := [], held := [], added := 0, converted := false, failed := false, finished := false, bad := false, outd := some (TensorDesc.ofNat (descBytes 0x20000 16 1)) }
/-- A returned piece of one element of token 5. -/
def piece0 : Packet :=
  { pkt0 0 with cls := 2, kind := 6, plen := 44, payload := rflHeader 1023 3 1 7 0 1 + 2 ^ 256 * (5 + 2 ^ 64 * 0x40000000) }
/-- An image of zero. -/
def images0 : List Host.Cell := memWrite [] 0x17000 96 (LodeAcc.zero.image 2 0 0) (2 ^ 96 - 1)
theorem wit_RiffleOperationsRun :
    ok (exec (.capacityDecide 1023) (riffle0 (cmd 1 0) [rfl0 1] [])) (fun t => t.reg Reg.rflKeptCnt = 1 && t.reg Reg.rflDropCnt = 1 &&
      t.readLE 0x15000 4 = 1 && t.riffles.all fun y => y.decided) = true ∧
    ok (exec (.riffleRowsSend 1023) (riffle0 (cmd 1 0) [rfl0 1] [])) (fun t => t.readLE 0x16000 2 = 1 && t.riffles.all fun y => y.masked) = true ∧
    (let o := { rfl0 2 with held := [piece0] }
     let s := riffle0 (cmd 1 0) [o] images0
     ((s.modRfl 1 fun o => { o with held := [] }).addPiece o piece0).2 = .ok () ∧
     ok (exec (.returnAccumulate 1023) s) (fun t => t.riffles.all fun y => y.held.isEmpty && y.added = 4) = true) ∧
    (let s := riffle0 (cmd 1 0) [rfl0 2] []
     (s.expected (rfl0 2)).2 = .ok 0 ∧
     ok (exec (.combineConvert 1023) s) (fun t => t.riffles.all fun y => y.converted) = true) := by decide +kernel
/-- TEACH of one token of 16 choices to node 1. -/
theorem wit_RiffleOperationsRun_teach :
    let c := cmd 0x12 (3 * 2 ^ 16 + 0x18000 * 2 ^ 32 + 1 * 2 ^ 160 + 1 * 2 ^ 192 + 16 * 2 ^ 224)
    let s := shaftRun c [(Reg.bnlRing, 1)]
    c.get 18 1 = 3 ∧ c.get 36 4 = 1 ∧ c.get 40 4 = 1 ∧ c.get 44 1 = 16 ∧ ok (exec (.riffleTeach 0) s) (fun t =>
      t.riffles.map (fun o => (o.oper, o.failed)) = [(3, false)] && t.inject.length = 1 && t.fld Reg.rflOpen Fld.rflOpenOps = 1) = true := by decide +kernel
/-- A returned piece of a refused transfer is counted and not added. -/
theorem wit_RiffleOperationsRun_refused :
    let s := { riffle0 (cmd 1 0) [{ rfl0 2 with held := [piece0] }] images0 with cpl := [⟨1, 5, 0, 0, none, true⟩] }
    (s.cpl? piece0).any (·.refused) = true ∧ ok (exec (.returnAccumulate 1023) s) (fun t =>
      t.riffles.all (fun y => y.held.isEmpty && y.added = 0) && t.mem == s.mem) = true := by decide +kernel
/-- A smelt block: seam at 0x2000, GRAD at 0x3000, a program of one operation at 0x1800. -/
def smeltBlock : Nat := packFields [(8, 0x2000), (8, 0x3000), (32, 0), (8, 0), (8, 0x1800), (1, 1), (3, 0), (4, 0x3F800000)]
/-- The program: u is the gradient. -/
def smeltProg : Nat := 0x12 * 2 ^ 26
/-- The header of a seam of 8 elements with PEND = 2, last updated in step 6. -/
def seamHdr : Nat := packFields [(2, 10), (1, 1), (1, 2), (4, 77), (8, 8), (8, 6), (8, 0)]
/-- SMELT with an OPER and a DELTA. -/
def smlt (oper delta : Nat) : Command := cmd 0x13 (packFields [(8, 0x1000), (1, oper), (1, 0), (2, delta)])
/-- The block, the program, the seam and the gradient's descriptor in memory. -/
def smelt0 (c : Command) (l : List Smelt) : State :=
  let m := memWrite (memWrite [] 0x1000 128 smeltBlock (2 ^ 128 - 1)) 0x1800 4 smeltProg 15
  let m := memWrite (memWrite m 0x2000 64 seamHdr (2 ^ 64 - 1)) 0x3000 64 (descBytes 0x4000 8 1) (2 ^ 64 - 1)
  { shaftRun c [] with mem := m, smelts := l }
theorem wit_SmeltsRun_start :
    let s := smelt0 (smlt 1 0) []
    let t := TensorDesc.ofNat (descBytes 0x4000 8 1)
    s.headCommand 0 = some (smlt 1 0) ∧ s.engineShut (smlt 1 0) = false ∧
    (s.readSmelt (smlt 1 0) 1).2 = some (smeltBlock, smeltProg, seamHdr, false) ∧ (s.readDescs (namedDescs smeltBlock 1)).2 = ([t], []) ∧
    plainOk smeltBlock 1 [t] = true ∧ blockFieldsOk smeltBlock = true ∧ t.count = getBytes seamHdr 8 8 ∧
    s.anyFrozen (smeltSpans smeltBlock 8 1 [t]) = false ∧ (getBytes seamHdr 2 1).testBit 0 = true ∧ ncbCauses smeltBlock [t] true = [] ∧
    progOk (progOps smeltProg 1) (fun k => getBytes smeltBlock (16 + 8 * k) 8 = 0) = true ∧ oreStartOk smeltBlock = true ∧
    ok (exec (.smeltUpdate 0) s) (fun t => t.smelts.map (·.anchor) = [8]) = true ∧
    ok (exec (.smeltInit 0) (smelt0 (smlt 2 0) [])) (fun t => t.smelts.map (·.oper) = [2]) = true ∧
    ok (exec (.smeltRebase 0) (smelt0 (smlt 3 63) [])) (fun t => t.smelts.map (·.anchor) = [73]) = true := by decide +kernel
/-- A REBASE by 1 in progress. -/
def smeltX : Smelt :=
  { id := 1, shaft := 0, cmd := 9, oper := 3, delta := 1, step := ⟨0, 7⟩, block := smeltBlock, prog := 0, hdr := seamHdr, ctrl := 0, rebase := 0
    chunk := 0, anchor := 11, shift := 0, sd := 0, sw := 0, lost := 0, residue := 0, top := 0, ovf := false, retried := false, writing := false, descs := ⟨none, none, [none, none, none, none], false⟩ }
theorem wit_SmeltsRun :
    let s := smelt0 (cmd 1 0) [smeltX]
    s.smeltCovers smeltX = [] ∧ s.poisonOf smeltX.step = none ∧
    ok (exec (.smeltChunk 1 true) s) (fun t => t.reg Reg.smlRetryCnt = 1 && t.smelts.all fun y => y.retried) = true ∧
    ok (exec (.smeltChunk 1 true) (smelt0 (cmd 1 0) [{ smeltX with retried := true }])) (fun t => t.smelts.isEmpty && t.reg Reg.smlFailCnt = 1) = true ∧
    ok (exec (.smeltChunk 1 false) s) (fun t => t.smelts.all fun y => y.chunk = 1 && y.writing) = true ∧
    ok (exec (.smeltFinish 1) (smelt0 (cmd 1 0) [{ smeltX with chunk := 1, writing := true }])) (fun t => t.smelts.isEmpty &&
      t.reg Reg.smlRebaseCnt = 1 && getBytes (t.readLE 0x2000 64) 0 2 = 11) = true ∧
    (smeltX.element (progOps smeltProg 1) (2 ^ 63 - 1) (.num true (2 ^ 100) 1) [] 0).sat = true ∧
    (smeltX.element (progOps smeltProg 1) 5 .nan [] 0).nonfin = true := by decide +kernel
/-- An UPDATE of step 6, which the header already holds, is skipped. -/
theorem wit_SmeltsRun_replay :
    let s := smelt0 (smlt 1 0) []
    let s := { s with shafts := [(0, { Shaft.idle with decoded := [smlt 1 0], step := some ⟨0, 6⟩ })] }
    ok (exec (.smeltUpdate 0) s) (fun t => t.smelts.isEmpty && t.reg Reg.dptReplaySkipCnt = 1 && t.reg Reg.smlUpdateCnt = 1 &&
      (t.shaft 0).started.all fun y => decide (y.state = .done)) = true := by decide +kernel
/-- The only chunk of an UPDATE computes and is written. -/
theorem wit_SmeltsRun_update :
    let s := after (exec (.smeltUpdate 0) (smelt0 (smlt 1 0) [])) (smelt0 (smlt 1 0) [])
    s.smelts.map (fun x => (x.chunk, x.chunks, x.writing)) = [(0, 1, false)] ∧
    ok (exec (.smeltChunk ((s.smelts.map (·.id)).headD 0) false) s) (fun t =>
      t.smelts.map (fun x => (x.chunk, x.writing)) = [(1, true)]) = true := by decide +kernel

/-! ## Deputy and strongroom -/

/-- A ticket of step 7. -/
def ticket0 (own : Bool) (outcome : Option (Option Nat)) : Ticket := ⟨3, ⟨0, 7⟩, own, outcome, [], none, [], false, none, [], 0⟩
/-- Step 7 begun, with a ticket. -/
def judged (t : Ticket) : State := { shaftRun (cmd 1 0) [] with tickets := [t] }
/-- A VERDICT or POISON packet's payload. -/
def verdict (kind out : Nat) : Packet :=
  { pkt0 0 with kind := 2, cls := 0, payload := packFields [(1, kind), (1, 1), (6, 0), (8, if kind = 2 then 7 else 0), (8, 3 + 2 ^ 32 * (out * (kind - 1))), (1, out)] }
/-- A pack of one entry, canaries on, stope 143 active with an old canary. -/
def packed : State :=
  { withRegs up6 [(Reg.dptCtrl, 0xFF), (Reg.dptStopeStat 143, 2 ^ 28), (Reg.dptCanaryForce, 5), (Reg.dptCanaryPeriod, 5)] with
    pack := some ⟨1, 0, [⟨0, 64, 0, 0, 0, 0, 0, 0, 0, 0⟩], 0⟩, stopes := [(143, { Store.get (up6.stope 143) [] 0 with canaryAge := 5 })] }
theorem wit_DeputyJudges :
    ok (exec (.dptCtrlWrite 0x3F) up6) (fun t => t.levelNext = up6.levelNext && t.reg Reg.dptCtrl / 4 = 15) = true ∧
    ok (exec (.dptCtrlWrite 2) up6) (fun t => t.levelNext = some 2) = true ∧
    ok (exec (.ticketResolve 3) (judged (ticket0 true (some none)))) (fun t => t.tickets.isEmpty && t.reg Reg.dptVerdictGoodCnt = 1) = true ∧
    ok (exec (.ticketResolve 3) (judged (ticket0 true (some (some 2))))) (fun t => t.tickets.isEmpty && (t.poisonOf ⟨0, 7⟩).isSome) = true ∧
    ok (exec (.verdictArrive (verdict 1 1)) (judged (ticket0 false none))) (fun t => t.tickets.isEmpty && t.poisonOf ⟨0, 7⟩ = none) = true ∧
    ok (exec (.verdictArrive (verdict 1 2)) (judged (ticket0 false none))) (fun t => t.tickets.isEmpty && (t.poisonOf ⟨0, 7⟩).isSome) = true ∧
    ok (exec (.poisonArrive (verdict 2 5)) (shaftRun (cmd 1 0) [])) (fun t => t.poisonOf ⟨0, 7⟩ = some 5 && t.reg Reg.dptPoisonCnt = 1) = true ∧
    (let x : Started := ⟨cmd 0x11 0, .done, some ⟨0, 7⟩, [3], false, false, 5, false⟩
     let s := { shaftRun (cmd 1 0) [(Reg.sftStallLimit, 5)] with shafts := [(0, { Shaft.idle with started := [x] })] }
     s.commitWaits x = true ∧ ok (exec (.verdictStall 0) s) (fun t => t.reg Reg.dptVerdictStallCnt = 1) = true) := by decide +kernel
theorem wit_DeputyJudges_canaries :
    packed.canaryPack.isSome = true ∧ packed.stopeState 143 = 1 ∧
    ok (exec (.canaryForce 143) packed) (fun t => (t.stope 143).canaryForced) = true ∧
    ok (exec (.canaryLate 143) packed) (fun t => (t.stope 143).fence = 1 && t.reg Reg.dptCanaryFailCnt = 1) = true ∧
    ok (exec (.canaryFaceWrite 0x00010002) up6) (fun t => t.reg Reg.dptCanaryFace = 0x00010002) = true ∧
    ok (exec (.canaryFaceWrite 0x0FFF0FFF) up6) (fun t => t.reg Reg.dptCanaryFace = up6.reg Reg.dptCanaryFace) = true ∧
    ok (exec (.packAddressWrite 0 0xFFFFFFFF) up6) (fun t => t.reg Reg.dptPackPa0 = 0xFFFF0000) = true ∧
    ok (exec (.packAddressWrite 3 0xFFFFFFFF) up6) (fun t => t.reg (Reg.dptPackPa0 + 12) = 0x1FFFFFF) = true ∧
    ok (exec (.packAddressWrite 0 0xFFFFFFFF) packed) (fun t => t == packed.noteReserved Reg.dptPackPa0 0xFFFFFFFF && t.reg Reg.dptPackPa0 = packed.reg Reg.dptPackPa0) = true ∧
    (let s := withRegs { shaftRun (cmd 1 0) [] with steps := (shaftRun (cmd 1 0) []).steps.map fun r => { r with state := .blocked } } [(Reg.plgResolveStep0, 7)]
     s.resolving.isSome = true ∧ ok (exec .resolveRelease s) (fun t => t.steps.map (·.resolve) = [some true]) = true ∧
     ok (exec .resolveAbort s) (fun t => t.steps.map (·.poison) = [some 8]) = true) := by decide +kernel
/-- SNAPSHOT of step 7: one region, its manifest at 0x1000, to a CXL port. -/
def snap : Command := cmd 0x14 (packFields [(8, 7), (8, 0x1000), (4, 1), (2, 65535), (2, 0), (8, 0x200000000000), (16, 0)])
/-- The module with the manifest in memory, a CXL port of 4 GiB up, and a snapshot in progress. -/
def strong (c : Command) (x : Option Snapshot) : State :=
  { shaftRun c [(Reg.cxlPortStat 0, 0x400002)] with mem := memWrite [] 0x1000 16 (0x20000 + 2 ^ 64) (2 ^ 16 - 1), snapshot := x }
/-- The snapshot of that region: one granule. -/
def snapX (copied : List Nat) : Snapshot := ⟨0, 9, ⟨0, 7⟩, 0, [⟨0x20000, 1, true⟩], false, 0x200000000000, 0, true, copied, [], []⟩
theorem wit_SnapshotsAreTaken :
    let s := strong snap none
    s.headCommand 0 = some snap ∧ s.engineShut snap = false ∧ (s.devRead none 0x1000 16).2 = .ok (0x20000 + 2 ^ 64, false) ∧
    s.paKind (snap.get 40 8) = .cxl 0 ∧ (s.step? ⟨0, 7⟩).isSome = true ∧
    ok (exec (.snapshot 0) s) (fun t => t.tally 65535 = 1 && t.snapshot.any fun x => x.armed && x.step = ⟨0, 7⟩) = true := by decide +kernel
theorem wit_SnapshotsAreTaken_copy :
    let s := strong (cmd 1 0) (some (snapX []))
    (snapX []).granules = [2] ∧ s.poisonOf ⟨0, 7⟩ = none ∧ s.cowWaits (2 * granuleBytes) 1 = true ∧
    (s.xlateSpan none (2 * granuleBytes) granuleBytes false (spanPages granuleBytes)).2 = .ok [(2 * granuleBytes, granuleBytes)] ∧
    s.marks = [] ∧ s.reachable none ((snapX []).cxldst + (snapX []).dataAt) granuleBytes = true := by decide +kernel
theorem wit_SnapshotsAreTaken_seal :
    let x := snapX [2]
    let s := strong (cmd 1 0) (some x)
    (∀ g ∈ x.granules, g ∈ x.copied) ∧ s.reachable none x.cxldst x.dataAt = true ∧
    s.reachable none (x.cxldst + x.dataAt + x.dataLen) 128 = true ∧ (s.step? x.step).isSome = true := by decide +kernel

/-! ## Power and whistle -/

/-- The module with some registers and its power loops. -/
def powered (l : List (Nat × Nat)) (p : Power) : State := { withRegs up6 l with power := p }
/-- Five stopes of level 0 active. -/
def five : List (Nat × Nat) := [0, 1, 2, 3, 71].map fun n => (Reg.dptStopeStat n, 2 ^ 28)
theorem wit_PowerLoopsAct :
    ok (exec (.droopEvent 143 40) up6) (fun t => t.reg (Reg.pwrDroopCnt 143) = 1 && t.reg (Reg.pwrStretchCnt 1) = 32) = true ∧
    ok (exec (.powerEstimateTick ⟨1000, 0, 0, 0, 5, 1600, 1599⟩) up6) (fun t => t.power.hot = [0] && t.power.compute = 5) = true ∧
    ok (exec (.powerMeasurementSample 77) (powered [] { Power.idle with age := 300 })) (fun t => t.power.meas = 77 && t.power.age = 0) = true ∧
    (let s := powered five { Power.idle with compute := 10 ^ 9, perStope := 10 ^ 8 }
     (s.activeStopes 0).length = 5 ∧ s.power.hot = [] ∧
     ok (exec .capControlTick s) (fun t => (t.activeStopes 0).length = 4 && t.power.noBallast && t.flag Reg.pwrStat Fld.pwrStatPaced) = true) := by
  decide +kernel
theorem wit_PowerLoopsAct_stat :
    let set := fun (f : Fld) (p : Power) => (powered [] p).setFld Reg.pwrStat f 1
    (let s := set Fld.pwrStatDefer { Power.idle with defers := 2 ^ 16 }
     max 1 (s.fld Reg.pwrDeferMax Fld.pwrDeferMaxFrames) ≤ s.power.defers ∧ ok (exec .deferLimitExpiry s) (fun t => t.power.needLimit) = true) ∧
    ok (exec .protectionTick (powered [] { Power.idle with needHeat := true })) (fun t => t.power.stretch = 2 && t.flag Reg.pwrStat Fld.pwrStatProtect) = true ∧
    ok (exec .protectionTick (powered [] { Power.idle with stretch := 5 })) (fun t => t.power.stretch = 0) = true ∧
    ok (exec .disagreeDeclare (powered [] { Power.idle with disagree := 26 })) (fun t => t.reg Reg.pwrDisagreeCnt = 1) = true ∧
    ok (exec .recalibrationEnd (set Fld.pwrStatRecal { Power.idle with recal := 250, sumRaw := 65536, sumMeas := 60000 })) (fun t => t.reg Reg.pwrCal = 60000) = true ∧
    ok (exec .distrustDeclare (powered [] { Power.idle with age := 300 })) (fun t => t.flag Reg.pwrStat Fld.pwrStatDistrust) = true ∧
    ok (exec .distrustClear (set Fld.pwrStatDistrust { Power.idle with valid := 25 })) (fun t => !t.flag Reg.pwrStat Fld.pwrStatDistrust) = true ∧
    ok (exec .levelDrawWindow ((powered [] { Power.idle with windowEnd := true, window := List.replicate 25 (103, 100) }).setFld Reg.pwrCtrl Fld.pwrCtrlLevelDraw 1))
      (fun t => t.reg Reg.pwrLevelMissCnt = 1) = true ∧
    ok (exec (.setpointWrite 1500) up6) (fun t => t.reg Reg.pwrSetpoint = 1500) = true ∧
    ok (exec (.setpointWrite 1501) up6) (fun t => t == up6) = true := by decide +kernel
/-- A packet of the whistle: its kind, a frame, a code, a sequence number. -/
def wpkt (kind frame code seq : Nat) : Packet :=
  { pkt0 0 with kind := 8, cls := 7, payload := packFields [(1, kind), (7, 0), (8, frame), (1, code), (1, seq)] }
/-- The whistle enabled in a role, with its hidden state. -/
def whistled (role : Nat) (w : Whistle) : State := { withRegs up6 [(Reg.whsCtrl, 1 + 2 * role), (Reg.whsFrame0, 9)] with whistle := w }
theorem wit_WhistleKeepsTime :
    (up6.flag Reg.whsCtrl Fld.whsCtrlEn = false ∧ ok (exec (.whistleEnable 3 5) up6) (fun t => t.whistle.root = 5 && t.fld Reg.whsCtrl Fld.whsCtrlRole = 1) = true) ∧
    ((whistled 1 Whistle.idle).whsRole = 1 ∧ ok (exec (.timeReceive (wpkt 1 100 0 0) 0) (whistled 1 Whistle.idle)) (fun t => t.frame = 100) = true) ∧
    ((whistled 0 Whistle.idle).whsRole = 0 ∧ ok (exec (.framenoReceive (wpkt 2 12 0 0)) (whistled 0 Whistle.idle)) (fun t => t.frame = 11 && t.reg Reg.whsSlipCnt = 1) = true) ∧
    ok (exec .timingLocked (whistled 0 { Whistle.idle with lockRun := 25 })) (fun t => t.flag Reg.whsStat Fld.whsStatLocked) = true ∧
    (let s := (whistled 0 { Whistle.idle with quiet := 2 }).setFld Reg.whsStat Fld.whsStatHoldover 0
     ok (exec .holdoverEnter s) (fun t => t.reg Reg.whsHoldCnt = 1 && t.flag Reg.whsStat Fld.whsStatHoldover) = true) ∧
    (let s := ((whistled 0 { Whistle.idle with held := 2 ^ 32 }).setFld Reg.whsStat Fld.whsStatHoldover 1).setFld Reg.whsStat Fld.whsStatUnaligned 0
     ok (exec .unalignedSet s) (fun t => t.flag Reg.whsStat Fld.whsStatUnaligned) = true) ∧
    (let s := (whistled 1 Whistle.idle).setReg Reg.bnlRing (2 ^ 15)
     ok (exec .whistleOutEdge s) (fun t => t.outbox.length = 1 && t.inject.map (fun (q : QPkt) => q.pkt.dst) = [2 ^ 15]) = true) ∧
    ok (exec (.wordReceive (wpkt 3 12 17 1)) (whistled 1 Whistle.idle)) (fun t => t.reg Reg.whsBadWordCnt = 1) = true ∧
    ok (exec (.wordReceive (wpkt 3 12 16 1)) (whistled 1 { Whistle.idle with lastSeq := some 1 })) (fun t => t.whistle.words.isEmpty) = true ∧
    ok (exec (.wordReceive (wpkt 3 9 16 128)) (whistled 1 { Whistle.idle with lastSeq := some 1 })) (fun t => t.whistle.words = [⟨9, 16, 128, true⟩]) = true ∧
    ok (exec (.reportReceive (wpkt 4 0 5 1)) (whistled 1 Whistle.idle)) (fun t => t.whistle.reports.map (·.gated) = [261]) = true := by decide +kernel

/-! ## Resets, blocks and boot -/

/-- The module running with its host link up, ten seconds in, a DISPATCH in progress. -/
def live (f : Lamp → Lamp) : State :=
  { (withRegs up6 [(Reg.skpCtrl, 0)]).setFld Reg.pciStat Fld.pciStatSpeed 3 with ps := 10 ^ 14, lamp := f { up6.lamp with packKey := 5 }, dispatches := [disp0] }
/-- The module domains are in reset, with a bit of RST_CAUSE set. -/
def inReset (b : Nat) (t : State) : Bool :=
  t.lamp.released = 0 && t.lamp.rstOut && t.dispatches.isEmpty && t.reg Reg.skpCtrl = (regReset Reg.skpCtrl).toNat && (t.reg Reg.rstCause).testBit b
theorem wit_ResetsAct_sources :
    ok (exec .powerOnReset (live id)) (fun t => inReset 0 t && t.reg Reg.rstCause = 1) = true ∧
    ok (exec .perstAssert (live id)) (fun t => inReset 1 t && t.lamp.perst) = true ∧
    ok (exec .perstDeassert (live fun l => { l with perst := true })) (fun t => !t.lamp.perst) = true ∧
    (live id).hostUp = true ∧ ok (exec .hotReset (live id)) (inReset 2) = true ∧
    ok (exec .linkDownReset ((live id).setFld Reg.rstCtrl Fld.rstCtrlLinkdownEn 1)) (inReset 3) = true ∧
    ok (exec .linkDownReset ((live id).setFld Reg.rstCtrl Fld.rstCtrlLinkdownEn 0)) (fun t => !t.hostUp && t.dispatches.length = 1) = true ∧
    ok (exec .functionLevelReset (live fun l => { l with scope := 0 })) (fun t => inReset 4 t && t.hostUp) = true ∧
    ok (exec .mailboxReset (live fun l => { l with due := [⟨5, 0, 0⟩] })) (inReset 5) = true ∧
    ok (exec .sidebandReset (live fun l => { l with due := [⟨6, 1, 0⟩] })) (fun t => !t.lamp.booted && t.dispatches.length = 1) = true ∧
    ok (exec (.thermalTrip 1840) (live id)) (fun t => inReset 8 t && t.lamp.tripHold && !t.lamp.rails) = true ∧
    ok (exec (.regulatorFault true) (live id)) (fun t => inReset 9 t && t.lamp.faultHold && !t.lamp.input) = true ∧
    ok (exec .standbyLoss (live id)) (fun t => !t.lamp.standby && t.lamp.released = 0) = true ∧
    ok (exec .moduleRemove (live id)) (fun t => !t.lamp.present && t.outbox.length = 2) = true := by decide +kernel
theorem wit_ResetsAct_lamp :
    (live id).foremanUp = true ∧ ok (exec .watchdogKick (live id)) (fun t => t.lamp.watchAt = 10 ^ 14) = true ∧
    (live id).lamp.watchAt + (live id).watchPs ≤ (live id).ps ∧
    ok (exec .watchdogExpiry (live id)) (fun t => t.lamp.takeover && t.reg Reg.rstWdtCnt = 1) = true ∧
    ok (exec .watchdogExpiry ((live id).setFld Reg.rstStat Fld.rstStatStandby 1)) (inReset 7) = true ∧
    (live fun l => { l with takeover := true }).lamp.takeover = true ∧ (live id).foreman.longs = [] ∧ (live id).foreman.acked = none ∧
    (let s := live fun l => { l with input := false }
     ok (exec .inputPowerApply s) (fun t => t.lamp.input && t.lamp.inputAt = 10 ^ 14) = true) ∧
    (live fun l => { l with rails := false }).railsReady = true ∧
    ok (exec .packageRailsUp (live fun l => { l with rails := false })) (fun t => t.lamp.rails) = true ∧
    ok (exec (.tripRailRestore 959) ((live fun l => { l with rails := false, tripHold := true }).setFld Reg.rstCtrl Fld.rstCtrlTripRestart 1)) (fun t => t.lamp.rails) = true ∧
    ok (exec .regulatorRailRestore ((live fun l => { l with rails := false, faultHold := true, restarts := 2 }).setFld Reg.rstCtrl Fld.rstCtrlRegRestart 1))
      (fun t => t.lamp.restarts = 3) = true ∧
    ok (exec (.rstOutDeassert true) (live fun l => { l with rstOut := true, resetAt := 99 * 10 ^ 12 })) (fun t => !t.lamp.rstOut) = true ∧
    ok (exec (.domainRelease true 3 (none, none)) (live fun l => { l with released := 1, scope := 2 })) (fun t => t.up 2 && t.fld Reg.pciStat Fld.pciStatSpeed = 3) = true ∧
    ok (exec (.domainRelease true 0 (none, none)) { live fun l => { l with released := 2 } with mem := [(5, 1), (0x6000000000, 1)] }) (fun t => t.mem = [(0x6000000000, 1)]) = true ∧
    ok (exec (.domainRelease true 0 (none, none)) (live fun l => { l with released := 4 })) (fun t => t.flag Reg.rstStat Fld.rstStatReady) = true ∧
    ok (exec (.domainRelease true 0 (some ⟨true, 16, 2, false, 4, []⟩, none)) (live fun l => { l with released := 5 })) (fun t =>
      t.reg (Reg.cxlPortStat 0) != 0 && t.reg (Reg.cxlPortStat 0) = cxlStat (some ⟨true, 16, 2, false, 4, []⟩) && t.reg (Reg.cxlPortStat 1) = cxlStat none) = true ∧
    (live fun l => { l with released := 3 }).lamp.released + 1 = 4 ∧
    ok (exec (.resetCauseClear 2) ((live id).setReg Reg.rstCause 3)) (fun t => t.reg Reg.rstCause = 1) = true ∧
    ok (exec (.resetCauseClear 3) ((live fun l => { l with perst := false }).setReg Reg.rstCause 3)) (fun t => t.reg Reg.rstCause = 0) = true := by decide +kernel
/-- A block in a state of its reset, with AFTER and PEND. -/
def blocked (b st pend after : Nat) : State :=
  ({ live fun l => { l with blocks := [(b, ⟨some 0, b = 0x100, 0, 2 ^ 28⟩)] } with cycle := 256 }).setBlock b after pend st
theorem wit_BlocksAndBootAct :
    ok (exec (.blockReset false 0x18F) (live id)) (fun t => t.blockState 0x18F = 1 && t.blockPend 0x18F = 1 && (t.blockCtl 0x18F).asked = none) = true ∧
    ok (exec (.blockReset true 2) (live id)) (fun t => t.blockState 2 = 1 && (t.blockCtl 2).asked = some ((live id).now + (live id).cycleSub)) = true ∧
    ok (exec (.blockOff true 0x16) (live id)) (fun t => t.blockState 0x16 = 1 && t.blockPend 0x16 = 0) = true ∧
    ok (exec (.blockOn false 0) (blocked 0 2 0 0)) (fun t => t.blockState 0 = 2 && t.blockPend 0 = 1 && t.reg Reg.rstCollapseCnt = 1) = true ∧
    ok (exec (.blockOn false 0) (blocked 0 3 0 0)) (fun t => t.blockState 0 = 4) = true ∧
    ok (exec (.blockReset false 0) (blocked 0 4 0 0)) (fun t => t.blockAfter 0 = 2) = true ∧
    ((blocked 0x100 1 1 0).blockIdle 0x100 = true ∧ ok (exec (.blockIdleReport 0x100) (blocked 0x100 1 1 0)) (fun t => t.blockState 0x100 = 2 && t.stopeState 0 = 4) = true) ∧
    (let s := { blocked 2 1 1 0 with smelts := [smeltX] }
     s.blockIdle 2 = false ∧ ok (exec (.blockIdleTimeout 2) s) (fun t => t.blockState 2 = 2 && t.reg Reg.rstForceCnt = 1) = true) ∧
    ok (exec (.blockResetHoldEnd 0x16) (blocked 0x16 2 1 0)) (fun t => t.blockState 0x16 = 3 && t.blockPend 0x16 = 1) = true ∧
    ok (exec (.blockReleaseEnd 0) (blocked 0 4 0 0)) (fun t => t.blockState 0 = 0) = true ∧
    ok (exec (.blockReleaseEnd 0) (blocked 0 4 0 1)) (fun t => t.blockState 0 = 1 && t.blockPend 0 = 0) = true ∧
    ok (exec (.blockReleaseEnd 0) (blocked 0 4 0 2)) (fun t => t.blockState 0 = 1 && t.blockPend 0 = 1) = true ∧
    ok (exec (.strapSample 253) (live fun l => { l with strapMode := 1 })) (fun t => t.fld Reg.rstStrap Fld.rstStrapCode = 15 && !t.flag Reg.rstStrap Fld.rstStrapFault) = true ∧
    ok (exec (.strapSample 254) (live fun l => { l with strapMode := 1 })) (fun t => t.fld Reg.rstStrap Fld.rstStrapCode = 0 && t.flag Reg.rstStrap Fld.rstStrapFault) = true ∧
    ok (exec (.strapSample 3) (live fun l => { l with strapMode := 2, strapLast := some 0, strapRun := 9 })) (fun t => t.lamp.strapMode = 0) = true ∧
    ok (exec (.strapSample 2) (live fun l => { l with strapMode := 2, strapBad := true, strapCount := 999 })) (fun t =>
      t.lamp.strapMode = 0 && t.flag Reg.rstStrap Fld.rstStrapFault) = true ∧
    ok (exec (.strapSample 254) (live fun l => { l with strapMode := 2, strapBad := true, strapCount := 998, strapLast := some 3, strapRun := 5 })) (fun t =>
      t.lamp.strapCount = 999 && t.lamp.strapRun = 0) = true ∧
    (let s := live fun l => { l with booted := false, badBanks := [0, 1], strapMode := 0 }
     s.flag Reg.rstStat Fld.rstStatRecovery = false ∧ s.firstInvalid 0 = some 1 ∧ s.firstInvalid 1 = some 1) := by decide +kernel

/-! ## Host port -/

/-- A tag that reads host memory in flight. -/
def hostTag : Tag := { tag0 with src := [(0x100000000000, 64)] }
theorem wit_HostPortServes :
    let s := live id
    let early := live fun l => { l with released := 3 }
    s.arrives .host = true ∧ s.arrives .foreman = true ∧ early.blockUp Reg.skpCtrl = false ∧
    ok (exec (.registerWrite .foreman Reg.skpCtrl 4 1 15) early) (fun t => t.regs == early.regs) = true ∧
    regSpecOf 0x1FFFFFC = none ∧
    ok (exec (.registerWrite .host 0x1FFFFFC 4 1 15) s) (fun t => t.reg Reg.lmpBadAccessCnt = 1) = true ∧
    ok (exec (.unassignedOffsetRead .host 0x1FFFFFC 4) s) (fun t => t.outbox = [.readData 0] && t.reg Reg.lmpBadAccessCnt = 1) = true ∧
    ok (exec (.registerWrite .host Reg.crwSwitchWait 4 77 15) s) (fun t => t.reg Reg.crwSwitchWait = 77) = true ∧
    ok (exec (.unassignedOffsetRead .host Reg.crwSwitchWait 4) s) (fun t => t.outbox = [.readData (s.reg Reg.crwSwitchWait)]) = true := by decide +kernel
theorem wit_HostPortServes_host :
    let s := (live id).setReg Reg.pciBar2Base0 0
    (s.barsOpen = true ∧ s.bar2Span (s.bar2Addr 64) 4 = .reach ∧
     ok (exec (.bar2Write 64 4 0x11223344 5) s) (fun t => t.readLE 64 4 = 0x00220044) = true ∧
     ok (exec (.bar2Read 64 4) { s with mem := [(67, 1)] }) (fun t => t.outbox = [.readData (2 ^ 24)]) = true) ∧
    (let s := s.setReg Reg.pciBar2Base1 0x70
     s.bar2Span (s.bar2Addr 0) 4 = .refuse ∧ ok (exec (.bar2Read 0 4) s) (fun t => t.outbox = [.abort] && t.reg Reg.memUnmappedCnt = 1) = true) ∧
    ok (exec (.eventStatClear 3 1) (s.setReg Reg.lmpEventStat 7)) (fun t => t.reg Reg.lmpEventStat = 5) = true ∧
    ok (exec (.eventEnableWrite 1) { s.setReg Reg.lmpEventStat 1 with port := { s.port with open_ := [(s.fld (Reg.lmpEventVec 0) Fld.lmpEventVecVec, true)] } })
      (fun t => t.outbox.length = 1) = true ∧
    ok (exec (.vectorUnmask 2047 false) { s with port := { s.port with waiting := [(2047, true)] } }) (fun t => t.outbox = [.msix 2047]) = true ∧
    ok (exec (.cageDoorbell 0x8000) s) (fun t => t.reg (Reg.lmpCageStat 15) = 1 && t.reg (Reg.lmpCageStat 0) = 0) = true := by decide +kernel
theorem wit_HostPortServes_link :
    let s := live id
    s.hostUp = true ∧ s.lamp.rstOut = false ∧ ok (exec (.configurationRequest (.power true)) s) (fun t => t.port.d3) = true ∧
    ok (exec (.configurationRequest (.bar2Size 39)) s) (fun t => t.port.bar2 = 39) = true ∧
    ok (exec (.configurationRequest (.ats true)) s) (fun t => t.port.atsOn) = true ∧
    ok (exec (.atsInvalidation 0 4096) { s with port := { s.port with atsOn := true, ats := [0x100000000, 0x100000001] } }) (fun t => t.port.ats = [0x100000001]) = true ∧
    (let s := skip1 1 { streaming with next := 64, tags := [hostTag] }
     s.tag? 1 1 4 = some ({ streaming with next := 64, tags := [hostTag] }, hostTag) ∧ s.hostRun (hostTag.src ++ hostTag.dst) = true ∧
     ok (exec (.hostCompletionTimeout 1 1 4) s) (fun t => t.reg Reg.pciCplErrCnt = 1 && t.fid = 1) = true) ∧
    (let s := withRegs up6 [(Reg.whsCtrl, 1), (Reg.whsFrame0, 2 ^ 32 - 1)]
     s.flag Reg.whsCtrl Fld.whsCtrlEn = true ∧ s.up 1 = true ∧ s.port.posted = [] ∧ s.waits = [] ∧
     ok (exec (.frameBoundary ⟨0, 0, 0, none, 0⟩) s) (fun t => t.frame = 2 ^ 32 && t.window) = true) := by decide +kernel

/-! ## Foreman and sideband -/

/-- The foreman has acknowledged cage 15 with an opcode, a request length and a request; long commands run; stopes 0 and 1 active. -/
def asked (opc n req : Nat) (longs : List LongCmd) : State :=
  { withRegs (live id) [(Reg.rstStat, 1), (Reg.dptStopeStat 0, 2 ^ 28), (Reg.dptStopeStat 1, 2 ^ 28)] with
    foreman := { Foreman.idle with acked := some ⟨15, packFields [(2, opc), (2, 0), (4, 99), (2, n), (6, 0)], req⟩, longs } }
/-- The status in cage 15 once it is DONE. -/
def cage15 (status : Nat) (t : State) : Bool := t.reg (Reg.lmpCageStat 15) = 3 && t.foreman.acked.isNone && t.readLE (cageAddr 15 + 16) 2 = status
theorem wit_ForemanServes :
    (asked 1 0 0 []).foremanUp = true ∧ (asked 1 0 0 []).foreman.acked.all (fun a => a.headerOk && getBytes a.head 0 2 = 1) = true ∧
    ok (exec (.reset .cage) (asked 3 1 1 [])) (fun t => cage15 0 t && t.lamp.due = [⟨5, 1, 10 ^ 14 + 10 ^ 8⟩]) = true ∧
    ok (exec (.reset (.sideband 3 1 0)) (asked 3 1 1 [])) (fun t => t.lamp.due = [⟨6, 0, 10 ^ 14 + 10 ^ 8⟩] && t.outbox = [.response 1 [0, 0]]) = true ∧
    ((asked 7 3 1 []).levelKeeps 1 = true ∧ ok (exec (.fence .cage) (asked 7 3 1 [])) (fun t => cage15 0 t && (t.stope 1).fence = 3) = true) ∧
    ((asked 7 3 143 []).levelKeeps 143 = false ∧ ok (exec (.fence .cage) (asked 7 3 143 [])) (cage15 6) = true) ∧
    (let s := (asked 7 3 0x10001 []).setReg (Reg.dptStopeStat 1) (4 * 2 ^ 28 + 3 * 2 ^ 24)
     s.stopeState 1 = 4 ∧ s.blockOn 0x101 = true ∧ ok (exec (.fence .cage) s) (fun t => cage15 0 t && (t.stope 1).returning) = true) := by decide +kernel
theorem wit_ForemanServes_long :
    ([(4, Instr.getWaitGraph), (5, .getHealth), (6, .getMeasLog), (8, .loadPack), (9, .setPackKey), (0xA, .fwStage), (0xC, .fwCommit), (0xD, .revokeSlot),
      (0xE, .raiseSvn)].all fun row => ok (exec (row.2 .cage) (asked row.1 96 0 [])) fun t => cage15 1 t && t.foreman.longs.map (·.opc) = [row.1]) = true ∧
    (let s := (asked 0xB 0 0 []).setFld Reg.lmpFwStat Fld.lmpFwStatStaged 1
     s.lamp.due = [] ∧ ok (exec (.fwActivate .cage) s) (cage15 1) = true) ∧
    (let c : LongCmd := ⟨7, 4, 99, 0, 2 ^ 64 * 64, 12, 0⟩
     let s := withRegs (asked 1 0 0 [c]) [(Reg.lmpCplqSize, 4)]
     (s.doLong c).map (fun e => (e.1, e.2.status, e.2.records, e.2.size)) = some (s, 0, [], 32) ∧ c.buf + c.buflen ≤ 0x100000000000 ∧
     ok (exec (.longCommandComplete 7) s) (fun t => t.foreman.longs.isEmpty && t.reg Reg.lmpCplqHead = 1 && t.readLE hostBase 4 = 99) = true) ∧
    (let c : LongCmd := ⟨7, 4, 0, 1, 0, 0, 0⟩
     ok (exec (.longCommandComplete 7) (asked 1 0 0 [c])) (fun t => t.outbox = [.response 1 [0, 0]]) = true) := by decide +kernel
theorem wit_SidebandAnswers :
    let s := live fun l => { l with packKey := 0 }
    (s.setPackKey 5).1 = { s with lamp := { s.lamp with packKey := 5 } } ∧ (s.setPackKey 5).2.status = 0 ∧ s.lamp.svn ≤ 0 ∧
    ok (exec (.i3cAddressAssign false 0 200) s) (fun t => t.foreman.i3c = some 72) = true ∧
    ok (exec (.i3cAddressAssign true 0x60 8) s) (fun t => t.foreman.i3c = some 8) = true ∧
    [0, 1, 2].all (fun v => s.spdmUp v) = true ∧
    ok (exec (.setEndpointId 0 300) s) (fun t => t.foreman.eidPcie = 44) = true ∧
    ok (exec (.getMessageTypeSupport 1) s) (fun t => t.outbox = [.response 1 [0, 1, 5, 0x7F]]) = true ∧
    ok (exec (.getVersion 2) s) (fun t => t.outbox = [.response 2 [0x13, 0x12]]) = true ∧
    ok (exec (.negotiateAlgorithms 0 true false) s) (fun t => t.outbox = [.unsupported 0]) = true ∧
    ok (exec (.getMeasurements 1 7 false 0) s) (fun t => t.outbox = [.response 1 []]) = true ∧
    s.foremanUp = true ∧ s.foreman.longs = [] ∧ ok (exec .pldmBaseRequest s) (fun t => t.outbox = [.response 1 [0, 2, 5]]) = true ∧
    ok (exec (.pldmFirmwareUpdate 0 0x4000000 5) s) (fun t => t.foreman.longs.map (·.via) = [2]) = true ∧
    ok (exec .activateFirmware (s.setFld Reg.lmpFwStat Fld.lmpFwStatStaged 1)) (fun t => t.foreman.longs.map (·.opc) = [0xB]) = true := by decide +kernel

/-! ## The queue, the invariant, words, ill-formed commands -/

theorem wit_EmptyQueueTicks :
    State.reset.pending = [] ∧ State.reset.port.posted = [] ∧ State.reset.lamp.blocks = [] ∧ State.reset.riffles = [] ∧ State.reset.foremanUp = false ∧
    ok (step State.reset) (fun t => t.cycle = 1 && t.ps = 10 ^ 6 / (800 + 25 * State.reset.freqCode)) = true := by decide +kernel
theorem wit_StepRunsFrontCommand : ok (step { up6 with pending := [.droopEvent 5 1, .powerOnReset] }) (fun t =>
    t.pending = [.powerOnReset] && t.reg (Reg.pwrDroopCnt 5) = 1) = true := by decide +kernel
theorem wit_StepKeepsInvariant :
    let s := { withRegs up6 [(Reg.crwSwitchWait, 77)] with mem := [(3, 1), (9, 255)], pending := [.bankGrant (.face 0) [req 6 [wr 64 2 0x0100]]] }
    s.Inv ∧ ok (step s) (fun t => t.mem.length = 3) = true := by decide +kernel
theorem wit_SlotCommandRoundTrip :
    slotOf (.tset cr12 (BitVec.ofNat 32 (2 * 2 ^ slotOpBit 5))) = some (5, cr12, 2, 2 * 2 ^ slotOpBit 5) ∧
    (2 * 2 ^ slotOpBit 5) >>> slotOpBit 5 = 2 := by decide +kernel
/-- Words written out from Tables 6.2, 7.2, 7.4, 7.8, 7.10, 7.12 and 7.14: a bundle with ADD s4, s1, s2 alone, and one slot of each kind. -/
theorem test_words :
    decodeBundle (BitVec.ofNat 256 (1 + 2 ^ 8 * (1 * 2 ^ 34 + 4 * 2 ^ 29 + 1 * 2 ^ 24 + 2 * 2 ^ 19))) =
      ⟨some (slot40 1 4 1 2 0), none, none, none, none, none, false, false⟩ ∧
    slotCommand 0 cr12 (0x17 * 2 ^ 34) = some (.movi cr12 (BitVec.ofNat 40 (0x17 * 2 ^ 34))) ∧
    slotCommand 1 cr12 (0x28 * 2 ^ 42) = some (.vred cr12 ⟨BitVec.ofNat 48 (0x28 * 2 ^ 42), false⟩) ∧
    slotCommand 2 cr12 (0x1A * 2 ^ 42) = some (.mtHr cr12 (BitVec.ofNat 48 (0x1A * 2 ^ 42))) ∧
    slotCommand 3 cr12 (0x06 * 2 ^ 34) = some (.ldlc cr12 (BitVec.ofNat 40 (0x06 * 2 ^ 34))) ∧
    slotCommand 4 cr12 (0x05 * 2 ^ 34) = some (.stladd cr12 (BitVec.ofNat 40 (0x05 * 2 ^ 34))) ∧
    slotCommand 5 cr12 (0x03 * 2 ^ 26) = some (.twait cr12 (BitVec.ofNat 32 (0x03 * 2 ^ 26))) := by decide +kernel
/-- Every check of WellFormed refuses something. -/
theorem test_ill_formed :
    ([.registerWrite .host 0 4 (2 ^ 32) 15, .registerWrite .host (2 ^ 26) 4 0 15, .registerWrite .host 0 0 0 0, .registerWrite .host 0 4 0 16,
      .unassignedOffsetRead .host (2 ^ 26) 4, .frameBoundary ⟨0, 0, 0, none, 4⟩, .canaryForce 144, .add ⟨144, 0⟩ 0, .add ⟨0, 16⟩ 0,
      .drillArrayCycle 0 5 false, .tileCommit 0 32, .onsetterDispatch 2, .twaitSatisfied (.shaft 256), .twaitSatisfied (.crew ⟨144, 0⟩),
      .configurationRequest (.bar2Size 64), .shaftDoorbell 0 (2 ^ 32), .nop 256, .tlyHostSet (2 ^ 16), .remoteSignalArrive ⟨0, 0, 256, 0, false, 0⟩,
      .sramRegionTest (.stockpile 2) 0 [], .correctionWriteback (.face 144) 0, .bankGrant (.face 0) [⟨16, [], none, none, 0, none, []⟩],
      .bankGrant (.face 0) [⟨0, [⟨0, 0, false, 0, 0, .clean⟩], none, none, 0, none, []⟩], .portPromote (.face 0) 0 16, .patrolScrub 8 []] : List Instr).all
      (fun i => !i.wf) = true := by decide +kernel
theorem test_ill_formed_rest :
    ([.interleaveWrite (2 ^ 32), .tagIssue 160, .streamResume (2 ^ 16), .cxlRequestTimeout 2 0 0, .cxlLinkDown 2, .aditTrain 24 0 0 0 0, .linkBlockSend 24,
      .linkBlockReceive 0 (2 ^ 4224) 0 true, .laneFail 0 4, .packetRoute (some 24) 0 false, .routeEntryWrite (2 ^ 26) 0, .galMarkWrite 16 0,
      .xackArrive (pkt0 (2 ^ 18)), .packAddressWrite 4 0, .whistleEnable 0 (2 ^ 18), .blockReset true 512, .strapSample 256, .getVersion 3,
      .getCapabilities 0 256, .getCertificate 0 256 0 0, .challenge 0 0 (2 ^ 256), .getMeasurements 0 256 false 0, .bar2Write 0 4 (2 ^ 32) 0,
      .eventStatClear 0 (2 ^ 18), .vectorUnmask 2048 true, .getInfo (.sideband 1 0 1), .longCommandComplete (2 ^ 32), .i3cAddressAssign true 128 0,
      .setEndpointId 0 256, .getMctpVersionSupport 3 0, .pldmFirmwareUpdate 2 0 0] : List Instr).all (fun i => !i.wf) = true := by decide +kernel

end Sys2Proof.Tests
end

section
/-!
What a read by an engine leaves as it stood (09 R238-R240, R255; 10 R282-R285; 18 R486): memory, the shafts, the steps
and every register of the block SFT. Descriptors and scope lists are read this way before a command of a shaft starts.
-/
namespace Sys2Proof.Machine

/-- From `s` to `t` nothing has changed that the start of a command of a shaft depends on: memory, shafts, dispatches,
steps, the values kept from the start of the cycle, and the registers at 0x300000 to 0x3FFFFF (block SFT, Table 19.3). -/
structure State.KeepsShafts (s t : State) : Prop where
  mem : t.mem = s.mem
  shafts : t.shafts = s.shafts
  dispatches : t.dispatches = s.dispatches
  steps : t.steps = s.steps
  seqNo : t.seqNo = s.seqNo
  wrote : t.wrote = s.wrote
  reg : ∀ off, off / 0x100000 = 3 → t.reg off = s.reg off

variable {s t u : State}

theorem State.KeepsShafts.refl (s : State) : s.KeepsShafts s := ⟨rfl, rfl, rfl, rfl, rfl, rfl, fun _ _ => rfl⟩

theorem State.KeepsShafts.trans (h : s.KeepsShafts t) (g : t.KeepsShafts u) : s.KeepsShafts u :=
  ⟨g.mem.trans h.mem, g.shafts.trans h.shafts, g.dispatches.trans h.dispatches, g.steps.trans h.steps,
   g.seqNo.trans h.seqNo, g.wrote.trans h.wrote, fun off ho => (g.reg off ho).trans (h.reg off ho)⟩

theorem State.KeepsShafts.foldl {α : Type} (f : State → α → State) (hf : ∀ (s : State) (a : α), s.KeepsShafts (f s a))
    (l : List α) (s : State) : s.KeepsShafts (l.foldl f s) := by
  induction l generalizing s with
  | nil => exact .refl s
  | cons a l ih => exact (hf s a).trans (ih _)

theorem State.KeepsShafts.ite {c : Prop} [Decidable c] (ht : s.KeepsShafts t) (hu : s.KeepsShafts u) :
    s.KeepsShafts (if c then t else u) := by
  split
  · exact ht
  · exact hu

/-- The state that a read answers beside its value. Stated apart, because Lean's kernel evaluates a read whose projection it has
to compare in place. -/
theorem State.KeepsShafts.fst {β : Type} (b : β) (h : s.KeepsShafts t) : s.KeepsShafts (t, b).1 := h

/-- The value that such a register had at the start of the cycle stands too (02 R57). -/
theorem State.KeepsShafts.was (h : s.KeepsShafts t) {off : Nat} (ho : off / 0x100000 = 3) : t.was off = s.was off := by
  unfold State.was
  rw [h.wrote, h.reg off ho]

/-! ## Registers of other blocks, and events -/

theorem State.setReg_keepsShafts (s : State) (off v : Nat) (h : off / 0x100000 ≠ 3) : s.KeepsShafts (s.setReg off v) :=
  ⟨rfl, rfl, rfl, rfl, rfl, rfl, fun _ ho => s.setReg_reg_ne v fun e => h (e ▸ ho)⟩

theorem State.bump_keepsShafts (s : State) (off : Nat) (h : off / 0x100000 ≠ 3) : s.KeepsShafts (s.bump off) :=
  s.setReg_keepsShafts off _ h

theorem State.KeepsShafts.hbms (l : Store HbmCtl) (h : s.KeepsShafts t) : s.KeepsShafts { t with hbms := l } :=
  ⟨h.mem, h.shafts, h.dispatches, h.steps, h.seqNo, h.wrote, h.reg⟩

theorem State.msix_keepsShafts (s : State) (vec : Nat) : s.KeepsShafts (s.msix vec) := by
  unfold State.msix
  split <;> exact ⟨rfl, rfl, rfl, rfl, rfl, rfl, fun _ _ => rfl⟩

theorem State.raise_keepsShafts (s : State) (e : Nat) : s.KeepsShafts (s.raise e) := by
  have hset : s.KeepsShafts (s.hwSet Reg.lmpEventStat (2 ^ e)) :=
    ⟨rfl, rfl, rfl, rfl, rfl, rfl, (s.setReg_keepsShafts Reg.lmpEventStat _ (by decide)).reg⟩
  unfold State.raise
  exact .ite (hset.trans (State.msix_keepsShafts _ _)) hset

theorem State.raiseIf_keepsShafts (s : State) (c : Bool) (e : Nat) : s.KeepsShafts (s.raiseIf c e) :=
  .ite (s.raise_keepsShafts e) (.refl s)

/-! ## Marked words (09 R255) -/

theorem State.noteUe_keepsShafts (s : State) (pa syn : Nat) : s.KeepsShafts (s.noteUe pa syn) := by
  have hface (st v : Nat) : s.KeepsShafts ((s.bump (Reg.memFaceUeCnt st)).setReg64 Reg.memUeAddr0 Reg.memUeAddr1 v) :=
    ((s.bump_keepsShafts _ (by unfold Reg.memFaceUeCnt; omega)).trans (State.setReg_keepsShafts _ _ _ (by decide))).trans
      (State.setReg_keepsShafts _ _ _ (by decide))
  have hsp (l v : Nat) : s.KeepsShafts ((s.bump (Reg.memSpUeCnt l)).setReg64 Reg.memUeAddr0 Reg.memUeAddr1 v) :=
    ((s.bump_keepsShafts _ (by unfold Reg.memSpUeCnt; omega)).trans (State.setReg_keepsShafts _ _ _ (by decide))).trans
      (State.setReg_keepsShafts _ _ _ (by decide))
  have hhbm (k v : Nat) : s.KeepsShafts ((s.bump (Reg.hbmUeCnt k)).setReg (Reg.hbmUeAddr k) v) :=
    (s.bump_keepsShafts _ (by unfold Reg.hbmUeCnt; omega)).trans
      (State.setReg_keepsShafts _ _ _ (by unfold Reg.hbmUeAddr; omega))
  unfold State.noteUe
  split
  · exact .refl s
  · exact .refl s
  · refine State.KeepsShafts.trans ?_ (State.raiseIf_keepsShafts _ _ _)
    split
    case h_1 k _ =>
      exact .hbms _ (.ite (hhbm k _) ((hhbm k _).trans (State.setReg_keepsShafts _ _ _ (by unfold Reg.hbmUeAddrTop; omega))))
    case h_2 st _ => exact (hface st _).trans (State.setReg_keepsShafts _ _ _ (by decide))
    case h_3 l _ => exact (hsp l _).trans (State.setReg_keepsShafts _ _ _ (by decide))
    · exact .refl s

theorem State.noteMarks_keepsShafts (s : State) (pa n : Nat) : s.KeepsShafts (s.noteMarks pa n) := by
  refine (State.KeepsShafts.foldl _ (fun s e => s.noteUe_keepsShafts _ _) _ s).trans (.foldl _ (fun s l => ?_) _ _)
  split
  · exact s.bump_keepsShafts _ (by unfold Reg.cxlPoisonCnt; omega)
  · exact .refl s

theorem State.freeWords_keepsShafts (s : State) (pa n v : Nat) (l : Store Nat) :
    s.KeepsShafts (s.freeWords pa n v l).1 := by
  induction l generalizing s v with
  | nil => exact .refl s
  | cons e l ih =>
    unfold State.freeWords
    dsimp only
    split
    · have hfree : s.KeepsShafts s.freeVal.2 := ⟨rfl, rfl, rfl, rfl, rfl, rfl, fun _ _ => rfl⟩
      exact hfree.trans (ih _ _)
    · exact ih _ _

theorem State.readMem_keepsShafts (s : State) (pa n : Nat) : s.KeepsShafts (s.readMem pa n).1 := by
  unfold State.readMem
  split
  · have hpoison (t : State) (c : Bool) : t.KeepsShafts (t.bumpIf c Reg.pciPoisonCnt) :=
      .ite (t.bump_keepsShafts _ (by decide)) (.refl t)
    exact ((s.noteMarks_keepsShafts pa n).trans (hpoison _ _)).trans (State.freeWords_keepsShafts _ _ _ _ _)
  · exact .refl s

theorem State.touch_keepsShafts (s : State) (pa : Nat) : s.KeepsShafts (s.touch pa) := by
  unfold State.touch
  split
  · exact ⟨rfl, rfl, rfl, rfl, rfl, rfl, fun _ _ => rfl⟩
  · exact .refl s

/-! ## Translation (10 R282, R283) -/

theorem State.readEntries_keepsShafts (s : State) (l : List Nat) : s.KeepsShafts (s.readEntries l) :=
  .foldl _ (fun s a =>
    have hnote : s.KeepsShafts (if s.marked a 8 then s.noteMarks a 8 else s) := .ite (s.noteMarks_keepsShafts a 8) (.refl s)
    hnote.trans (State.touch_keepsShafts _ a)) l s

theorem State.refuse_keepsShafts (s : State) : s.KeepsShafts s.refuse := s.bump_keepsShafts _ (by decide)

theorem State.setSkip_keepsShafts (s : State) (k : Nat) (x : Skip) : s.KeepsShafts (s.setSkip k x) :=
  ⟨rfl, rfl, rfl, rfl, rfl, rfl, fun _ _ => rfl⟩

theorem State.tlbPut_keepsShafts (s : State) (k : Option Nat) (e : TlbEntry) : s.KeepsShafts (s.tlbPut k e) := by
  have hcache (l : List TlbEntry) : s.KeepsShafts { s with hfTlb := l } := ⟨rfl, rfl, rfl, rfl, rfl, rfl, fun _ _ => rfl⟩
  unfold State.tlbPut
  split
  · exact (hcache _).trans (State.setSkip_keepsShafts _ _ _)
  · exact hcache _

theorem State.xlate_keepsShafts (s : State) (k : Option Nat) (va : Nat) (w : Bool) :
    s.KeepsShafts (s.xlate k va w).1 := by
  unfold State.xlate
  split
  · split
    · split
      · exact .refl s
      · exact s.refuse_keepsShafts
    · exact s.refuse_keepsShafts
  split
  · exact s.refuse_keepsShafts
  extract_lets cached r s'
  have hread : s.KeepsShafts s' := s.readEntries_keepsShafts _
  split
  · exact hread.trans (.ite s'.refuse_keepsShafts (.refl s'))
  split
  · exact hread
  extract_lets pa
  split
  · exact hread.trans (s'.tlbPut_keepsShafts _ _)
  · exact hread.trans s'.refuse_keepsShafts

theorem State.xlateSpan_keepsShafts (k : Option Nat) (w : Bool) (fuel : Nat) (s : State) (va n : Nat) :
    s.KeepsShafts (s.xlateSpan k va n w fuel).1 := by
  induction fuel generalizing s va n with
  | zero => exact .refl s
  | succ fuel ih =>
    have hx := s.xlate_keepsShafts k va w
    unfold State.xlateSpan
    dsimp only
    split
    · exact .refl s
    · split
      · next e => rwa [e] at hx
      · next s' pa e =>
        rw [e] at hx
        have hrest := hx.trans (ih s' (va + min n (2 ^ 16 - va % 2 ^ 16)) (n - min n (2 ^ 16 - va % 2 ^ 16)))
        split
        · next e => rwa [e] at hrest
        · next e => rwa [e] at hrest

/-! ## Reads of the control space and of physical runs -/

/-- The latch of the top bit of HBM_UE_ADDR (09 R265) changes a register of the block HBM alone. -/
theorem State.latchTop_keepsShafts (s : State) (h : Store HbmCtl) (k v : Nat) :
    s.KeepsShafts ({ s with hbms := h }.setReg (Reg.hbmUeAddrTop k) v) :=
  (State.KeepsShafts.hbms h (.refl s)).trans (State.setReg_keepsShafts _ _ _ (by unfold Reg.hbmUeAddrTop; omega))

theorem State.readReg_keepsShafts (s : State) (off : Nat) : s.KeepsShafts (s.readReg off).1 := by
  unfold State.readReg
  split
  · exact .refl s
  · split
    · exact s.bump_keepsShafts _ (by decide)
    · dsimp only
      split
      · exact s.latchTop_keepsShafts _ _ _
      · unfold State.unlatchTop
        split
        · exact s.latchTop_keepsShafts _ _ _
        · exact .refl s

theorem State.ctlRead_keepsShafts (s : State) (off n : Nat) : s.KeepsShafts (s.ctlRead off n).1 := by
  unfold State.ctlRead
  split
  · exact .refl s
  split
  · exact .refl s
  split
  · exact s.readReg_keepsShafts off
  split
  · exact (s.readReg_keepsShafts off).trans (State.readReg_keepsShafts _ _)
  · exact s.bump_keepsShafts _ (by decide)

theorem State.readRuns_keepsShafts (l : List (Nat × Nat)) (s : State) : s.KeepsShafts (s.readRuns l).1 := by
  induction l generalizing s with
  | nil => exact .refl s
  | cons r l ih =>
    unfold State.readRuns
    dsimp only
    refine State.KeepsShafts.trans ?_ (ih _)
    refine State.KeepsShafts.trans ?_ (State.touch_keepsShafts _ _)
    split
    · exact .fst _ (s.ctlRead_keepsShafts _ _)
    · exact s.readMem_keepsShafts _ _

/-! ## Reads of an engine -/

theorem State.devRuns_keepsShafts (s : State) (k : Option Nat) (va n : Nat) (w : Bool) :
    s.KeepsShafts (s.devRuns k va n w).1 := by
  have hx := s.xlateSpan_keepsShafts k w (spanPages n) va n
  unfold State.devRuns
  split
  · next e => rwa [e] at hx
  · next e =>
    rw [e] at hx
    split
    · exact hx.trans (State.setReg_keepsShafts _ _ _ (by unfold Reg.cxlErrCnt; omega))
    · exact hx

theorem State.devRead_keepsShafts (s : State) (k : Option Nat) (va n : Nat) : s.KeepsShafts (s.devRead k va n).1 := by
  have hr := s.devRuns_keepsShafts k va n false
  unfold State.devRead
  split
  · next e => rwa [e] at hr
  · next e =>
    rw [e] at hr
    exact hr.trans (State.readRuns_keepsShafts _ _)

theorem State.readDesc_keepsShafts (s : State) (k : Option Nat) (va : Nat) : s.KeepsShafts (s.readDesc k va).1 := by
  have hr := s.devRead_keepsShafts k va 64
  unfold State.readDesc
  split
  · next e => rwa [e] at hr
  · next e => rwa [e] at hr

theorem State.readDescs_keepsShafts (l : List Nat) (s : State) : s.KeepsShafts (s.readDescs l).1 := by
  induction l generalizing s with
  | nil => exact .refl s
  | cons a l ih =>
    unfold State.readDescs
    dsimp only
    split
    · exact (s.readDesc_keepsShafts none a).trans (ih _)
    · exact (s.readDesc_keepsShafts none a).trans (ih _)

end Sys2Proof.Machine
end

section
/-!
How the head command of a shaft starts, is held or is refused (08 R210, R212), for STEP_BEGIN (R214, R215) and DISPATCH (R218).
-/
namespace Sys2Proof.Machine

variable {s t : State} {n op : Nat} {c : Command} {x : Started} {f : State → Command → State × Verdict}

/-! ## The record of a shaft -/

@[simp] theorem State.modShaft_shaft (s : State) (n : Nat) (g : Shaft → Shaft) : (s.modShaft n g).shaft n = g (s.shaft n) :=
  Store.get_set_self _ _ _ _

theorem State.shaft_of_shafts (h : t.shafts = s.shafts) (n : Nat) : t.shaft n = s.shaft n := by
  unfold State.shaft; rw [h]

theorem State.reg_of_regs (h : t.regs = s.regs) (off : Nat) : t.reg off = s.reg off := by
  unfold State.reg; rw [h]

@[simp] theorem State.beginCommand_shaft (s : State) (n : Nat) (x : Started) :
    (s.beginCommand n x).shaft n =
      { s.shaft n with decoded := (s.shaft n).decoded.drop 1, started := (s.shaft n).started ++ [x] } :=
  s.modShaft_shaft n _

@[simp] theorem State.beginCommand_mem (s : State) (n : Nat) (x : Started) : (s.beginCommand n x).mem = s.mem := by
  simp [State.beginCommand]

@[simp] theorem State.beginCommand_steps (s : State) (n : Nat) (x : Started) : (s.beginCommand n x).steps = s.steps := by
  simp [State.beginCommand]

@[simp] theorem State.beginCommand_reg (s : State) (n : Nat) (x : Started) (off : Nat) :
    (s.beginCommand n x).reg off = s.reg off :=
  State.reg_of_regs (by simp [State.beginCommand]) off

/-- A command that begins with its work done, in a state whose shaft and HEAD stand as in `s`, has started from `s`. -/
theorem State.beginCommand_startsDone (hdone : x.state = .done) (hdecoded : (t.shaft n).decoded = (s.shaft n).decoded)
    (hstarted : (t.shaft n).started = (s.shaft n).started) (hhead : t.reg (Reg.sftHead n) = s.reg (Reg.sftHead n)) :
    startsDone n x.cmd s (t.beginCommand n x) := by
  refine ⟨x, rfl, hdone, ?_, ?_, (t.beginCommand_reg n x _).trans hhead⟩
  · simp [hstarted]
  · simp [hdecoded]

/-! ## The start of a head command -/

/-- A command that no engine of Table 18.4 executes is shut by no block reset (18 R488). -/
theorem State.engineHead_of_shaftOp (hc : s.headCommand n = some c) (hread : c.unread = false) (hhdr : c.badHeader = false)
    (hop : c.op = op) (hlow : op < 0x10) : s.engineHead n op c := by
  refine ⟨hc, hread, hhdr, hop, ?_⟩
  have hblock : c.block = none := by
    unfold Command.block
    split
    case h_6 => rfl
    all_goals omega
  simp [State.engineShut, hblock]

theorem State.startCommand_start (h : s.engineHead n op c) (hf : f s c = (t, .start x)) :
    s.startCommand n op f = t.beginCommand n x := by
  obtain ⟨hc, hread, hhdr, hop, hshut⟩ := h
  simp [State.startCommand, hc, hread, hhdr, hop, hshut, hf]

theorem State.startCommand_hold (h : s.engineHead n op c) (hf : f s c = (t, .hold)) : s.startCommand n op f = t := by
  obtain ⟨hc, hread, hhdr, hop, hshut⟩ := h
  simp [State.startCommand, hc, hread, hhdr, hop, hshut, hf]

theorem State.startCommand_refuse {k : Nat} (h : s.engineHead n op c) (hf : f s c = (t, .refuse k)) :
    s.startCommand n op f = t.refuseCommand n c k := by
  obtain ⟨hc, hread, hhdr, hop, hshut⟩ := h
  simp [State.startCommand, hc, hread, hhdr, hop, hshut, hf]

/-- A head command of another opcode does not start. -/
theorem State.startCommand_otherOp (h : ∀ c, s.headCommand n = some c → c.op ≠ op) : s.startCommand n op f = s := by
  unfold State.startCommand
  split
  · rfl
  · next c hc => simp [h c hc]

/-! ## Refusal (08 R212) -/

/-- The cause of a refusal and the halt stand in SFT_SHAFT_STAT, and the command is judged again on RESUME (R212, R235). -/
def State.haltRefused (s : State) (n : Nat) (c : Command) (k : Nat) : State :=
  (s.setReg (Reg.sftShaftStat n) (2 ^ 30 + k % 256 * 2 ^ 16 + c.pos % 2 ^ 16)).modShaft n fun h => { h with rejudge := true }

theorem State.refuseCommand_keepsShafts (s : State) (n : Nat) (c : Command) (k : Nat) :
    (s.haltRefused n c k).KeepsShafts (s.refuseCommand n c k) :=
  State.raiseIf_keepsShafts _ _ _

theorem State.refuseCommand_stat (s : State) (c : Command) (k : Nat) (hn : n < 256) :
    (s.refuseCommand n c k).reg (Reg.sftShaftStat n) = 2 ^ 30 + k % 256 * 2 ^ 16 + c.pos % 2 ^ 16 := by
  have hsft : Reg.sftShaftStat n / 0x100000 = 3 := by unfold Reg.sftShaftStat; omega
  have hset : (s.haltRefused n c k).reg (Reg.sftShaftStat n) = (2 ^ 30 + k % 256 * 2 ^ 16 + c.pos % 2 ^ 16) % 2 ^ 32 :=
    (State.reg_of_regs (by simp [State.haltRefused]) _).trans (s.setReg_reg _ _)
  rw [(s.refuseCommand_keepsShafts n c k).reg _ hsft, hset]
  omega

theorem State.refuseCommand_mem (s : State) (n : Nat) (c : Command) (k : Nat) : (s.refuseCommand n c k).mem = s.mem :=
  (s.refuseCommand_keepsShafts n c k).mem.trans (by simp [State.haltRefused])

theorem State.refuseCommand_steps (s : State) (n : Nat) (c : Command) (k : Nat) : (s.refuseCommand n c k).steps = s.steps :=
  (s.refuseCommand_keepsShafts n c k).steps.trans (by simp [State.haltRefused])

theorem State.refuseCommand_dispatches (s : State) (n : Nat) (c : Command) (k : Nat) :
    (s.refuseCommand n c k).dispatches = s.dispatches :=
  (s.refuseCommand_keepsShafts n c k).dispatches.trans (by simp [State.haltRefused])

theorem State.refuseCommand_shaft (s : State) (n : Nat) (c : Command) (k : Nat) :
    (s.refuseCommand n c k).shaft n = { s.shaft n with rejudge := true } := by
  have hset (v : Nat) : (s.setReg (Reg.sftShaftStat n) v).shaft n = s.shaft n := State.shaft_of_shafts (by simp) n
  rw [State.shaft_of_shafts (s.refuseCommand_keepsShafts n c k).shafts n, State.haltRefused, State.modShaft_shaft, hset]

/-! ## Steps (08 R214, R215) -/

theorem State.topStep_eq_max? (s : State) :
    s.topStep = ((s.steps.filter fun r => r.id.seq = s.seqNo).map (·.id.num)).max? := by
  unfold State.topStep
  split
  · next e => rw [e]; rfl
  · next e => rw [e, List.max?_cons']

/-- No step of a number above every number begun in the sequence has begun. -/
theorem State.step?_of_newStep {num : Nat} (h : s.newStep num = true) : s.step? ⟨s.seqNo, num⟩ = none := by
  refine List.find?_eq_none.2 fun r hr hid => ?_
  have hid : r.id = ⟨s.seqNo, num⟩ := of_decide_eq_true hid
  have hmem : num ∈ (s.steps.filter fun r => r.id.seq = s.seqNo).map (·.id.num) :=
    List.mem_map.2 ⟨r, List.mem_filter.2 ⟨hr, by simp [hid]⟩, by simp [hid]⟩
  unfold State.newStep at h
  split at h
  · next top e =>
    have hle : num ≤ top := (List.max?_eq_some_iff.1 (s.topStep_eq_max? ▸ e)).2 num hmem
    simp at h
    omega
  · next e =>
    rw [s.topStep_eq_max?, List.max?_eq_none_iff] at e
    simp [e] at hmem

theorem State.modStep_step? (s : State) (id : StepId) (g : StepRec → StepRec) (hg : ∀ r, (g r).id = r.id) :
    (s.modStep id g).step? id = (s.step? id).map g := by
  have hkey (r : StepRec) : decide ((if r.id = id then g r else r).id = id) = decide (r.id = id) := by
    split <;> simp [hg]
  unfold State.modStep State.step?
  rw [List.find?_map, Function.comp_def]
  simp only [hkey]
  refine Option.map_congr fun r hr => ?_
  rw [if_pos (of_decide_eq_true (List.find?_some hr :))]

/-- The step begun has latched the job seed as it stood before this cycle (02 R57). -/
theorem State.beginStep_step? {id : StepId} (h : s.step? id = none) :
    ∃ r, (s.beginStep id).step? id = some r ∧ r.seed = s.was Reg.sftJobSeed0 + s.was Reg.sftJobSeed1 * 2 ^ 32 ∧
      r.state = .begun := by
  have happ (r : StepRec) (hr : r.id = id) : (s.steps ++ [r]).find? (fun r => r.id = id) = some r := by
    rw [List.find?_append, show s.steps.find? _ = none from h, List.find?_singleton, if_pos (decide_eq_true hr)]
    rfl
  exact ⟨_, happ _ rfl, rfl, rfl⟩

/-- A STEP_BEGIN of the step stands in shaft `n`. -/
def StepRec.withShaft (n : Nat) (r : StepRec) : StepRec := { r with shafts := r.shafts ++ [n] }

/-- SFT_STEP_NUM shows a step number (02 Table 2.8). -/
def State.showStep (s : State) (num : Nat) : State := (s.setReg Reg.sftStepNum0 num).setReg Reg.sftStepNum1 (num / 2 ^ 32)

/-- A step becomes the current one of a shaft. -/
def Shaft.enter (id : StepId) (h : Shaft) : Shaft := { h with step := some id }

/-- STEP_BEGIN makes a step, begun before or now, the current one of its shaft (R214). -/
def State.openStep (s : State) (n : Nat) (id : StepId) (joins : Bool) : State :=
  (((if joins then s else s.beginStep id).showStep id.num).modShaft n (Shaft.enter id)).modStep id (StepRec.withShaft n)

theorem State.showStep_stepNum (s : State) {num : Nat} (h : num < 2 ^ 64) :
    (s.showStep num).reg64 Reg.sftStepNum0 Reg.sftStepNum1 = num := by
  have hlo : (s.showStep num).reg Reg.sftStepNum0 = num % 2 ^ 32 :=
    (State.setReg_reg_ne _ _ (by decide)).trans (s.setReg_reg _ _)
  have hhi : (s.showStep num).reg Reg.sftStepNum1 = num / 2 ^ 32 % 2 ^ 32 := State.setReg_reg _ _ _
  rw [State.reg64, hlo, hhi]
  omega

theorem State.openStep_mem (s : State) (n : Nat) (id : StepId) (j : Bool) : (s.openStep n id j).mem = s.mem := by
  cases j <;> rfl

theorem State.openStep_shaft (s : State) (n : Nat) (id : StepId) (j : Bool) :
    (s.openStep n id j).shaft n = (s.shaft n).enter id := by
  cases j <;> exact State.modShaft_shaft _ n (Shaft.enter id)

theorem State.openStep_showStep (s : State) (n : Nat) (id : StepId) (j : Bool) (off : Nat) :
    (s.openStep n id j).reg off = ((if j then s else s.beginStep id).showStep id.num).reg off :=
  State.reg_of_regs (by simp [State.openStep]) off

theorem State.openStep_stepNum (s : State) (n : Nat) (id : StepId) (j : Bool) (hid : id.num < 2 ^ 64) :
    (s.openStep n id j).reg64 Reg.sftStepNum0 Reg.sftStepNum1 = id.num := by
  rw [State.reg64, s.openStep_showStep, s.openStep_showStep]
  exact State.showStep_stepNum _ hid

/-- The registers of the shafts themselves stand when a step opens. -/
theorem State.openStep_reg (s : State) (n : Nat) (id : StepId) (j : Bool) {off : Nat} (h : 0x301000 ≤ off) :
    (s.openStep n id j).reg off = s.reg off := by
  have hset (u : State) (k v : Nat) (hk : k < 0x301000) : (u.setReg k v).reg off = u.reg off :=
    u.setReg_reg_ne v (by omega)
  have hshow (u : State) : (u.showStep id.num).reg off = u.reg off := (hset _ _ _ (by decide)).trans (hset _ _ _ (by decide))
  rw [s.openStep_showStep, hshow]
  cases j with
  | true => rfl
  | false => exact hset _ Reg.sftSteps _ (by decide)

theorem State.openStep_steps_length (s : State) (n : Nat) (id : StepId) (j : Bool) :
    (s.openStep n id j).steps.length = s.steps.length + if j then 0 else 1 := by
  cases j with
  | true => exact List.length_map _
  | false => exact (List.length_map _).trans List.length_append

/-- The step that a STEP_BEGIN names, joined or begun, holds its shaft; a step begun now has latched the seed. -/
theorem State.openStep_step? {id : StepId} {j : Bool} (n : Nat) (hj : (s.step? id).any (·.unsealed) = j)
    (hnew : j = false → s.step? id = none) :
    ∃ r : StepRec, (s.openStep n id j).step? id = some r ∧ n ∈ r.shafts ∧
      (j = false → r.seed = s.was Reg.sftJobSeed0 + s.was Reg.sftJobSeed1 * 2 ^ 32 ∧ r.state = .begun) := by
  have hshaft (r : StepRec) : n ∈ (r.withShaft n).shafts := by simp [StepRec.withShaft]
  have hopen : (s.openStep n id j).step? id =
      ((if j then s else s.beginStep id).step? id).map (StepRec.withShaft n) :=
    State.modStep_step? _ id (StepRec.withShaft n) fun _ => rfl
  cases j with
  | true =>
    obtain ⟨r, hr, -⟩ := (Option.any_eq_true _ _).1 hj
    exact ⟨r.withShaft n, hopen.trans (congrArg _ hr), hshaft r, nofun⟩
  | false =>
    obtain ⟨r, hr, hrec⟩ := State.beginStep_step? (hnew rfl)
    exact ⟨r.withShaft n, hopen.trans (congrArg _ hr), hshaft r, fun _ => hrec⟩

/-- The scope list of a STEP_BEGIN is readable, and so are the tensors `ts` it names, which stand read in `t` (R214). -/
def State.ReadsScope (s : State) (c : Command) (t : State) (ts : List TensorDesc) : Prop :=
  ∃ s1 w, (if c.get 32 4 = 0 then (s, .ok (0, false)) else s.devRead none (c.get 24 8) (8 * c.get 32 4)) = (s1, .ok (w, false)) ∧
    s1.readDescs ((List.range (c.get 32 4)).map fun k => getBytes w (8 * k) 8) = (t, ts, [])

theorem State.readsScope_nil (s : State) (h : c.get 32 4 = 0) : s.ReadsScope c s [] :=
  ⟨s, 0, by simp [h], by simp [h, State.readDescs]⟩

theorem State.ReadsScope.keepsShafts {ts : List TensorDesc} (h : s.ReadsScope c t ts) : s.KeepsShafts t := by
  obtain ⟨s1, w, hlist, hdescs⟩ := h
  have hl : s.KeepsShafts s1 := by
    split at hlist
    · cases hlist; exact .refl s
    · have := s.devRead_keepsShafts none (c.get 24 8) (8 * c.get 32 4)
      rwa [hlist] at this
  have hd := s1.readDescs_keepsShafts ((List.range (c.get 32 4)).map fun k => getBytes w (8 * k) 8) 
  rw [hdescs] at hd
  exact hl.trans hd

theorem foldl_assayClear_of_unscoped (ts : List TensorDesc) (h : ∀ d ∈ ts, d.stepScoped = false) (s : State) :
    ts.foldl (fun s d => if d.stepScoped then s.assayClear none d else s) s = s := by
  induction ts with
  | nil => rfl
  | cons d ts ih =>
    rw [List.foldl_cons, h d List.mem_cons_self]
    exact ih fun e he => h e (List.mem_cons_of_mem _ he)

section StepBegin
variable {ts : List TensorDesc} (h : s.engineHead n 2 c) (hscope : s.ReadsScope c t ts) (halign : c.get 24 8 % 8 = 0)
  (hrsv : c.get 36 28 = 0)
include h hscope halign hrsv

theorem execStepBegin_start (hts : ∀ d ∈ ts, d.stepScoped = false)
    (hmay : (s.step? ⟨s.seqNo, c.get 16 8⟩).any (·.unsealed) = true ∨ s.newStep (c.get 16 8) = true ∧ s.inflight < 4) :
    execStepBegin n s = .next
      ((t.openStep n ⟨s.seqNo, c.get 16 8⟩ ((s.step? ⟨s.seqNo, c.get 16 8⟩).any (·.unsealed))).beginCommand n
        ((t.openStep n ⟨s.seqNo, c.get 16 8⟩ ((s.step? ⟨s.seqNo, c.get 16 8⟩).any (·.unsealed))).startedAs n c .done)) := by
  obtain ⟨s1, w, hlist, hdescs⟩ := hscope
  refine congrArg Host.Outcome.next (State.startCommand_start h ?_)
  have hnew : (!(s.step? ⟨s.seqNo, c.get 16 8⟩).any (·.unsealed) && !s.newStep (c.get 16 8)) = false := by
    rcases hmay with hj | ⟨hn, -⟩ <;> simp [*]
  have hroom : (!(s.step? ⟨s.seqNo, c.get 16 8⟩).any (·.unsealed) && decide (4 ≤ s.inflight)) = false := by
    rcases hmay with hj | ⟨-, hi⟩ <;> simp [*]
  simp only [hlist, hdescs, halign, hrsv, firstCause, hnew, hroom, foldl_assayClear_of_unscoped ts hts, ne_eq,
    not_true_eq_false, decide_false, Bool.false_eq_true, if_false, List.contains_nil, Bool.or_self]
  rfl

theorem execStepBegin_hold (hjoin : (s.step? ⟨s.seqNo, c.get 16 8⟩).any (·.unsealed) = false)
    (hnew : s.newStep (c.get 16 8) = true) (hfull : 4 ≤ s.inflight) : execStepBegin n s = .next s := by
  obtain ⟨s1, w, hlist, hdescs⟩ := hscope
  refine congrArg Host.Outcome.next (State.startCommand_hold h ?_)
  simp only [hlist, hdescs, halign, hrsv, firstCause, hjoin, hnew]
  simp [hfull]

theorem execStepBegin_refuse (hjoin : (s.step? ⟨s.seqNo, c.get 16 8⟩).any (·.unsealed) = false)
    (hold : s.newStep (c.get 16 8) = false) : execStepBegin n s = .next (t.refuseCommand n c 7) := by
  obtain ⟨s1, w, hlist, hdescs⟩ := hscope
  refine congrArg Host.Outcome.next (State.startCommand_refuse h ?_)
  simp only [hlist, hdescs, halign, hrsv, firstCause, hjoin, hold]
  simp

end StepBegin

/-! ## Reserved opcodes (08 R212, R213) -/

theorem State.refuseReserved_of_dispatch (h : s.engineHead n 3 c) : s.refuseReserved n = s := by
  obtain ⟨hc, hread, -, hop, -⟩ := h
  simp [State.refuseReserved, hc, hread, hop, shaftOps]

theorem State.refuseReserved_of_reserved (hc : s.headCommand n = some c) (hread : c.unread = false)
    (hop : shaftOps.contains c.op = false) : s.refuseReserved n = s.refuseCommand n c 1 := by
  simp [State.refuseReserved, hc, hread, -List.contains_eq_mem, hop]

/-- The command at the head of a shaft is the first one decoded. -/
theorem State.decoded_of_headCommand (h : s.headCommand n = some c) : (s.shaft n).decoded.head? = some c := by
  unfold State.headCommand at h
  split at h
  · next d l e =>
    split at h
    · simpa [e] using h
    · simp at h
  · simp at h

/-- A reserved opcode is refused with cause 1, and nothing starts (R212). -/
theorem execDispatch_reserved (hc : s.headCommand n = some c) (hread : c.unread = false)
    (hop : shaftOps.contains c.op = false) : execDispatch n s = .next (s.refuseCommand n c 1) := by
  have hne : c.op ≠ 3 := fun e => by simp [e, shaftOps] at hop
  unfold execDispatch
  rw [State.refuseReserved_of_reserved hc hread hop, State.startCommand_otherOp]
  intro d hd
  have hdec := State.decoded_of_headCommand hd
  rw [State.refuseCommand_shaft, State.decoded_of_headCommand hc] at hdec
  exact Option.some.inj hdec ▸ hne

/-! ## DISPATCH (08 R218-R220) -/

/-- A DISPATCH keeps the rules of Table 8.5: its reserved bits are 0, its addresses and lengths are aligned and in range, and it
names a level. -/
structure Command.DispatchSound (c : Command) : Prop where
  reserved : ¬(c.get 44 1 / 4 ≠ 0 ∨ c.get 45 1 / 2 ≠ 0 ∨ c.get 48 16 ≠ 0)
  placed : ¬(c.get 16 8 % 32 ≠ 0 ∨ c.get 28 4 % 32 ≠ 0 ∨ 0x100000 < c.get 28 4 ∨ c.get 32 8 % 32 ≠ 0 ∨ c.get 40 4 % 32 ≠ 0 ∨
    postRow < c.get 40 4 + c.get 28 4 ∨ 2 ^ 57 < c.get 16 8 + 32 * c.get 24 4 ∨ 2 ^ 57 < c.get 32 8 + c.get 28 4)
  level : ¬c.get 44 1 = 0

/-- The dispatch in progress that a DISPATCH with a work list begins (R218). -/
def State.newDispatch (s : State) (n : Nat) (c : Command) (step : StepId) : Dispatch :=
  { id := s.fresh + 1, shaft := n, cmd := c.id, pos := c.pos, step, list := c.get 16 8, count := c.get 24 4, klen := c.get 28 4,
    kimg := c.get 32 8, kface := c.get 40 4, levels := c.get 44 1,
    itally := if c.get 45 1 = 1 then some (c.get 46 2) else none, prio := 0, next := 0, finished := 0,
    waitSince := s.cycle, copied := [], copying := [], copyFailed := [] }

/-- The dispatch joins those in progress under a fresh identifier. -/
def State.addDispatch (s : State) (n : Nat) (c : Command) (step : StepId) : State :=
  { s with fresh := s.fresh + 1, dispatches := s.dispatches ++ [s.newDispatch n c step] }

section Dispatch
variable (h : s.engineHead n 3 c) (hsound : c.DispatchSound)
include h hsound

theorem execDispatch_noStep (hstep : (s.shaft n).step = none) : execDispatch n s = .next (s.refuseCommand n c 7) := by
  unfold execDispatch
  rw [State.refuseReserved_of_dispatch h]
  refine congrArg Host.Outcome.next (State.startCommand_refuse h ?_)
  simp only [firstCause, decide_eq_false hsound.reserved, decide_eq_false hsound.placed, decide_eq_false hsound.level, hstep,
    Option.isNone_none, Bool.false_eq_true, if_false, if_true]

theorem execDispatch_empty {st : StepId} (hstep : (s.shaft n).step = some st) (hcount : c.get 24 4 = 0) :
    execDispatch n s = .next (s.beginCommand n (s.startedAs n c .done)) := by
  unfold execDispatch
  rw [State.refuseReserved_of_dispatch h]
  refine congrArg Host.Outcome.next (State.startCommand_start h ?_)
  simp only [firstCause, decide_eq_false hsound.reserved, decide_eq_false hsound.placed, decide_eq_false hsound.level, hstep,
    Option.isNone_some, Bool.false_eq_true, if_false]
  exact if_pos hcount

theorem execDispatch_works {st : StepId} (hstep : (s.shaft n).step = some st) (hcount : c.get 24 4 ≠ 0) :
    execDispatch n s = .next ((s.addDispatch n c st).beginCommand n (s.startedAs n c .working)) := by
  unfold execDispatch
  rw [State.refuseReserved_of_dispatch h]
  refine congrArg Host.Outcome.next (State.startCommand_start h ?_)
  simp only [firstCause, decide_eq_false hsound.reserved, decide_eq_false hsound.placed, decide_eq_false hsound.level, hstep,
    Option.isNone_some, Bool.false_eq_true, if_false, hcount]
  rfl

end Dispatch

end Sys2Proof.Machine
end

section
/-!
STEP_BEGIN and DISPATCH start or are refused, and a reserved opcode halts its shaft (08 R212, R214, R215, R218): the obligation.
-/
namespace Sys2Proof.Machine

/-- A STEP_BEGIN that may start makes its step the current one of the shaft (R214, R215). -/
theorem stepBegin_starts {n num : Nat} {s s2 : State} {c : Command} {ts : List TensorDesc} (hn : n < 256)
    (h : s.engineHead n 2 c) (hnum : num = c.get 16 8) (halign : c.get 24 8 % 8 = 0) (hrsv : c.get 36 28 = 0)
    (hscope : s.ReadsScope c s2 ts) (hts : ∀ t ∈ ts, t.stepScoped = false)
    (hmay : (s.step? ⟨s.seqNo, num⟩).any (·.unsealed) = true ∨ s.newStep num = true ∧ s.inflight < 4) :
    ∃ t r, exec (.stepBegin n) s = .next t ∧ t.mem = s.mem ∧ startsDone n c s t ∧ (t.shaft n).step = some ⟨s.seqNo, num⟩ ∧
      t.reg64 Reg.sftStepNum0 Reg.sftStepNum1 = num ∧ t.step? ⟨s.seqNo, num⟩ = some r ∧ n ∈ r.shafts ∧
      ((s.step? ⟨s.seqNo, num⟩).any (·.unsealed) = false →
        r.seed = s.was Reg.sftJobSeed0 + s.was Reg.sftJobSeed1 * 2 ^ 32 ∧ r.state = .begun) ∧
      t.steps.length = s.steps.length + (if (s.step? ⟨s.seqNo, num⟩).any (·.unsealed) then 0 else 1) := by
  subst hnum
  have hkeep := hscope.keepsShafts
  have hshaft := State.shaft_of_shafts hkeep.shafts n
  have hstep? (id : StepId) : s2.step? id = s.step? id := by unfold State.step?; rw [hkeep.steps]
  have hnew (hj : (s.step? ⟨s.seqNo, c.get 16 8⟩).any (·.unsealed) = false) : s2.step? ⟨s.seqNo, c.get 16 8⟩ = none := by
    rcases hmay with hj' | ⟨hnew, -⟩
    · exact absurd (hj'.symm.trans hj) (by decide)
    · exact (hstep? _).trans (State.step?_of_newStep hnew)
  obtain ⟨r, hr, hmem, hrec⟩ := State.openStep_step? n (congrArg (Option.any _) (hstep? _)) hnew
  rw [hkeep.was (by decide), hkeep.was (by decide)] at hrec
  refine ⟨_, r, execStepBegin_start h hscope halign hrsv hts hmay, ?_, ?_, ?_, ?_, hr, hmem, hrec, ?_⟩
  · rw [State.beginCommand_mem, State.openStep_mem, hkeep.mem]
  · refine State.beginCommand_startsDone (x := State.startedAs _ n c .done) rfl ?_ ?_ ?_
    · rw [State.openStep_shaft, hshaft]; rfl
    · rw [State.openStep_shaft, hshaft]; rfl
    · rw [State.openStep_reg _ _ _ _ (by unfold Reg.sftHead; omega)]
      exact hkeep.reg _ (by unfold Reg.sftHead; omega)
  · rw [State.beginCommand_shaft, State.openStep_shaft]; rfl
  · rw [State.reg64, State.beginCommand_reg, State.beginCommand_reg]
    exact State.openStep_stepNum s2 n ⟨s.seqNo, c.get 16 8⟩ _ (Nat.mod_lt _ (by decide))
  · rw [State.beginCommand_steps, State.openStep_steps_length, hkeep.steps]

/-- Settles O37. The scope list is read without touching what a start depends on (`State.KeepsShafts`), so the verdict of each
command is that of the state it met. -/
theorem stepsAndDispatchesStart : Obligations.StepsAndDispatchesStart := by
  refine ⟨?_, ?_, ?_, ?_⟩
  · intro n w s s1 s2 c num ts hn hc hread hhdr hop hnum halign hrsv hlist hdescs hts hmay
    exact stepBegin_starts hn (State.engineHead_of_shaftOp hc hread hhdr hop (by decide)) hnum halign hrsv
      ⟨s1, w, hlist, hdescs⟩ hts hmay
  · intro n s c num hn hc hread hhdr hop hnum halign hempty hrsv hjoin
    subst hnum
    have h := State.engineHead_of_shaftOp hc hread hhdr hop (by decide)
    have hscope := s.readsScope_nil hempty
    refine ⟨fun hnew hfull => execStepBegin_hold h hscope halign hrsv hjoin hnew hfull, fun hold => ?_⟩
    exact ⟨_, execStepBegin_refuse h hscope halign hrsv hjoin hold, State.refuseCommand_steps _ _ _ _,
      State.refuseCommand_stat s c 7 hn⟩
  · intro n s c st hn hc hread hop hhdr hlevels hiflags hrsv hlist hklen hlong hkimg hkface hpost hlistEnd hkimgEnd hlevel hstep
    have h := State.engineHead_of_shaftOp hc hread hhdr hop (by decide)
    have hsound : c.DispatchSound := ⟨by omega, by omega, hlevel⟩
    by_cases hcount : c.get 24 4 = 0
    · refine ⟨_, s.startedAs n c .done, execDispatch_empty h hsound hstep hcount, rfl, by simp, rfl, ?_, ?_⟩
      · rw [if_pos hcount]; rfl
      · rw [if_pos hcount]; rfl
    · refine ⟨_, s.startedAs n c .working, execDispatch_works h hsound hstep hcount, rfl, ?_, rfl, ?_, ?_⟩
      · exact congrArg Shaft.started (State.beginCommand_shaft (s.addDispatch n c st) n _)
      · rw [if_neg hcount]; rfl
      · rw [if_neg hcount]
        exact ⟨s.newDispatch n c st, rfl, rfl, rfl, rfl, rfl, rfl, rfl, rfl, rfl, rfl, rfl⟩
  · intro n s c hn hc hread
    refine ⟨fun hop hhdr hlevels hiflags hrsv hlist hklen hlong hkimg hkface hpost hlistEnd hkimgEnd hlevel hstep => ?_, fun hop => ?_⟩
    · have h := State.engineHead_of_shaftOp hc hread hhdr hop (by decide)
      have hsound : c.DispatchSound := ⟨by omega, by omega, hlevel⟩
      exact ⟨_, execDispatch_noStep h hsound hstep, State.refuseCommand_mem _ _ _ _, State.refuseCommand_dispatches _ _ _ _,
        State.refuseCommand_stat s c 7 hn⟩
    · refine ⟨_, execDispatch_reserved hc hread hop, State.refuseCommand_mem _ _ _ _, State.refuseCommand_stat s c 1 hn, ?_⟩
      rw [State.refuseCommand_shaft]

end Sys2Proof.Machine
end

section
/-!
What an update of a stope's drill changes and what it leaves as it stood (03 R66, R79; 04 R98, R105-R107): the tile contexts,
the drill's registers, and nothing else of the state.
-/
namespace Sys2Proof.Machine

variable {s t u : State} {n id : Nat} {x y : TileCtx}

/-- From `s` to `t` only drills and registers have changed. -/
def State.DrillsOnly (s t : State) : Prop := ∃ d r, t = { s with drills := d, regs := r }

theorem State.DrillsOnly.trans (h : s.DrillsOnly t) (g : t.DrillsOnly u) : s.DrillsOnly u := by
  obtain ⟨_, _, rfl⟩ := h
  obtain ⟨d, r, rfl⟩ := g
  exact ⟨d, r, rfl⟩

theorem State.DrillsOnly.eq (h : s.DrillsOnly t) : t = { s with drills := t.drills, regs := t.regs } := by
  obtain ⟨_, _, rfl⟩ := h
  rfl

theorem State.DrillsOnly.mem (h : s.DrillsOnly t) : t.mem = s.mem := by rw [h.eq]

theorem State.DrillsOnly.crews (h : s.DrillsOnly t) : t.crews = s.crews := by rw [h.eq]

/-! ## Counters -/

@[simp] theorem State.bumpN_reg (s : State) (off k : Nat) : (s.bumpN off k).reg off = (s.reg off + k) % 2 ^ 32 :=
  (s.setReg_reg off _).trans (Nat.mod_mod _ _)

@[simp] theorem State.bump_reg (s : State) (off : Nat) : (s.bump off).reg off = (s.reg off + 1) % 2 ^ 32 := s.bumpN_reg off 1

theorem State.bumpN_drillsOnly (s : State) (off k : Nat) : s.DrillsOnly (s.bumpN off k) := ⟨_, _, rfl⟩

theorem State.bump_drillsOnly (s : State) (off : Nat) : s.DrillsOnly (s.bump off) := s.bumpN_drillsOnly off 1

@[simp] theorem State.bumpN_drill (s : State) (off k n : Nat) : (s.bumpN off k).drill n = s.drill n := rfl

@[simp] theorem State.bump_drill (s : State) (off n : Nat) : (s.bump off).drill n = s.drill n := rfl

section CountOver
variable (s : State) (n kind : Nat) (l : List Breach)

theorem State.countOver_drillsOnly : s.DrillsOnly (s.countOver n kind l) := by
  unfold State.countOver
  split
  · exact s.bumpN_drillsOnly _ _
  · exact ⟨_, _, rfl⟩

@[simp] theorem State.countOver_drill (m : Nat) : (s.countOver n kind l).drill m = s.drill m := by
  unfold State.countOver
  split
  · exact s.bumpN_drill _ _ _
  · rfl

theorem State.countOver_reg_ne {off : Nat} (h : off ≠ Reg.lodFullOvfCnt n) : (s.countOver n kind l).reg off = s.reg off := by
  unfold State.countOver
  split
  · exact s.setReg_reg_ne _ h
  · rfl

end CountOver

/-! ## The drill of a stope -/

theorem State.modDrill_drillsOnly (s : State) (n : Nat) (f : Drill → Drill) : s.DrillsOnly (s.modDrill n f) := ⟨_, _, rfl⟩

@[simp] theorem State.modDrill_reg (s : State) (n : Nat) (f : Drill → Drill) (off : Nat) : (s.modDrill n f).reg off = s.reg off :=
  rfl

/-! ## Tile contexts -/

theorem State.tile_id (h : s.tile n id = some x) : x.id = id := of_decide_eq_true (List.find?_some h :)

section ModTile
variable (s : State) (n id : Nat) (f : TileCtx → TileCtx)

@[simp] theorem State.modTile_drill :
    (s.modTile n id f).drill n =
      { s.drill n with ctxs := (s.drill n).ctxs.map fun y => if y.id = id then f y else y } :=
  Store.get_set_self _ _ _ _

theorem State.modTile_drillsOnly : s.DrillsOnly (s.modTile n id f) := ⟨_, _, rfl⟩

theorem State.modTile_reg_ne {off : Nat} (h : off ≠ Reg.drlStat n) : (s.modTile n id f).reg off = s.reg off :=
  State.setReg_reg_ne _ _ h

end ModTile

/-- A tile that keeps its identifier keeps its place in the order of admission. -/
theorem State.modTile_ids (s : State) (n id : Nat) (f : TileCtx → TileCtx) (hf : ∀ y, y.id = id → (f y).id = id) :
    ((s.modTile n id f).drill n).ctxs.map (·.id) = (s.drill n).ctxs.map (·.id) := by
  rw [State.modTile_drill, List.map_map]
  refine List.map_congr_left fun y _ => ?_
  by_cases h : y.id = id <;> simp [h, hf]

/-- A tile set under its identifier is the one that stands there. -/
theorem State.eq_of_mem_modTile (hy : y ∈ ((s.modTile n id fun _ => x).drill n).ctxs) (hid : y.id = id) : y = x := by
  rw [State.modTile_drill] at hy
  obtain ⟨z, -, rfl⟩ := List.mem_map.1 hy
  by_cases hz : z.id = id
  · exact if_pos hz
  · rw [if_neg hz] at hid
    exact absurd hid hz

end Sys2Proof.Machine
end

section
/-!
The end of a pass (03 R66; 04 R98): every occupied pan folds into its lode, and the tile goes on, is done or stops.
-/
namespace Sys2Proof.Machine

variable {s : State} {n place : Nat} {x : TileCtx}

/-! ## The folds of a pass -/

/-- A fold changes the lodes of its tile and nothing else of it. -/
theorem TileCtx.foldInto_tile (t : TileCtx) (key : Nat) (p : Pan) :
    (t.foldInto key p).1 = { t with lodes := (t.foldInto key p).1.lodes } := rfl

theorem Folds.foldl_add_tile (l : List (Nat × Pan)) (x : Folds) :
    ∃ lodes, (l.foldl (fun x e => x.add e.1 e.2) x).tile = { x.tile with lodes := lodes } := by
  induction l generalizing x with
  | nil => exact ⟨x.tile.lodes, rfl⟩
  | cons e l ih =>
    obtain ⟨lodes, h⟩ := ih (x.add e.1 e.2)
    exact ⟨lodes, h.trans (congrArg ({ · with lodes := lodes }) (x.tile.foldInto_tile e.1 e.2))⟩

/-- Draining a tile empties its pans and changes its lodes. -/
theorem TileCtx.drain_tile (t : TileCtx) (place : Nat) :
    (t.drain place).tile = { t with cells := [], lodes := (t.drain place).tile.lodes } := by
  obtain ⟨lodes, h⟩ := Folds.foldl_add_tile (t.cells.flatMap fun e => (e.2.slots.filterMap fun p => p).map fun p => (e.1, p))
    (Folds.start place { t with cells := [] })
  unfold TileCtx.drain
  rw [h]
  rfl

/-- Overflows change what a tile keeps of its breaches. -/
theorem TileCtx.noteOver_eq (t : TileCtx) (l : List Breach) :
    t.noteOver l = { t with recs := (t.noteOver l).recs, breached := (t.noteOver l).breached, first := (t.noteOver l).first } := by
  unfold TileCtx.noteOver
  split
  · rfl
  · split <;> rfl

/-- The tile once every occupied pan of it has folded, its overflows noted (R66, 03 R82, R83). -/
def TileCtx.drained (t : TileCtx) (place : Nat) : TileCtx := (t.drain place).tile.noteOver (t.drain place).past

/-- The fold of the pans leaves the tile's identity, its operands and its place in the reduction as they stood. -/
theorem TileCtx.drained_frame (t : TileCtx) (place : Nat) :
    (t.drained place).id = t.id ∧ (t.drained place).shape = t.shape ∧ (t.drained place).k = t.k ∧
    (t.drained place).slab = t.slab ∧ (t.drained place).pass = t.pass ∧
    (t.drained place).cells = [] ∧ (t.drained place).lodes = (t.drain place).tile.lodes := by
  have hnote : t.drained place = { (t.drain place).tile with
      recs := (t.drained place).recs, breached := (t.drained place).breached, first := (t.drained place).first } :=
    TileCtx.noteOver_eq _ _
  rw [t.drain_tile place] at hnote
  rw [hnote]
  exact ⟨rfl, rfl, rfl, rfl, rfl, rfl, rfl⟩

/-! ## Where the tile goes -/

/-- The next pass of the slab is that of the next region (R98). -/
theorem TileCtx.nextPass_region (t : TileCtx) (h : t.pass + 1 < slabPasses t.shape) :
    t.nextPass = { t with pass := t.pass + 1, kpos := t.slabStart, phase := .ready } := if_pos h

/-- After the last region comes the next slab, or the end of the tile once the padded reduction is through (R97, R98). -/
theorem TileCtx.nextPass_slab (t : TileCtx) (h : ¬t.pass + 1 < slabPasses t.shape) :
    ∃ k, t.nextPass = { t with slab := t.slab + 1, pass := 0, kpos := k,
                               phase := if padK t.k ≤ (t.slab + 1) * slabDepth t.shape then .done else .ready } := by
  unfold TileCtx.nextPass TileCtx.slabStart TileCtx.k
  rw [if_neg h]
  dsimp only
  split <;> exact ⟨_, rfl⟩

theorem TileCtx.nextPass_frame (t : TileCtx) :
    t.nextPass.cells = t.cells ∧ t.nextPass.lodes = t.lodes ∧ t.nextPass.breached = t.breached := by
  by_cases h : t.pass + 1 < slabPasses t.shape
  · rw [t.nextPass_region h]
    exact ⟨rfl, rfl, rfl⟩
  · obtain ⟨k, hk⟩ := t.nextPass_slab h
    rw [hk]
    exact ⟨rfl, rfl, rfl⟩

/-- The tile stops at its breach (03 R78, R80). -/
def TileCtx.stop (t : TileCtx) : TileCtx := { t with phase := .stopped }

/-! ## The state after a pass -/

/-- The pans of the pass are left to the next one, and overflows of full lodes have counted (R66, R103, 03 R83). -/
def State.afterDrain (s : State) (n place : Nat) (x : TileCtx) : State :=
  (s.modDrill n fun d => d.leaveDrains (x.drain place).demand place).countOver n (x.drained place).kind (x.drain place).past

theorem State.afterDrain_drillsOnly (s : State) (n place : Nat) (x : TileCtx) : s.DrillsOnly (s.afterDrain n place x) :=
  (s.modDrill_drillsOnly n _).trans (State.countOver_drillsOnly _ _ _ _)

theorem State.afterDrain_breachCnt (s : State) (n place : Nat) (x : TileCtx) :
    (s.afterDrain n place x).reg (Reg.lodBreachCnt n) = s.reg (Reg.lodBreachCnt n) :=
  have hover : Reg.lodBreachCnt n ≠ Reg.lodFullOvfCnt n := by unfold Reg.lodBreachCnt Reg.lodFullOvfCnt; omega
  (State.countOver_reg_ne _ _ _ _ hover).trans (s.modDrill_reg n _ _)

section Ended
variable (hrun : (s.drill n).ctxs.find? (·.on place) = some x) (hsplit : x.splitting = false) (hk : x.slabEnd ≤ x.kpos)
  (howed : ((s.drill n).placeOf place).owed = 0)
include hrun hsplit hk howed

/-- A pass may end once its groups have entered and no fold is owed (R98, R103). -/
theorem execDrillPassEnd_ended :
    execDrillPassEnd n place s =
      if (x.drained place).breached then
        .next (((s.afterDrain n place x).modTile n x.id fun _ => (x.drained place).stop).bump (Reg.lodBreachCnt n))
      else .next ((s.afterDrain n place x).modTile n x.id fun _ => (x.drained place).nextPass) := by
  obtain ⟨hid, -⟩ := x.drained_frame place
  have hends : ¬(x.splitting || decide (x.kpos < x.slabEnd) || decide (((s.drill n).placeOf place).owed ≠ 0)) = true := by
    simp [hsplit, howed, hk]
  rw [← hid]
  unfold execDrillPassEnd
  dsimp only
  rw [hrun]
  exact if_neg hends

/-- A tile that has breached stops, and the breach counts (03 R80). -/
theorem execDrillPassEnd_breached (hn : n < 144) (hb : (x.drained place).breached = true) :
    ∃ t, execDrillPassEnd n place s = .next t ∧ s.DrillsOnly t ∧
      t.reg (Reg.lodBreachCnt n) = (s.reg (Reg.lodBreachCnt n) + 1) % 2 ^ 32 ∧
      ∀ y ∈ (t.drill n).ctxs, y.id = x.id → y = (x.drained place).stop := by
  have hstat : Reg.lodBreachCnt n ≠ Reg.drlStat n := by unfold Reg.lodBreachCnt Reg.drlStat; omega
  refine ⟨_, (execDrillPassEnd_ended hrun hsplit hk howed).trans (if_pos hb), ?_, ?_, fun y hy hyid => ?_⟩
  · exact ((s.afterDrain_drillsOnly n place x).trans (State.modTile_drillsOnly _ _ _ _)).trans (State.bump_drillsOnly _ _)
  · rw [State.bump_reg, State.modTile_reg_ne _ _ _ _ hstat, State.afterDrain_breachCnt]
  · rw [State.bump_drill] at hy
    exact State.eq_of_mem_modTile hy hyid

/-- A tile without a breach goes on (R98). -/
theorem execDrillPassEnd_goesOn (hb : ¬(x.drained place).breached = true) :
    ∃ t, execDrillPassEnd n place s = .next t ∧ s.DrillsOnly t ∧
      ∀ y ∈ (t.drill n).ctxs, y.id = x.id → y = (x.drained place).nextPass := by
  exact ⟨_, (execDrillPassEnd_ended hrun hsplit hk howed).trans (if_neg hb),
    (s.afterDrain_drillsOnly n place x).trans (State.modTile_drillsOnly _ _ _ _), fun _ hy hid => State.eq_of_mem_modTile hy hid⟩

end Ended

/-- Settles O25, by the two ways a drained tile (`TileCtx.drained`) leaves its pass: it stops at its breach, or goes on to its
next region or slab (`TileCtx.nextPass`). -/
theorem passesEnd : Obligations.PassesEnd := by
  intro n place s x hn hrun hsplit hk howed _
  obtain ⟨-, hshape, hdepth, hslab, hpass, hcells, hlodes⟩ := x.drained_frame place
  by_cases hb : (x.drained place).breached = true
  · obtain ⟨t, hexec, honly, hcount, hctxs⟩ := execDrillPassEnd_breached hrun hsplit hk howed hn hb
    refine ⟨t, hexec, honly.mem, honly.crews, fun y hy hid => ?_⟩
    obtain rfl := hctxs y hy hid
    refine ⟨hcells, hlodes, ?_⟩
    rw [if_pos (show (x.drained place).stop.breached = true from hb)]
    exact ⟨rfl, hcount⟩
  · obtain ⟨t, hexec, honly, hctxs⟩ := execDrillPassEnd_goesOn hrun hsplit hk howed hb
    obtain ⟨hcells', hlodes', hbreach⟩ := (x.drained place).nextPass_frame
    refine ⟨t, hexec, honly.mem, honly.crews, fun y hy hid => ?_⟩
    obtain rfl := hctxs y hy hid
    refine ⟨hcells'.trans hcells, hlodes'.trans hlodes, ?_⟩
    rw [hbreach, if_neg hb, ← hshape, ← hslab, ← hpass, ← hdepth]
    by_cases hreg : (x.drained place).pass + 1 < slabPasses (x.drained place).shape
    · rw [if_pos hreg, TileCtx.nextPass_region _ hreg]
      exact ⟨rfl, rfl, rfl⟩
    · obtain ⟨k, hnext⟩ := (x.drained place).nextPass_slab hreg
      rw [if_neg hreg, hnext]
      exact ⟨rfl, rfl, rfl⟩

end Sys2Proof.Machine
end

section
/-!
A breached tile that widens (03 R79; 04 R107): its units are freed, and it claims those of its new kind or waits for them.
-/
namespace Sys2Proof.Machine

variable {s : State} {n id : Nat} {x : TileCtx}

/-- The tile once it has claimed its units, or waits for them, before the first pass of its run (R107). -/
def TileCtx.claimed (t : TileCtx) (go : Bool) (past : List Breach) : TileCtx :=
  { ({ t with units := if go then tileUnits t.shape t.kind else 0 } : TileCtx).restart with
      phase := if go then .ready else .waitUnits, recs := past }

theorem State.claimRerun_eq (s : State) (n : Nat) (t : TileCtx) (past : List Breach) :
    s.claimRerun n t past =
      s.modTile n t.id fun _ => t.claimed (decide (tileUnits t.shape t.kind ≤ (s.drill n).unitsFree)) past := rfl

/-- A claim is granted exactly when the units of the tile's kind are free (R107). -/
theorem State.claimRerun_tile {t y : TileCtx} {past : List Breach} (hy : y ∈ ((s.claimRerun n t past).drill n).ctxs)
    (hid : y.id = t.id) :
    y.kind = t.kind ∧ y.run = t.run ∧
      if tileUnits t.shape t.kind ≤ (s.drill n).unitsFree then
        y.units = tileUnits t.shape t.kind ∧ y.phase = .ready ∧ y.slab = 0 ∧ y.pass = 0 ∧ y.cells = []
      else y.units = 0 ∧ y.phase = .waitUnits := by
  rw [State.claimRerun_eq] at hy
  obtain rfl := State.eq_of_mem_modTile hy hid
  refine ⟨rfl, rfl, ?_⟩
  by_cases hfree : tileUnits t.shape t.kind ≤ (s.drill n).unitsFree <;> simp [hfree, TileCtx.claimed, TileCtx.restart]

theorem State.claimRerun_ids (s : State) (n : Nat) (t : TileCtx) (past : List Breach) :
    ((s.claimRerun n t past).drill n).ctxs.map (·.id) = (s.drill n).ctxs.map (·.id) :=
  s.modTile_ids n t.id _ fun _ _ => rfl

/-- The units of a tile are free again. -/
def TileCtx.freed (t : TileCtx) : TileCtx := { t with units := 0 }

/-- The state in which a tile that re-runs claims its units: its own are free, and the re-run has counted (R107, 03 R79). -/
def State.beforeClaim (s : State) (n id : Nat) (x : TileCtx) : State :=
  ((s.modTile n id TileCtx.freed).bump (Reg.lodWidenCnt n)).countOver n x.widened.1.kind x.widened.2

theorem State.beforeClaim_drillsOnly (s : State) (n id : Nat) (x : TileCtx) : s.DrillsOnly (s.beforeClaim n id x) :=
  ((s.modTile_drillsOnly n id _).trans (State.bump_drillsOnly _ _)).trans (State.countOver_drillsOnly _ _ _ _)

theorem State.beforeClaim_drill (s : State) (n id : Nat) (x : TileCtx) :
    (s.beforeClaim n id x).drill n = (s.modTile n id TileCtx.freed).drill n := by
  unfold State.beforeClaim
  rw [State.countOver_drill, State.bump_drill]

theorem State.beforeClaim_widenCnt (s : State) (id : Nat) (x : TileCtx) (hn : n < 144) :
    (s.beforeClaim n id x).reg (Reg.lodWidenCnt n) = (s.reg (Reg.lodWidenCnt n) + 1) % 2 ^ 32 := by
  have hstat : Reg.lodWidenCnt n ≠ Reg.drlStat n := by unfold Reg.lodWidenCnt Reg.drlStat; omega
  have hover : Reg.lodWidenCnt n ≠ Reg.lodFullOvfCnt n := by unfold Reg.lodWidenCnt Reg.lodFullOvfCnt; omega
  unfold State.beforeClaim
  rw [State.countOver_reg_ne _ _ _ _ hover, State.bump_reg, State.modTile_reg_ne _ _ _ _ hstat]

theorem execTileWidenRerun_stopped (h : s.tile n id = some x) (hphase : x.phase = .stopped) (hreruns : x.reruns = true) :
    execTileWidenRerun n id s = .next ((s.beforeClaim n id x).claimRerun n x.widened.1.freed x.widened.2) := by
  simp only [execTileWidenRerun, h, hphase, hreruns, and_self, if_true]
  rfl

theorem execTileWidenRerun_waiting (h : s.tile n id = some x) (hphase : x.phase = .waitUnits) :
    execTileWidenRerun n id s = .next (s.claimRerun n x x.recs) := by
  simp [execTileWidenRerun, h, hphase]

/-- Settles O26. Both commands are one claim (`State.claimRerun_tile`): of the widened tile once its units are free, or of the
tile that waits. -/
theorem tilesWidenAndRerun : Obligations.TilesWidenAndRerun := by
  refine ⟨fun n id s x hn htile hphase hreruns => ?_, fun n id s x _ htile hphase hfree => ?_⟩
  · have hid : x.id = id := State.tile_id htile
    have hdrill := s.beforeClaim_drill n id x
    refine ⟨_, execTileWidenRerun_stopped htile hphase hreruns,
      ((s.beforeClaim_drillsOnly n id x).trans (State.modTile_drillsOnly _ _ _ _)).mem, ?_, ?_, fun y hy hyid => ?_⟩
    · have hstat : Reg.lodWidenCnt n ≠ Reg.drlStat n := by unfold Reg.lodWidenCnt Reg.drlStat; omega
      exact (State.modTile_reg_ne _ _ _ _ hstat).trans (s.beforeClaim_widenCnt id x hn)
    · rw [State.claimRerun_ids, hdrill]
      exact s.modTile_ids n id _ fun _ h => h
    · have hclaim := State.claimRerun_tile hy (hyid.trans hid.symm)
      rw [hdrill, State.modTile_drill] at hclaim
      exact hclaim
  · refine ⟨_, execTileWidenRerun_waiting htile hphase, (State.modTile_drillsOnly _ _ _ _).eq, fun y hy hyid => ?_⟩
    obtain ⟨hkind, -, hclaim⟩ := State.claimRerun_tile hy (hyid.trans (State.tile_id htile).symm)
    rw [if_pos hfree] at hclaim
    obtain ⟨hunits, hready, -⟩ := hclaim
    exact ⟨hkind, hunits, hready⟩

end Sys2Proof.Machine
end

section
/-!
What an operation of the sluice changes and what it leaves as it stood (05 R125, R136, R138; 06 R145): the crew that issued it,
the counters of its stope, the record of its stope, and nothing else of the state.
-/
namespace Sys2Proof.Machine

variable {s t u : State} {c : CrewRef} {x : Crew} {l l' : List Nat}

/-! ## What is left as it stood -/

/-- From `s` to `t` only crews, registers and records of stopes have changed. -/
def State.SluiceOnly (s t : State) : Prop := ∃ x r y, t = { s with crews := x, regs := r, stopes := y }

theorem State.SluiceOnly.trans (h : s.SluiceOnly t) (g : t.SluiceOnly u) : s.SluiceOnly u := by
  obtain ⟨_, _, _, rfl⟩ := h
  obtain ⟨x, r, y, rfl⟩ := g
  exact ⟨x, r, y, rfl⟩

theorem State.SluiceOnly.eq (h : s.SluiceOnly t) : t = { s with crews := t.crews, regs := t.regs, stopes := t.stopes } := by
  obtain ⟨_, _, _, rfl⟩ := h
  rfl

theorem State.SluiceOnly.mem (h : s.SluiceOnly t) : t.mem = s.mem := by rw [h.eq]

theorem regsBut.trans (h : regsBut l s t) (g : regsBut l t u) : regsBut l s u :=
  fun off ho => (g off ho).trans (h off ho)

theorem regsBut.mono (h : regsBut l s t) (hl : l ⊆ l') : regsBut l' s t := fun off ho => h off fun hoff => ho (hl hoff)

theorem regsBut_of_regs (h : t.regs = s.regs) : regsBut l s t := fun off _ => State.reg_of_regs h off

/-! ## Counters -/

theorem State.bump_sluiceOnly (s : State) (off : Nat) : s.SluiceOnly (s.bump off) := ⟨_, _, _, rfl⟩

theorem State.bump_reg_ne (s : State) {off off' : Nat} (h : off' ≠ off) : (s.bump off).reg off' = s.reg off' :=
  s.setReg_reg_ne _ h

theorem State.bumpIf_false (s : State) (off : Nat) : s.bumpIf false off = s := rfl

/-- A conditional count changes registers alone. -/
theorem State.bumpIf_eq (s : State) (b : Bool) (off : Nat) :
    s.bumpIf b off = { s with regs := (s.bumpIf b off).regs } := by
  cases b <;> rfl

@[simp] theorem State.bumpIf_reg (s : State) (b : Bool) (off : Nat) :
    (s.bumpIf b off).reg off = (s.reg off + b.toNat) % 2 ^ 32 := by
  cases b
  · exact (Nat.mod_eq_of_lt (s.reg_lt off)).symm
  · exact s.bump_reg off

theorem State.bumpIf_reg_ne (s : State) (b : Bool) {off off' : Nat} (h : off' ≠ off) :
    (s.bumpIf b off).reg off' = s.reg off' := by
  cases b
  · rfl
  · exact s.bump_reg_ne h

@[simp] theorem State.bumpIf_crews (s : State) (b : Bool) (off : Nat) : (s.bumpIf b off).crews = s.crews := by
  rw [State.bumpIf_eq]

theorem State.bumpIf_sluiceOnly (s : State) (b : Bool) (off : Nat) : s.SluiceOnly (s.bumpIf b off) :=
  ⟨_, _, _, s.bumpIf_eq b off⟩

theorem State.bumpIf_regsBut (s : State) (b : Bool) {off : Nat} (h : off ∈ l) : regsBut l s (s.bumpIf b off) :=
  fun _ ho => s.bumpIf_reg_ne b fun e => ho (e ▸ h)

section CountStatus
variable (s : State) (n : Nat) (z : Status)

/-- The counters of R138. -/
def statusCounters (n : Nat) : List Nat := [Reg.slcInexactCnt n, Reg.slcOvfCnt n, Reg.slcInvalidCnt n]

theorem State.countStatus_sluiceOnly : s.SluiceOnly (s.countStatus n z) :=
  ((s.bumpIf_sluiceOnly _ _).trans (State.bumpIf_sluiceOnly _ _ _)).trans (State.bumpIf_sluiceOnly _ _ _)

@[simp] theorem State.countStatus_crews : (s.countStatus n z).crews = s.crews := by
  simp [State.countStatus]

theorem State.countStatus_regsBut : regsBut (statusCounters n) s (s.countStatus n z) :=
  ((s.bumpIf_regsBut _ (by simp [statusCounters])).trans (State.bumpIf_regsBut _ _ (by simp [statusCounters]))).trans
    (State.bumpIf_regsBut _ _ (by simp [statusCounters]))

end CountStatus

/-! ## Crews -/

theorem State.crew_of_crews (h : t.crews = s.crews) (c : CrewRef) : t.crew c = s.crew c := by
  unfold State.crew; rw [h]

theorem State.setCrew_crew_ne (s : State) (x : Crew) {c c' : CrewRef} (h : crewKey c' ≠ crewKey c) :
    (s.setCrew c x).crew c' = s.crew c' :=
  Store.get_set_ne _ _ _ h

@[simp] theorem State.modStope_stope (s : State) (n : Nat) (f : StopeCtl → StopeCtl) :
    (s.modStope n f).stope n = f (s.stope n) :=
  Store.get_set_self _ _ _ _

/-! ## The end of a vector operation -/

section VecDone
variable (s : State) (c : CrewRef) (x : Crew) (z : Status)

/-- What an operation counts whatever it does (R138). -/
def operationCounters (n : Nat) : List Nat := Reg.slcOpCnt n :: statusCounters n

theorem State.vecDone_sluiceOnly : s.SluiceOnly (s.vecDone c x z) := by
  obtain ⟨_, _, _, h⟩ := (s.setCrew c x).countStatus_sluiceOnly c.stope z
  unfold State.vecDone
  rw [h]
  exact ⟨_, _, _, rfl⟩

theorem State.vecDone_crews : (s.vecDone c x z).crews = (s.setCrew c x).crews := by
  simp [State.vecDone]

@[simp] theorem State.vecDone_crew : (s.vecDone c x z).crew c = x :=
  (State.crew_of_crews (s.vecDone_crews c x z) c).trans (s.setCrew_crew c x)

theorem State.vecDone_crew_ne {c' : CrewRef} (h : crewKey c' ≠ crewKey c) : (s.vecDone c x z).crew c' = s.crew c' :=
  (State.crew_of_crews (s.vecDone_crews c x z) c').trans (s.setCrew_crew_ne x h)

theorem State.vecDone_reg (off : Nat) :
    (s.vecDone c x z).reg off = (((s.setCrew c x).countStatus c.stope z).bump (Reg.slcOpCnt c.stope)).reg off := rfl

theorem State.vecDone_opCnt :
    (s.vecDone c x z).reg (Reg.slcOpCnt c.stope) = (s.reg (Reg.slcOpCnt c.stope) + 1) % 2 ^ 32 := by
  have hop : Reg.slcOpCnt c.stope ∉ statusCounters c.stope := by
    simp [statusCounters, Reg.slcOpCnt, Reg.slcInexactCnt, Reg.slcOvfCnt, Reg.slcInvalidCnt]
  rw [State.vecDone_reg, State.bump_reg, (State.countStatus_regsBut _ _ _) _ hop]
  rfl

theorem State.vecDone_regsBut : regsBut (operationCounters c.stope) s (s.vecDone c x z) := by
  intro off hoff
  obtain ⟨hop, hstatus⟩ := List.ne_and_not_mem_of_not_mem_cons hoff
  rw [State.vecDone_reg, State.bump_reg_ne _ hop]
  exact (State.countStatus_regsBut _ _ _) _ hstatus

theorem operationCounters_subset (n : Nat) : operationCounters n ⊆ vectorCounters n := by
  simp [operationCounters, statusCounters, vectorCounters]

end VecDone

/-! ## Selection for duplication (R136) -/

section DupSelect
variable (s : State) (c : CrewRef)

theorem State.dupSelect_cases : s.dupSelect c = s ∨
    ∃ n d y, s.dupSelect c = { s.setCrew c { s.crew c with dupCount := n, dups := d } with stopes := y } := by
  unfold State.dupSelect
  extract_lets cr
  split
  · split
    · split <;> exact .inr ⟨_, _, _, rfl⟩
    · exact .inl rfl
  · exact .inl rfl

theorem State.dupSelect_sluiceOnly : s.SluiceOnly (s.dupSelect c) := by
  obtain h | ⟨n, d, y, h⟩ := s.dupSelect_cases c <;> rw [h] <;> exact ⟨_, _, _, rfl⟩

theorem State.dupSelect_regs : (s.dupSelect c).regs = s.regs := by
  obtain h | ⟨n, d, y, h⟩ := s.dupSelect_cases c <;> rw [h]
  simp

/-- The registers of the crew stand: its duplicates are no register of Table 6.1. -/
theorem State.dupSelect_crewRegs : ((s.dupSelect c).crew c).regs = (s.crew c).regs := by
  obtain h | ⟨n, d, y, h⟩ := s.dupSelect_cases c <;> rw [h]
  exact (congrArg Crew.regs (s.setCrew_crew c _)).trans rfl

theorem State.dupSelect_crew_ne {c' : CrewRef} (hne : crewKey c' ≠ crewKey c) : (s.dupSelect c).crew c' = s.crew c' := by
  obtain h | ⟨n, d, y, h⟩ := s.dupSelect_cases c <;> rw [h]
  exact s.setCrew_crew_ne _ hne

end DupSelect

/-! ## The outcome of a vector slot -/

/-- From `s` to `t` a vector operation of crew `c` has counted and left the crew's registers as those of `x`. -/
structure State.VectorDone (s : State) (c : CrewRef) (x : Crew) (t : State) : Prop where
  only : s.SluiceOnly t
  others : ∀ c', crewKey c' ≠ crewKey c → t.crew c' = s.crew c'
  counters : regsBut (vectorCounters c.stope) s t
  opCnt : t.reg (Reg.slcOpCnt c.stope) = (s.reg (Reg.slcOpCnt c.stope) + 1) % 2 ^ 32
  crewRegs : (t.crew c).regs = x.regs

theorem State.vectorDone_dupSelect (s : State) (c : CrewRef) (x : Crew) (z : Status) :
    s.VectorDone c x ((s.vecDone c x z).dupSelect c) where
  only := (s.vecDone_sluiceOnly c x z).trans (State.dupSelect_sluiceOnly _ _)
  others c' h := (State.dupSelect_crew_ne _ _ h).trans (s.vecDone_crew_ne c x z h)
  counters := ((s.vecDone_regsBut c x z).mono (operationCounters_subset _)).trans
    (regsBut_of_regs (State.dupSelect_regs _ _))
  opCnt := (State.reg_of_regs (State.dupSelect_regs _ _) _).trans (s.vecDone_opCnt c x z)
  crewRegs := by rw [State.dupSelect_crewRegs, State.vecDone_crew]

/-- VTR counts in the counter of its unit too (R121). -/
theorem State.VectorDone.bumpTrans (h : s.VectorDone c x t) (b : Bool) :
    s.VectorDone c x (t.bumpIf b (Reg.slcTransCnt c.stope)) where
  only := h.only.trans (t.bumpIf_sluiceOnly b _)
  others c' hne := (State.crew_of_crews (t.bumpIf_crews b _) c').trans (h.others c' hne)
  counters := h.counters.trans (t.bumpIf_regsBut b (by simp [vectorCounters]))
  opCnt := (t.bumpIf_reg_ne b (by simp [Reg.slcOpCnt, Reg.slcTransCnt])).trans h.opCnt
  crewRegs := (congrArg Crew.regs (State.crew_of_crews (t.bumpIf_crews b _) c)).trans h.crewRegs

/-- A slot of its opcode on an active crew that no cause of Table 6.4 skips performs its operation on the crew. -/
theorem State.vectorSlot_performs {w op : Nat} {f : VecSlot → Crew → Crew × Status} (hactive : (s.crew c).active = true)
    (hop : (VecSlot.ofNat w).op = op) (hcheck : (VecSlot.ofNat w).check (s.crew c) w false = none) :
    s.VectorDone c (f (VecSlot.ofNat w) (s.crew c)).1 (s.vectorSlot op c w f) := by
  have hperform : s.vectorSlot op c w f = (s.vecDone c (f (VecSlot.ofNat w) (s.crew c)).1
      (f (VecSlot.ofNat w) (s.crew c)).2).dupSelect c := by
    simp [State.vectorSlot, hactive, hop, hcheck]
  rw [hperform]
  exact s.vectorDone_dupSelect c _ _

end Sys2Proof.Machine
end

section
/-!
Packed elements and predicate bits: what the maps over the elements of a register write (02 R35; 05 R119, R125).
-/
namespace Sys2Proof.Machine

variable {mode : Nat}

/-! ## Packed elements -/

theorem packElems_lt (w : Nat) (l : List Nat) : packElems w l < 2 ^ (w * l.length) := by
  induction l with
  | nil => simp [packElems]
  | cons a l ih =>
    have ha : a % 2 ^ w < 2 ^ w := Nat.mod_lt _ (Nat.two_pow_pos w)
    calc packElems w (a :: l) < 2 ^ w + packElems w l * 2 ^ w := Nat.add_lt_add_right ha _
      _ = (packElems w l + 1) * 2 ^ w := by rw [Nat.succ_mul, Nat.add_comm]
      _ ≤ 2 ^ (w * l.length) * 2 ^ w := Nat.mul_le_mul_right _ ih
      _ = 2 ^ (w * (a :: l).length) := by rw [← Nat.pow_add, List.length_cons, Nat.mul_succ]

/-- Element `e` of packed elements is the `e`-th of the list, cut to the width. -/
theorem packElems_shift (w : Nat) (l : List Nat) (e : Nat) (he : e < l.length) :
    (packElems w l >>> (w * e)) % 2 ^ w = l[e] % 2 ^ w := by
  induction l generalizing e with
  | nil => simp at he
  | cons a l ih =>
    cases e with
    | zero => simp [packElems]
    | succ e =>
      have hhead : packElems w (a :: l) / 2 ^ w = packElems w l := by
        rw [packElems, Nat.add_mul_div_right _ _ (Nat.two_pow_pos w), Nat.div_eq_of_lt (Nat.mod_lt _ (Nat.two_pow_pos w)),
          Nat.zero_add]
      have hshift : packElems w (a :: l) >>> (w * (e + 1)) = packElems w l >>> (w * e) := by
        rw [Nat.mul_succ, Nat.add_comm, Nat.shiftRight_add, Nat.shiftRight_eq_div_pow _ w, hhead]
      rw [hshift]
      exact ih e (by simpa using he)

theorem elemWidth_pos (mode : Nat) : 0 < elemWidth mode := by unfold elemWidth; split <;> decide

theorem elemWidth_mul_elemCount (mode : Nat) : elemWidth mode * elemCount mode = 16384 := by
  unfold elemWidth elemCount; split <;> rfl

theorem elemAt_eq (mode v e : Nat) : elemAt mode v e = (v >>> (elemWidth mode * e)) % 2 ^ elemWidth mode := by
  have hw := elemWidth_pos mode
  have hwidth : elemWidth mode * e + elemWidth mode - 1 + 1 - elemWidth mode * e = elemWidth mode := by omega
  rw [elemAt, bits, hwidth]

/-- A full register of packed elements holds each of them. -/
theorem elemAt_packElems (mode : Nat) (l : List Nat) (hl : l.length = elemCount mode) (e : Nat) (he : e < l.length) :
    elemAt mode (BitVec.ofNat 16384 (packElems (elemWidth mode) l)).toNat e = l[e] % 2 ^ elemWidth mode := by
  rw [BitVec.toNat_ofNat, ← elemWidth_mul_elemCount mode, ← hl, Nat.mod_eq_of_lt (packElems_lt _ _), elemAt_eq,
    packElems_shift]

/-- A map writes its function's result, cut to the element, where the element is enabled, and keeps the others (R119, R125). -/
theorem elemAt_vecMap (mode : Nat) (en : Nat → Bool) (old : Nat) (f : Nat → Nat × Status) (e : Nat) (he : e < elemCount mode) :
    elemAt mode (BitVec.ofNat 16384 (vecMap mode en old f).1).toNat e =
      if en e then (f e).1 % 2 ^ elemWidth mode else elemAt mode old e := by
  have hold : elemAt mode old e % 2 ^ elemWidth mode = elemAt mode old e := by rw [elemAt_eq, Nat.mod_mod]
  unfold vecMap
  rw [elemAt_packElems _ _ (by simp) e (by simpa using he)]
  by_cases h : en e = true <;> simp [h, hold]

/-! ## Predicate bits -/

theorem testBit_packElems_one (g : Nat → Bool) (n i : Nat) (hi : i < n) :
    (packElems 1 ((List.range n).map fun j => (g j).toNat)).testBit i = g i := by
  have h := packElems_shift 1 ((List.range n).map fun j => (g j).toNat) i (by simpa using hi)
  rw [Nat.one_mul] at h
  rw [Nat.testBit_eq_decide_div_mod_eq, ← Nat.shiftRight_eq_div_pow, ← Nat.pow_one 2, h]
  cases hg : g i <;> simp [hg]

section PredMap
variable (en : Nat → Bool) (lo hi : Nat) (f : Nat → Bool)

/-- A compare of 32-bit elements sets bit `i` for element `i`. -/
theorem predMap_full (h : half mode = false) {i : Nat} (hi' : i < 512) :
    (predMap mode en lo hi f).1.testBit i = if en i then f i else lo.testBit i := by
  simp only [predMap, h, Bool.false_eq_true, if_false]
  exact testBit_packElems_one (fun i => if en i then f i else lo.testBit i) 512 i hi'

/-- A compare of 16-bit elements sets bit `i` of the first register for element 2 `i`. -/
theorem predMap_even (h : half mode = true) {i : Nat} (hi' : i < 512) :
    (predMap mode en lo hi f).1.testBit i = if en (2 * i) then f (2 * i) else lo.testBit i := by
  simp only [predMap, h, if_true]
  exact testBit_packElems_one (fun i => if en (2 * i) then f (2 * i) else lo.testBit i) 512 i hi'

/-- It sets bit `i` of the second register for element 2 `i` + 1. -/
theorem predMap_odd (h : half mode = true) {i : Nat} (hi' : i < 512) :
    (predMap mode en lo hi f).2.testBit i = if en (2 * i + 1) then f (2 * i + 1) else hi.testBit i := by
  simp only [predMap, h, if_true]
  exact testBit_packElems_one (fun i => if en (2 * i + 1) then f (2 * i + 1) else hi.testBit i) 512 i hi'

end PredMap

/-! ## Registers of a crew -/

section Write
variable (x y : Crew) (i v r : Nat)

theorem Crew.wS_get_ne (h : r ≠ i) : Store.get 0 (x.wS i v).regs.s r = Store.get 0 x.regs.s r :=
  Store.get_set_ne _ _ _ h

theorem Crew.wV_get_ne (h : r ≠ i) : Store.get 0 (x.wV i v).regs.v r = Store.get 0 x.regs.v r :=
  Store.get_set_ne _ _ _ h

theorem Crew.wV_elem (mode e : Nat) : (x.wV i v).elem mode i e = elemAt mode (BitVec.ofNat 16384 v).toNat e := by
  simp only [Crew.elem, Crew.wV, Store.get_set_self]

@[simp] theorem Crew.wP_s : (x.wP i v).regs.s = x.regs.s := by unfold Crew.wP; split <;> rfl

@[simp] theorem Crew.wP_v : (x.wP i v).regs.v = x.regs.v := by unfold Crew.wP; split <;> rfl

theorem Crew.wP_zero : x.wP 0 v = x := rfl

theorem Crew.wP_predBit {b : Nat} (hi : i ≠ 0) (hb : b < 512) : (x.wP i v).predBit i b = v.testBit b := by
  simp only [Crew.wP, Crew.predBit, if_neg hi, Store.get_set_self, BitVec.getLsbD_ofNat, hb, decide_true, Bool.true_and]

theorem Crew.wP_predBit_ne (b : Nat) (h : r ≠ i) : (x.wP i v).predBit r b = x.predBit r b := by
  by_cases hi : i = 0
  · rw [Crew.wP, if_pos hi]
  · simp only [Crew.wP, Crew.predBit, if_neg hi, Store.get_set_ne _ _ _ h]

variable {x y}

theorem Crew.elem_of_regs (h : y.regs = x.regs) (mode r e : Nat) : y.elem mode r e = x.elem mode r e := by
  simp only [Crew.elem, h]

theorem Crew.predBit_of_regs (h : y.regs = x.regs) (r b : Nat) : y.predBit r b = x.predBit r b := by
  simp only [Crew.predBit, h]

end Write

end Sys2Proof.Machine
end

section
/-!
Elementwise vector operations (05 R122-R126; 07 R181, R183): the obligation.
-/
namespace Sys2Proof.Machine

variable {s t : State} {c : CrewRef}

/-- Element `e` of VD after an elementwise operation: its result where it is enabled, what stood there elsewhere. -/
theorem elementwise_elem (f : VecSlot) (x : Crew) (g : Nat → Nat → Nat → Nat → Nat × Status) (e : Nat) (he : e < elemCount f.mode) :
    (elementwise f x g).1.elem f.mode f.vd e =
      if x.enabled f.mode f.q e then
        (g e (elemAt f.mode (x.vr f.va) e) (elemAt f.mode (x.vr f.vb) e) (elemAt f.mode (x.vr f.vc) e)).1 % 2 ^ elemWidth f.mode
      else elemAt f.mode (x.vr f.vd) e :=
  (Crew.wV_elem _ _ _ _ _).trans (elemAt_vecMap _ _ _ _ e he)

/-- The element that a floating-point operation gives, rounded once (R122). -/
def floatElem (h : Val → Val → Val → Val × List Val) (f : VecSlot) (x : Crew) (e a b d : Nat) : Nat × Status :=
  roundMode f x e (h ((modeFmt f.mode).decode a) ((modeFmt f.mode).decode b) ((modeFmt f.mode).decode d)).1
    (h ((modeFmt f.mode).decode a) ((modeFmt f.mode).decode b) ((modeFmt f.mode).decode d)).2

theorem floatOp_eq (h : Val → Val → Val → Val × List Val) :
    floatOp h = fun f x => elementwise f x (floatElem h f x) := rfl

/-- A row of Table 7.4 is elementwise: its command maps a function over the elements of VD, which gives the row's result cut to
the element, and counts at most in SLC_TRANS_CNT beside. -/
def RowIsElementwise (row : Nat × (CrewRef → Slot48 → Instr) × (VecSlot → Crew → Nat → Nat → Nat → Nat → Nat)) : Prop :=
  ∃ (g : VecSlot → Crew → Nat → Nat → Nat → Nat → Nat × Status) (trans : CrewRef → Slot48 → State → Bool),
    (∀ c w s, exec (row.2.1 c w) s = .next
      ((s.vectorSlot row.1 c w.toNat fun f x => elementwise f x (g f x)).bumpIf (trans c w s) (Reg.slcTransCnt c.stope))) ∧
    ∀ f x e a b d, (g f x e a b d).1 % 2 ^ elemWidth f.mode = row.2.2 f x e a b d % 2 ^ elemWidth f.mode

section Row
variable {op : Nat} {instr : CrewRef → Slot48 → Instr} {val : VecSlot → Crew → Nat → Nat → Nat → Nat → Nat}

/-- A command that maps its function and counts nothing beside, as all but VTR do, has an elementwise row. -/
theorem rowIsElementwise (g : VecSlot → Crew → Nat → Nat → Nat → Nat → Nat × Status)
    (hexec : ∀ c w s, exec (instr c w) s = .next (s.vectorSlot op c w.toNat fun f x => elementwise f x (g f x)))
    (hval : ∀ f x e a b d, (g f x e a b d).1 % 2 ^ elemWidth f.mode = val f x e a b d % 2 ^ elemWidth f.mode) :
    RowIsElementwise (op, instr, val) :=
  ⟨g, fun _ _ _ => false, fun c w s => (hexec c w s).trans (by rw [State.bumpIf_false]), hval⟩

theorem rowIsElementwise_float (h : Val → Val → Val → Val × List Val)
    (hexec : ∀ c w s, exec (instr c w) s = .next (s.vectorSlot op c w.toNat (floatOp h))) :
    RowIsElementwise (op, instr, fun f x e a b d => (floatElem h f x e a b d).1) :=
  rowIsElementwise (floatElem h) (fun c w s => (hexec c w s).trans (by rw [floatOp_eq])) fun _ _ _ _ _ _ => rfl

end Row

/-- Every row of Table 7.4 is elementwise; VBCST and VIOTA cut their results themselves. -/
theorem vectorRows_elementwise : ∀ row ∈ vectorRows, RowIsElementwise row := by
  simp only [vectorRows, List.forall_mem_cons]
  refine ⟨?vadd, ?vsub, ?vmul, ?vfma, ?vmin, ?vmax, ?vabs, ?vneg, ?vsel, ?viadd, ?visub, ?vimul, ?vand, ?vor, ?vxor, ?vshl, ?vshr,
    ?vsar, ?vbcst, ?viota, ?vrand, ?vtr, fun _ h => absurd h List.not_mem_nil⟩
  case vadd => exact rowIsElementwise_float (fun a b _ => (a.add b, [a, b])) fun _ _ _ => rfl
  case vsub => exact rowIsElementwise_float (fun a b _ => (a.add b.neg, [a, b])) fun _ _ _ => rfl
  case vmul => exact rowIsElementwise_float (fun a b _ => (a.mul b, [a, b])) fun _ _ _ => rfl
  case vfma => exact rowIsElementwise_float (fun a b d => ((a.mul b).add d, [a, b, d])) fun _ _ _ => rfl
  case vbcst => exact rowIsElementwise _ (fun _ _ _ => rfl) fun _ _ _ _ _ _ => Nat.mod_mod _ _
  case viota =>
    refine rowIsElementwise _ (fun _ _ _ => rfl) fun f _ _ _ _ _ => Nat.mod_mod_of_dvd _ (Nat.pow_dvd_pow 2 ?_)
    unfold elemWidth
    split <;> decide
  case vtr => exact ⟨_, _, fun _ _ _ => rfl, fun _ _ _ _ _ _ => rfl⟩
  all_goals exact rowIsElementwise _ (fun _ _ _ => rfl) fun _ _ _ _ _ _ => rfl

/-- Settles O11. Each row maps a function over the elements of VD (`vectorRows_elementwise`). -/
theorem vectorElementwise : Obligations.VectorElementwise := by
  intro row hrow c w s f hf hactive hop hcheck
  subst hf
  obtain ⟨g, trans, hexec, hval⟩ := vectorRows_elementwise row hrow
  have hdone := (State.vectorSlot_performs (f := fun f x => elementwise f x (g f x)) hactive hop hcheck).bumpTrans (trans c w s)
  have hregs := hdone.crewRegs
  refine ⟨_, hexec c w s, hdone.only.eq, hdone.others, hdone.counters, hdone.opCnt, ?_, ?_, fun r hr => ?_, fun e he => ?_⟩
  · rw [hregs]; rfl
  · rw [hregs]; rfl
  · rw [hregs]
    exact Crew.wV_get_ne _ _ _ _ hr
  · rw [Crew.elem_of_regs hregs, elementwise_elem _ _ _ _ he, hval]

end Sys2Proof.Machine
end

section
/-!
Compares, predicate operations, conversions and dropout (05 R125, R127; 07 R181-R183): the obligations.
-/
namespace Sys2Proof.Machine

variable {s t : State} {c : CrewRef}

/-! ## Compares -/

/-- A crew after a write to p[vc] and, for 16-bit elements, to p[vc + 1] (R125). -/
def Crew.wPair (x : Crew) (mode vc : Nat) (r : Nat × Nat) : Crew :=
  if half mode then (x.wP vc r.1).wP (vc + 1) r.2 else x.wP vc r.1

@[simp] theorem Crew.wPair_s (x : Crew) (mode vc : Nat) (r : Nat × Nat) : (x.wPair mode vc r).regs.s = x.regs.s := by
  unfold Crew.wPair; split <;> simp

@[simp] theorem Crew.wPair_v (x : Crew) (mode vc : Nat) (r : Nat × Nat) : (x.wPair mode vc r).regs.v = x.regs.v := by
  unfold Crew.wPair; split <;> simp

/-- The predicate register that holds the enable of element `e` in the pair from `vc` (R125). -/
def predOf (mode vc e : Nat) : Nat := if half mode then vc + e % 2 else vc

/-- Its bit there. -/
def predPos (mode e : Nat) : Nat := if half mode then e / 2 else e

/-- A compare sets the bit of every enabled element and keeps the others (R125). -/
theorem Crew.wPair_predBit (x y : Crew) (mode vc : Nat) (en : Nat → Bool) (f : Nat → Bool) {e : Nat} (he : e < elemCount mode)
    (hr : predOf mode vc e ≠ 0) :
    (x.wPair mode vc (predMap mode en (y.pr vc) (y.pr (vc + 1)) f)).predBit (predOf mode vc e) (predPos mode e) =
      if en e then f e else (y.pr (predOf mode vc e)).testBit (predPos mode e) := by
  cases hhalf : half mode with
  | false =>
    have he' : e < 512 := by simpa [elemCount, hhalf] using he
    simp only [predOf, predPos, Crew.wPair, hhalf, Bool.false_eq_true, if_false] at hr ⊢
    rw [Crew.wP_predBit _ _ _ hr he', predMap_full _ _ _ _ hhalf he']
  | true =>
    have he' : e / 2 < 512 := by
      have : e < 1024 := by simpa [elemCount, hhalf] using he
      omega
    simp only [predOf, predPos, Crew.wPair, hhalf, if_true] at hr ⊢
    obtain heven | hodd := Nat.mod_two_eq_zero_or_one e
    · have hpos : 2 * (e / 2) = e := by omega
      simp only [heven, Nat.add_zero] at hr ⊢
      rw [Crew.wP_predBit_ne _ _ _ _ _ (by omega), Crew.wP_predBit _ _ _ hr he', predMap_even _ _ _ _ hhalf he', hpos]
    · have hpos : 2 * (e / 2) + 1 = e := by omega
      rw [hodd] at hr ⊢
      rw [Crew.wP_predBit _ _ _ hr he', predMap_odd _ _ _ _ hhalf he', hpos]

theorem compareOp_fst (g : VecSlot → Nat → Nat → Bool) (f : VecSlot) (x : Crew) :
    (compareOp g f x).1 = x.wPair f.mode f.vc (predMap f.mode (x.enabled f.mode f.q) (x.pr f.vc) (x.pr (f.vc + 1))
      fun e => g f (elemAt f.mode (x.vr f.va) e) (elemAt f.mode (x.vr f.vb) e)) := rfl

/-- A compare on an active crew that no cause skips. -/
theorem State.vectorSlot_compares {w op : Nat} (g : VecSlot → Nat → Nat → Bool) {f : VecSlot} (hf : f = VecSlot.ofNat w)
    (hactive : (s.crew c).active = true) (hop : f.op = op) (hcheck : f.check (s.crew c) w false = none)
    (ht : t = s.vectorSlot op c w (compareOp g)) :
    t = { s with crews := t.crews, regs := t.regs, stopes := t.stopes } ∧
    (t.crew c).regs.s = (s.crew c).regs.s ∧ (t.crew c).regs.v = (s.crew c).regs.v ∧
    ∀ e, e < elemCount f.mode → predOf f.mode f.vc e ≠ 0 → (t.crew c).predBit (predOf f.mode f.vc e) (predPos f.mode e) =
      if (s.crew c).enabled f.mode f.q e then g f (elemAt f.mode ((s.crew c).vr f.va) e) (elemAt f.mode ((s.crew c).vr f.vb) e)
      else ((s.crew c).pr (predOf f.mode f.vc e)).testBit (predPos f.mode e) := by
  subst hf ht
  have hdone := State.vectorSlot_performs (f := compareOp g) hactive hop hcheck
  have hregs := hdone.crewRegs
  rw [compareOp_fst] at hregs
  refine ⟨hdone.only.eq, ?_, ?_, fun e he hr => ?_⟩
  · rw [hregs, Crew.wPair_s]
  · rw [hregs, Crew.wPair_v]
  · rw [Crew.predBit_of_regs hregs, Crew.wPair_predBit _ _ _ _ _ _ he hr]

/-! ## Predicate operations -/

theorem Crew.pr_lt (x : Crew) (i : Nat) : x.pr i < 2 ^ 512 := by
  have hones (n : Nat) : 2 ^ n - 1 < 2 ^ n := Nat.sub_lt (Nat.two_pow_pos n) Nat.one_pos
  unfold Crew.pr
  split
  · exact hones 512
  · exact BitVec.isLt _

/-- The complement of a 512-bit number. -/
theorem testBit_complement {a i : Nat} (ha : a < 2 ^ 512) (hi : i < 512) : (2 ^ 512 - 1 - a).testBit i = !a.testBit i := by
  rw [Nat.sub_sub, Nat.add_comm 1 a, Nat.testBit_two_pow_sub_succ ha]
  simp [hi]

/-- A predicate operation on an active crew that no cause skips, whose function is `b` bit by bit. -/
theorem State.vectorSlot_predicate {w op : Nat} (g : Nat → Nat → Nat) (b : Bool → Bool → Bool) {f : VecSlot}
    (hg : ∀ x y i, x < 2 ^ 512 → y < 2 ^ 512 → i < 512 → (g x y).testBit i = b (x.testBit i) (y.testBit i))
    (hf : f = VecSlot.ofNat w)
    (hactive : (s.crew c).active = true) (hop : f.op = op) (hcheck : f.check (s.crew c) w false = none)
    (ht : t = s.vectorSlot op c w (predOp g)) :
    t = { s with crews := t.crews, regs := t.regs, stopes := t.stopes } ∧
    (t.crew c).regs.s = (s.crew c).regs.s ∧ (t.crew c).regs.v = (s.crew c).regs.v ∧
    (f.vd = 0 → (t.crew c).regs.p = (s.crew c).regs.p) ∧
    ∀ i, i < 512 → f.vd ≠ 0 →
      (t.crew c).predBit f.vd i = b (((s.crew c).pr f.va).testBit i) (((s.crew c).pr f.vb).testBit i) := by
  subst hf ht
  have hdone := State.vectorSlot_performs (f := predOp g) hactive hop hcheck
  have hregs := hdone.crewRegs
  rw [predOp] at hregs
  refine ⟨hdone.only.eq, ?_, ?_, fun hvd => ?_, fun i hi hvd => ?_⟩
  · rw [hregs, Crew.wP_s]
  · rw [hregs, Crew.wP_v]
  · rw [hregs, hvd, Crew.wP_zero]
  · rw [Crew.predBit_of_regs hregs, Crew.wP_predBit _ _ _ hvd hi, hg _ _ _ (Crew.pr_lt _ _) (Crew.pr_lt _ _) hi]

/-- Settles O12. A compare writes one register or a pair (`Crew.wPair_predBit`), a predicate operation one register bit by bit. -/
theorem comparesAndPredicateOperations : Obligations.ComparesAndPredicateOperations := by
  refine ⟨?_, ?_⟩
  · simp only [List.forall_mem_cons]
    refine ⟨?vcmp, ?vicmp, fun _ h => absurd h List.not_mem_nil⟩ <;> intro c w s f hf hactive hop hcheck
    case vcmp => exact ⟨_, rfl, State.vectorSlot_compares _ hf hactive hop hcheck rfl⟩
    case vicmp => exact ⟨_, rfl, State.vectorSlot_compares _ hf hactive hop hcheck rfl⟩
  · simp only [List.forall_mem_cons]
    refine ⟨?pand, ?por, ?pxor, ?pnot, fun _ h => absurd h List.not_mem_nil⟩ <;> intro c w s f hf hactive hop hcheck
    case pand => exact ⟨_, rfl, State.vectorSlot_predicate _ _ (fun x y i _ _ _ => Nat.testBit_and x y i) hf hactive hop hcheck rfl⟩
    case por => exact ⟨_, rfl, State.vectorSlot_predicate _ _ (fun x y i _ _ _ => Nat.testBit_or x y i) hf hactive hop hcheck rfl⟩
    case pxor => exact ⟨_, rfl, State.vectorSlot_predicate _ _ (fun x y i _ _ _ => Nat.testBit_xor x y i) hf hactive hop hcheck rfl⟩
    case pnot =>
      exact ⟨_, rfl, State.vectorSlot_predicate _ (fun a _ => !a) (fun _ _ _ hx _ hi => testBit_complement hx hi) hf hactive hop
        hcheck rfl⟩

/-! ## Conversions and dropout -/

/-- A conversion writes VD alone, whatever the widths (R182). -/
theorem cvtOp_fst (f : VecSlot) (x : Crew) : ∃ v, (cvtOp f x).1 = x.wV f.vd v := by
  unfold cvtOp
  dsimp only
  split
  · exact ⟨_, rfl⟩
  · exact ⟨_, rfl⟩

theorem cvtOp_narrow {f : VecSlot} (h : f.cvtWide = false) (x : Crew) :
    cvtOp f x = elementwise f x fun e _ _ _ => cvtOne f x 0 e (cvtSource f (x.vr f.va) e) := by
  simp [cvtOp, h]

/-- Is element `e` kept by a dropout: its draw reaches the threshold (R183). -/
def dropKeeps (f : VecSlot) (x : Crew) (e : Nat) : Bool := decide (bits (x.sr f.kb) 55 40 ≤ x.draw f.kb 1 e)

/-- The element that a dropout gives: scaled where it is kept, 0 where it is not (R183). -/
def dropElem (f : VecSlot) (x : Crew) (e a _b _d : Nat) : Nat × Status :=
  let scale := (Fmt.ofCode 0).decode (x.sr f.sx % 2 ^ 32)
  let v := (modeFmt f.mode).decode a
  if dropKeeps f x e then roundMode f x e (v.mul scale) [v, scale] else (0, Status.none)

theorem dropOp_fst (f : VecSlot) (x : Crew) :
    (dropOp f x).1 = (elementwise f x (dropElem f x)).1.wPair f.mode f.vc
      (predMap f.mode (x.enabled f.mode f.q) (x.pr f.vc) (x.pr (f.vc + 1)) (dropKeeps f x)) := rfl

/-- An enabled element whose threshold exceeds its draw is 0 after a dropout (R183). -/
theorem dropOp_elem_zero {f : VecSlot} {x : Crew} {e : Nat} (he : e < elemCount f.mode) (hen : x.enabled f.mode f.q e = true)
    (hdraw : bits (x.sr f.kb) 55 40 > x.draw f.kb 1 e) : (dropOp f x).1.elem f.mode f.vd e = 0 := by
  have hdrop : dropKeeps f x e = false := decide_eq_false (Nat.not_le.2 hdraw)
  have helem : (dropOp f x).1.elem f.mode f.vd e = (elementwise f x (dropElem f x)).1.elem f.mode f.vd e := by
    simp only [Crew.elem, dropOp_fst, Crew.wPair_v]
  rw [helem, elementwise_elem _ _ _ _ he, if_pos hen, dropElem, hdrop]
  exact Nat.zero_mod _

/-- Settles O13. A conversion is a write of VD, a dropout an elementwise write of VD and a write of predicates beside. -/
theorem conversionsAndDropout : Obligations.ConversionsAndDropout := by
  refine ⟨fun c w s f hf hactive hop hcheck => ?_, fun c w s f hf hactive hop hcheck => ?_⟩ <;> subst hf
  · have hdone := State.vectorSlot_performs (f := cvtOp) hactive hop hcheck
    have hregs := hdone.crewRegs
    obtain ⟨v, hv⟩ := cvtOp_fst (VecSlot.ofNat w.toNat) (s.crew c)
    refine ⟨_, rfl, hdone.only.eq, ?_, ?_, fun r hr => ?_, fun hnarrow e he hen => ?_⟩
    · rw [hregs, hv]; rfl
    · rw [hregs, hv]; rfl
    · rw [hregs, hv, Crew.wV_get_ne _ _ _ _ hr]
    · rw [Crew.elem_of_regs hregs, cvtOp_narrow hnarrow, elementwise_elem _ _ _ _ he, if_pos hen]
  · have hdone := State.vectorSlot_performs (f := dropOp) hactive hop hcheck
    refine ⟨_, rfl, hdone.only.eq, ?_, fun e he hen hdraw => ?_⟩
    · rw [hdone.crewRegs, dropOp_fst, Crew.wPair_s]; rfl
    · rw [Crew.elem_of_regs hdone.crewRegs, dropOp_elem_zero he hen hdraw]

end Sys2Proof.Machine
end

section
/-!
Reductions and duplicates (05 R128-R137): what a check of a crew's bundle that has failed changes, and the obligations.
-/
namespace Sys2Proof.Machine

variable {s t : State} {c : CrewRef}

/-! ## A check that fails (05 R137) -/

theorem State.msix_crews (s : State) (vec : Nat) : (s.msix vec).crews = s.crews := by unfold State.msix; split <;> rfl

theorem State.msix_regs (s : State) (vec : Nat) : (s.msix vec).regs = s.regs := by unfold State.msix; split <;> rfl

theorem State.raiseIf_crews (s : State) (b : Bool) (e : Nat) : (s.raiseIf b e).crews = s.crews := by
  unfold State.raiseIf State.raise
  dsimp only
  split
  · split
    · exact State.msix_crews _ _
    · rfl
  · rfl

/-- An event sets its bit in LMP_EVENT_STAT and changes no other register (19 R506). -/
theorem State.raiseIf_reg_ne (s : State) (b : Bool) (e : Nat) {off : Nat} (h : off ≠ Reg.lmpEventStat) :
    (s.raiseIf b e).reg off = s.reg off := by
  have hset : (s.hwSet Reg.lmpEventStat (2 ^ e)).reg off = s.reg off := s.setReg_reg_ne _ h
  unfold State.raiseIf State.raise
  dsimp only
  split
  · split
    · exact (State.reg_of_regs (State.msix_regs _ _) off).trans hset
    · exact hset
  · rfl

/-- A crew whose check outcome is bad, with cause `k` where it was not bad before (R411). -/
def Crew.instBad (x : Crew) (k : Nat) : Crew :=
  { x with inst := x.inst.map fun i => { i with bad := i.bad.orElse fun _ => some k } }

theorem State.markBad_crew (s : State) (c : CrewRef) (k : Nat) : (s.markBad c k).crew c = (s.crew c).instBad k :=
  s.setCrew_crew c _

section SluiceBad
variable (s : State) (c : CrewRef) (kind foff lanes : Nat)

theorem State.sluiceBad_mem : (s.sluiceBad c kind foff lanes).mem = s.mem :=
  (State.raiseIf_keepsShafts _ _ _).mem

/-- The check outcome becomes bad, and nothing else of the crew changes. -/
theorem State.sluiceBad_crew : (s.sluiceBad c kind foff lanes).crew c = (s.crew c).instBad 2 :=
  (State.crew_of_crews (State.raiseIf_crews _ _ _) c).trans (s.markBad_crew c 2)

theorem State.sluiceBad_reg {off : Nat} (h : off ≠ Reg.lmpEventStat) :
    (s.sluiceBad c kind foff lanes).reg off = (s.bump (Reg.slcDupFailCnt c.stope)).reg off :=
  State.raiseIf_reg_ne _ _ _ h

theorem State.sluiceBad_inst {i : Instance} (h : (s.crew c).inst = some i) :
    ∃ j, ((s.sluiceBad c kind foff lanes).crew c).inst = some j ∧ j.bad = i.bad.orElse fun _ => some 2 := by
  rw [State.sluiceBad_crew, Crew.instBad, h]
  exact ⟨_, rfl, rfl⟩

/-- A counter of the sluice is no register of the lamp room (Table 19.3). -/
theorem slcDupFailCnt_ne_lmpEventStat : Reg.slcDupFailCnt c.stope ≠ Reg.lmpEventStat := by
  unfold Reg.slcDupFailCnt Reg.lmpEventStat; omega

theorem State.sluiceBad_dupFailCnt : (s.sluiceBad c kind foff lanes).reg (Reg.slcDupFailCnt c.stope) =
    (s.reg (Reg.slcDupFailCnt c.stope) + 1) % 2 ^ 32 :=
  (s.sluiceBad_reg c kind foff lanes (slcDupFailCnt_ne_lmpEventStat c)).trans (s.bump_reg _)

end SluiceBad

/-! ## Reductions (05 R128-R134) -/

section RedOp
variable {f : VecSlot} (x : Crew)

theorem redOp_sum (h : f.kind ≤ 2) :
    (redOp f x).1 = { x with merge := mergeAdd x.site (x.sr f.sx) (redPartial f x) x.merge } := by
  simp [redOp, h]

theorem redOp_select (hlo : 3 ≤ f.kind) (hhi : f.kind ≤ 6) : ∃ v, (redOp f x).1 = x.wS f.sx v := by
  unfold redOp
  rw [if_neg (by omega)]
  split
  · exact ⟨_, rfl⟩
  · rw [if_pos (by omega)]
    exact ⟨_, rfl⟩

theorem redOp_top (h : 7 ≤ f.kind) : ∃ v, (redOp f x).1 = x.wV f.vd v := by
  unfold redOp
  rw [if_neg (by omega), if_neg (by omega), if_neg (by omega)]
  split <;> exact ⟨_, rfl⟩

theorem redOp_inst (f : VecSlot) : (redOp f x).1.inst = x.inst := by
  obtain h | h | h : f.kind ≤ 2 ∨ 3 ≤ f.kind ∧ f.kind ≤ 6 ∨ 7 ≤ f.kind := by omega
  · rw [redOp_sum x h]
  · obtain ⟨v, hv⟩ := redOp_select x h.1 h.2
    rw [hv]; rfl
  · obtain ⟨v, hv⟩ := redOp_top x h
    rw [hv]; rfl

end RedOp

/-- The state after a reduction whose trees and residue agree. -/
def State.reduced (s : State) (c : CrewRef) (f : VecSlot) : State :=
  (s.vecDone c (redOp f (s.crew c)).1 (redOp f (s.crew c)).2).bump (Reg.slcRedCnt c.stope)

section Reduced
variable (s : State) (c : CrewRef) (f : VecSlot)

theorem State.reduced_sluiceOnly : s.SluiceOnly (s.reduced c f) :=
  (s.vecDone_sluiceOnly c _ _).trans (State.bump_sluiceOnly _ _)

@[simp] theorem State.reduced_crew : (s.reduced c f).crew c = (redOp f (s.crew c)).1 :=
  s.vecDone_crew c _ _

theorem State.reduced_redCnt :
    (s.reduced c f).reg (Reg.slcRedCnt c.stope) = (s.reg (Reg.slcRedCnt c.stope) + 1) % 2 ^ 32 := by
  have hred : Reg.slcRedCnt c.stope ∉ operationCounters c.stope := by
    simp [operationCounters, statusCounters, Reg.slcRedCnt, Reg.slcOpCnt, Reg.slcInexactCnt, Reg.slcOvfCnt, Reg.slcInvalidCnt]
  rw [State.reduced, State.bump_reg, (s.vecDone_regsBut c _ _) _ hred]

theorem State.reduced_dupFailCnt : (s.reduced c f).reg (Reg.slcDupFailCnt c.stope) = s.reg (Reg.slcDupFailCnt c.stope) := by
  have hred : Reg.slcDupFailCnt c.stope ≠ Reg.slcRedCnt c.stope := by simp [Reg.slcDupFailCnt, Reg.slcRedCnt]
  have hop : Reg.slcDupFailCnt c.stope ∉ operationCounters c.stope := by
    simp [operationCounters, statusCounters, Reg.slcDupFailCnt, Reg.slcOpCnt, Reg.slcInexactCnt, Reg.slcOvfCnt, Reg.slcInvalidCnt]
  rw [State.reduced, State.bump_reg_ne _ hred, (s.vecDone_regsBut c _ _) _ hop]

end Reduced

/-- A reduction on an active crew that no cause skips; a disagreement is reported beside (R134, R137). -/
theorem execVred_performs {r : RedSlot} {f : VecSlot} (hf : f = VecSlot.ofNat r.slot.toNat) (hactive : (s.crew c).active = true)
    (hop : f.op = 0x28) (hcheck : f.check (s.crew c) r.slot.toNat (redLimit f (s.crew c)) = none) :
    execVred c r s = .next (if r.mismatch then
      (s.reduced c f).sluiceBad c (if f.kind ≤ 2 then 2 else 1) (s.crew c).curFoff 0 else s.reduced c f) := by
  subst hf
  have hgo : ¬((!(s.crew c).active) = true ∨ (VecSlot.ofNat r.slot.toNat).op ≠ 0x28) := by simp [hactive, hop]
  unfold execVred
  dsimp only
  rw [if_neg hgo, hcheck]
  rfl

/-- Settles O14. The state after a disagreement is that of the plain reduction (`State.reduced`) with its outcome made bad. -/
theorem reductionsWriteTheirTarget : Obligations.ReductionsWriteTheirTarget := by
  intro c w s f hf hactive hop hcheck
  have hcrew := s.reduced_crew c f
  have hagree : exec (.vred c ⟨w, false⟩) s = .next (s.reduced c f) := execVred_performs hf hactive hop hcheck
  refine ⟨_, hagree, (s.reduced_sluiceOnly c f).eq, s.reduced_redCnt c f, fun hsum => ?_, fun hlo hhi => ?_, fun htop => ?_,
    fun i hi _ => ?_⟩
  · rw [hcrew, redOp_sum _ hsum]
    exact ⟨rfl, rfl⟩
  · obtain ⟨v, hv⟩ := redOp_select (s.crew c) hlo hhi
    rw [hcrew, hv]
    exact ⟨rfl, rfl, fun r hr => Crew.wS_get_ne _ _ _ _ hr⟩
  · obtain ⟨v, hv⟩ := redOp_top (s.crew c) htop
    rw [hcrew, hv]
    exact ⟨rfl, rfl, fun r hr => Crew.wV_get_ne _ _ _ _ hr⟩
  · have hdiffer : exec (.vred c ⟨w, true⟩) s =
        .next ((s.reduced c f).sluiceBad c (if f.kind ≤ 2 then 2 else 1) (s.crew c).curFoff 0) :=
      execVred_performs hf hactive hop hcheck
    have hinst : ((s.reduced c f).crew c).inst = some i := by rw [hcrew, redOp_inst, hi]
    obtain ⟨j, hj, hbad⟩ := State.sluiceBad_inst _ c (if f.kind ≤ 2 then 2 else 1) (s.crew c).curFoff 0 hinst
    refine ⟨_, j, hdiffer, ?_, ?_, hj, hbad, ?_, ?_⟩
    · rw [State.sluiceBad_crew]; rfl
    · rw [State.sluiceBad_crew]; rfl
    · rw [State.sluiceBad_dupFailCnt, State.reduced_dupFailCnt]
    · rw [State.sluiceBad_mem, (s.reduced_sluiceOnly c f).mem]

/-! ## Duplicates (05 R136, R137) -/

/-- Does a duplicate that issues in the present cycle hold back a crew that was ready (R136). -/
def State.stealsFrom (s : State) (c : CrewRef) (d : Duplicate) : Bool :=
  d.at_ + 64 ≤ s.cycle && !(s.turns.contains c.stope) && !(s.readyCrews c.stope).isEmpty

/-- The crew whose duplicate issues. -/
def Crew.issueDup (x : Crew) (d : Duplicate) : Crew :=
  { x with dups := x.dups.map fun y => if y = d then { y with issued := true } else y }

/-- The stope after a duplicate has issued in cycle `now` (R136). -/
def StopeCtl.issueDup (x : StopeCtl) (now : Nat) (d : Duplicate) (stolen : Bool) : StopeCtl :=
  { x with vecNext := now + 1
           dupTook := if d.at_ + 64 ≤ now then now + 1 else x.dupTook
           stole := if stolen then now + 1 else x.stole }

/-- The state after a duplicate has issued. -/
def State.issueDup (s : State) (c : CrewRef) (d : Duplicate) : State :=
  ((s.setCrew c ((s.crew c).issueDup d)).modStope c.stope fun x => x.issueDup s.cycle d (s.stealsFrom c d)).bumpIf
    (s.stealsFrom c d) (Reg.slcDupStealCnt c.stope)

theorem State.bumpIf_stope (s : State) (b : Bool) (off n : Nat) : (s.bumpIf b off).stope n = s.stope n := by
  rw [State.bumpIf_eq]; rfl

section IssueDup
variable (s : State) (c : CrewRef) (d : Duplicate)

theorem State.issueDup_sluiceOnly : s.SluiceOnly (s.issueDup c d) := by
  unfold State.issueDup
  rw [State.bumpIf_eq]
  exact ⟨_, _, _, rfl⟩

theorem State.issueDup_crew : (s.issueDup c d).crew c = (s.crew c).issueDup d :=
  (State.crew_of_crews (State.bumpIf_crews _ _ _) c).trans (s.setCrew_crew c _)

theorem State.issueDup_stope :
    (s.issueDup c d).stope c.stope = (s.stope c.stope).issueDup s.cycle d (s.stealsFrom c d) :=
  (State.bumpIf_stope _ _ _ _).trans (State.modStope_stope _ _ _)

theorem State.issueDup_stealCnt : (s.issueDup c d).reg (Reg.slcDupStealCnt c.stope) =
    (s.reg (Reg.slcDupStealCnt c.stope) + (s.stealsFrom c d).toNat) % 2 ^ 32 :=
  State.bumpIf_reg _ _ _

end IssueDup

/-- The oldest unissued duplicate issues in a later cycle than its original, in which no vector operation does (R136). -/
theorem duplicateIssue_issues {d : Duplicate} (hdup : (s.crew c).dups.find? (!·.issued) = some d) (hlater : d.at_ < s.cycle)
    (hfree : (s.stope c.stope).vecNext ≤ s.cycle) :
    exec (.duplicateIssue c.stope c.crew) s = .next (s.issueDup c d) := by
  have hgo : ¬((decide (s.cycle ≤ d.at_) || decide (s.cycle < (s.stope c.stope).vecNext)) = true) := by
    simp [hlater, hfree]
  change execDuplicateIssue c.stope c.crew s = _
  unfold execDuplicateIssue
  dsimp only
  rw [hdup]
  dsimp only
  rw [if_neg hgo]
  rfl

/-- While a duplicate has taken the cycle, its stope issues no bundle. -/
theorem State.issuer_none_of_dupTook {n : Nat} (h : s.cycle < (s.stope n).dupTook) : s.issuer n = none := by
  simp [State.issuer, h]

/-- The state after an issued duplicate has completed like its original (R137). -/
def State.completeDup (s : State) (c : CrewRef) (d : Duplicate) : State :=
  (s.setCrew c { s.crew c with dups := (s.crew c).dups.erase d }).bump (Reg.slcDupCnt c.stope)

section CompleteDup
variable (s : State) (c : CrewRef) (d : Duplicate)

theorem State.completeDup_crew :
    (s.completeDup c d).crew c = { s.crew c with dups := (s.crew c).dups.erase d } :=
  s.setCrew_crew c _

theorem State.completeDup_dupCnt :
    (s.completeDup c d).reg (Reg.slcDupCnt c.stope) = (s.reg (Reg.slcDupCnt c.stope) + 1) % 2 ^ 32 :=
  State.bump_reg _ _

theorem State.completeDup_dupFailCnt :
    (s.completeDup c d).reg (Reg.slcDupFailCnt c.stope) = s.reg (Reg.slcDupFailCnt c.stope) :=
  State.bump_reg_ne _ (by simp [Reg.slcDupFailCnt, Reg.slcDupCnt])

theorem State.completeDup_mem : (s.completeDup c d).mem = s.mem := rfl

end CompleteDup

/-- The oldest issued duplicate completes; a difference from its original is reported beside (R137). -/
theorem duplicateComplete_completes {d : Duplicate} (mismatch : Bool) (hdup : (s.crew c).dups.find? (·.issued) = some d) :
    exec (.duplicateComplete c mismatch) s = .next
      (if mismatch then (s.completeDup c d).sluiceBad c 0 d.foff d.lanes else s.completeDup c d) := by
  change execDuplicateComplete c mismatch s = _
  simp only [execDuplicateComplete, hdup]
  rfl

/-- Settles O15. Both halves read off the states that the two commands answer (`State.issueDup`, `State.completeDup`). -/
theorem duplicatesIssueAndComplete : Obligations.DuplicatesIssueAndComplete := by
  refine ⟨fun c s d hdup hlater hfree => ?_, fun c s d i mismatch _ hdup hi => ?_⟩
  · have hcrew := s.issueDup_crew c d
    have hstope := s.issueDup_stope c d
    have honly := (s.issueDup_sluiceOnly c d).eq
    refine ⟨_, duplicateIssue_issues hdup hlater hfree, honly, ?_, ?_, ?_, fun hold => ?_, s.issueDup_stealCnt c d⟩
    · rw [hcrew]; rfl
    · rw [hcrew]; rfl
    · rw [hstope]; rfl
    · refine State.issuer_none_of_dupTook ?_
      rw [hstope, StopeCtl.issueDup, if_pos hold, honly]
      exact Nat.lt_succ_self _
  · have hcomplete := duplicateComplete_completes mismatch hdup
    have hcrew := s.completeDup_crew c d
    have hcnt := s.completeDup_dupCnt c d
    have hfail := s.completeDup_dupFailCnt c d
    cases mismatch with
    | false =>
      refine ⟨s.completeDup c d, hcomplete, s.completeDup_mem c d, ?_, ?_, hcnt, ?_, fun h => absurd h Bool.false_ne_true⟩
      · rw [hcrew]
      · rw [hcrew]
      · rw [hfail]
        exact (Nat.mod_eq_of_lt (s.reg_lt _)).symm
    | true =>
      have hinst : ((s.completeDup c d).crew c).inst = some i := by rw [hcrew, ← hi]
      have hstat : Reg.slcDupCnt c.stope ≠ Reg.lmpEventStat := by unfold Reg.slcDupCnt Reg.lmpEventStat; omega
      have hdup_fail : Reg.slcDupCnt c.stope ≠ Reg.slcDupFailCnt c.stope := by simp [Reg.slcDupCnt, Reg.slcDupFailCnt]
      refine ⟨(s.completeDup c d).sluiceBad c 0 d.foff d.lanes, hcomplete, State.sluiceBad_mem _ _ _ _ _, ?_, ?_, ?_, ?_,
        fun _ => State.sluiceBad_inst _ _ _ _ _ hinst⟩
      · rw [State.sluiceBad_crew, hcrew]; rfl
      · rw [State.sluiceBad_crew, hcrew]; rfl
      · rw [State.sluiceBad_reg _ _ _ _ _ hstat, State.bump_reg_ne _ hdup_fail, hcnt]
      · rw [State.sluiceBad_dupFailCnt, hfail, Bool.toNat_true]

end Sys2Proof.Machine
end

section
/-!
Bundles and slot commands as words (06 R143, Table 6.2; 07 Tables 7.2, 7.4, 7.8, 7.10, 7.12, 7.14): the obligations.
-/
namespace Sys2Proof

/-! ## The fields of a written bundle (06 Table 6.2) -/

/-- The slots lie one above the other, above the header: each is found at its own place. -/
theorem encodeBundle_slots (b : Bundle) :
    (encodeBundle b).extractLsb' 8 40 = b.scalar.getD 0 ∧ (encodeBundle b).extractLsb' 48 48 = b.vector.getD 0 ∧
    (encodeBundle b).extractLsb' 96 48 = b.matrix.getD 0 ∧ (encodeBundle b).extractLsb' 144 40 = b.load.getD 0 ∧
    (encodeBundle b).extractLsb' 184 40 = b.store.getD 0 ∧ (encodeBundle b).extractLsb' 224 32 = b.sync.getD 0 := by
  unfold encodeBundle
  simp (disch := decide) only [BitVec.extractLsb'_append_eq_of_le, BitVec.extractLsb'_append_eq_of_add_le]
  simp

/-- The header tells which slots are enabled, and holds HOLD and bit 7. -/
theorem encodeBundle_header (b : Bundle) :
    (encodeBundle b).getLsbD 0 = b.scalar.isSome ∧ (encodeBundle b).getLsbD 1 = b.vector.isSome ∧
    (encodeBundle b).getLsbD 2 = b.matrix.isSome ∧ (encodeBundle b).getLsbD 3 = b.load.isSome ∧
    (encodeBundle b).getLsbD 4 = b.store.isSome ∧ (encodeBundle b).getLsbD 5 = b.sync.isSome ∧
    (encodeBundle b).getLsbD 6 = b.hold ∧ (encodeBundle b).getLsbD 7 = b.bit7 := by
  unfold encodeBundle
  simp only [BitVec.getLsbD_append]
  simp

/-- A slot that is read where its enable bit is set is the slot that was written. -/
theorem enabledSlot_eq {n : Nat} (o : Option (BitVec n)) : (if o.isSome then some (o.getD 0) else none) = o := by
  cases o <;> rfl

/-- Settles O6. Each slot is read from its own place (`encodeBundle_slots`), as its enable bit says (`encodeBundle_header`). -/
theorem bundleRoundTrip : Obligations.BundleRoundTrip := by
  intro b
  obtain ⟨hscalar, hvector, hmatrix, hload, hstore, hsync⟩ := encodeBundle_slots b
  obtain ⟨h0, h1, h2, h3, h4, h5, h6, h7⟩ := encodeBundle_header b
  simp only [decodeBundle, hscalar, hvector, hmatrix, hload, hstore, hsync, h0, h1, h2, h3, h4, h5, h6, h7, enabledSlot_eq]

/-! ## Slot commands -/

/-- The opcode in a command's bits selects, among the rows of its slot's table, the row of that command. -/
theorem slotCommand_of_slotOf {i : Instr} {slot op w : Nat} {c : CrewRef} (h : slotOf i = some (slot, c, op, w))
    (hop : w >>> slotOpBit slot = op) : slotCommand slot c w = some i := by
  unfold slotOf at h
  split at h <;> cases h
  all_goals
    simp only [slotOpBit] at hop
    simp [slotCommand, scalarCommand, vectorCommand, matrixCommand, loadCommand, storeCommand, syncCommand, hop]

/-- Settles O7, one row of the slots' tables at a time (`slotCommand_of_slotOf`). -/
theorem slotCommandRoundTrip : Obligations.SlotCommandRoundTrip := fun _ _ _ _ _ h hop => slotCommand_of_slotOf h hop

end Sys2Proof
end

section
/-!
What the accesses of an engine, an event, a pit log item and a failed canary leave as it stood (09 R241, R255; 10 R282-R285;
15 R416, R423, R429): the crews, the drills, and the registers of block TLY and of each stope's crews.
-/
namespace Sys2Proof.Machine

/-- A register of block TLY, or one of those that block CRW has for each stope (Table 19.3). -/
abbrev StopeReg (off : Nat) : Prop := off / 0x100000 = 4 ∨ 0x801000 ≤ off ∧ off < 0x900000

/-- From `s` to `t` nothing has changed that the crews' own work has changed: crews, drills, turns, DISPATCH commands, the crew
that issued last on each stope, and its registers. -/
structure State.KeepsCrews (s t : State) : Prop where
  crews : t.crews = s.crews
  drills : t.drills = s.drills
  turns : t.turns = s.turns
  dispatches : t.dispatches = s.dispatches
  lastCrew : ∀ n, (t.stope n).lastCrew = (s.stope n).lastCrew
  reg : ∀ off, StopeReg off → t.reg off = s.reg off

variable {s t u : State}

theorem State.KeepsCrews.refl (s : State) : s.KeepsCrews s := ⟨rfl, rfl, rfl, rfl, fun _ => rfl, fun _ _ => rfl⟩

theorem State.KeepsCrews.trans (h : s.KeepsCrews t) (g : t.KeepsCrews u) : s.KeepsCrews u :=
  ⟨g.crews.trans h.crews, g.drills.trans h.drills, g.turns.trans h.turns, g.dispatches.trans h.dispatches,
   fun n => (g.lastCrew n).trans (h.lastCrew n), fun off ho => (g.reg off ho).trans (h.reg off ho)⟩

theorem State.KeepsCrews.foldl {α : Type} {f : State → α → State} (hf : ∀ (s : State) (a : α), s.KeepsCrews (f s a))
    (l : List α) (s : State) : s.KeepsCrews (l.foldl f s) := by
  induction l generalizing s with
  | nil => exact .refl s
  | cons a l ih => exact (hf s a).trans (ih _)

theorem State.KeepsCrews.ite {p : Prop} [Decidable p] (ht : s.KeepsCrews t) (hu : s.KeepsCrews u) :
    s.KeepsCrews (if p then t else u) := by
  split
  · exact ht
  · exact hu

/-- What changes outside of the crews' work leaves it. -/
theorem State.KeepsCrews.elsewhere (h : s.KeepsCrews t) (hcrews : u.crews = t.crews := by rfl)
    (hdrills : u.drills = t.drills := by rfl) (hturns : u.turns = t.turns := by rfl)
    (hdispatches : u.dispatches = t.dispatches := by rfl) (hstopes : u.stopes = t.stopes := by rfl)
    (hregs : u.regs = t.regs := by rfl) : s.KeepsCrews u :=
  h.trans ⟨hcrews, hdrills, hturns, hdispatches, fun n => by rw [State.stope, hstopes]; rfl,
    fun off _ => State.reg_of_regs hregs off⟩

/-! ## Registers and events -/

theorem State.KeepsCrews.setReg (h : s.KeepsCrews t) {off : Nat} (v : Nat) (ho : ¬StopeReg off) :
    s.KeepsCrews (t.setReg off v) :=
  h.trans ⟨rfl, rfl, rfl, rfl, fun _ => rfl, fun _ hs => t.setReg_reg_ne v fun e => ho (e ▸ hs)⟩

theorem State.KeepsCrews.bump (h : s.KeepsCrews t) {off : Nat} (ho : ¬StopeReg off) : s.KeepsCrews (t.bump off) :=
  h.setReg _ ho

theorem State.KeepsCrews.bumpIf (h : s.KeepsCrews t) (b : Bool) {off : Nat} (ho : ¬StopeReg off) :
    s.KeepsCrews (t.bumpIf b off) := .ite (h.bump ho) h

theorem State.msix_keepsCrews (s : State) (vec : Nat) : s.KeepsCrews (s.msix vec) := by
  unfold State.msix
  split <;> exact (State.KeepsCrews.refl s).elsewhere

theorem State.raise_keepsCrews (s : State) (e : Nat) : s.KeepsCrews (s.raise e) := by
  have hset : s.KeepsCrews (s.hwSet Reg.lmpEventStat (2 ^ e)) :=
    (State.KeepsCrews.setReg (off := Reg.lmpEventStat) (.refl s) _ (by decide)).elsewhere
  exact .ite (hset.trans (State.msix_keepsCrews _ _)) hset

theorem State.KeepsCrews.raiseIf (h : s.KeepsCrews t) (b : Bool) (e : Nat) : s.KeepsCrews (t.raiseIf b e) :=
  .ite (h.trans (t.raise_keepsCrews e)) h

/-! ## Marked words (09 R255) -/

theorem State.noteUe_keepsCrews (s : State) (pa syn : Nat) : s.KeepsCrews (s.noteUe pa syn) := by
  have ue {off : Nat} (h : ¬StopeReg off) (v w : Nat) :
      s.KeepsCrews (((s.bump off).setReg64 Reg.memUeAddr0 Reg.memUeAddr1 v).setReg Reg.memUeInfo w) :=
    ((((State.KeepsCrews.refl s).bump h).setReg _ (by decide)).setReg _ (by decide)).setReg _ (by decide)
  unfold State.noteUe
  split
  · exact .refl s
  · exact .refl s
  · refine State.KeepsCrews.raiseIf ?_ _ _
    split
    case h_1 k _ =>
      have hline (v : Nat) : s.KeepsCrews ((s.bump (Reg.hbmUeCnt k)).setReg (Reg.hbmUeAddr k) v) :=
        ((State.KeepsCrews.refl s).bump (by unfold Reg.hbmUeCnt; omega)).setReg _ (by unfold Reg.hbmUeAddr; omega)
      have htop (v w : Nat) := (hline v).setReg (off := Reg.hbmUeAddrTop k) w (by unfold Reg.hbmUeAddrTop; omega)
      exact (State.KeepsCrews.ite (hline _) (htop _ _)).elsewhere
    case h_2 st _ => exact ue (by unfold Reg.memFaceUeCnt; omega) _ _
    case h_3 l _ => exact ue (by unfold Reg.memSpUeCnt; omega) _ _
    · exact .refl s

theorem State.noteMarks_keepsCrews (s : State) (pa n : Nat) : s.KeepsCrews (s.noteMarks pa n) := by
  refine (State.KeepsCrews.foldl (fun s e => s.noteUe_keepsCrews _ _) _ s).trans (.foldl (fun s l => ?_) _ _)
  split
  · exact (State.KeepsCrews.refl s).bump (by unfold Reg.cxlPoisonCnt; omega)
  · exact .refl s

theorem State.touch_keepsCrews (s : State) (pa : Nat) : s.KeepsCrews (s.touch pa) := by
  unfold State.touch
  split
  · exact (State.KeepsCrews.refl s).elsewhere
  · exact .refl s

theorem State.writeMem_keepsCrews (s : State) (pa n v en : Nat) : s.KeepsCrews (s.writeMem pa n v en) := by
  unfold State.writeMem
  refine (State.KeepsCrews.foldl (fun s e => ?_) _ s).elsewhere
  exact .ite (State.KeepsCrews.refl s).elsewhere (s.noteUe_keepsCrews _ _).elsewhere

/-! ## Translation (10 R282, R283) -/

theorem State.readEntries_keepsCrews (s : State) (l : List Nat) : s.KeepsCrews (s.readEntries l) :=
  .foldl (fun s a =>
    have hnote : s.KeepsCrews (if s.marked a 8 then s.noteMarks a 8 else s) := .ite (s.noteMarks_keepsCrews a 8) (.refl s)
    hnote.trans (State.touch_keepsCrews _ a)) l s

theorem State.KeepsCrews.refuse (h : s.KeepsCrews t) : s.KeepsCrews t.refuse := h.bump (by decide)

theorem State.tlbPut_keepsCrews (s : State) (k : Option Nat) (e : TlbEntry) : s.KeepsCrews (s.tlbPut k e) := by
  unfold State.tlbPut
  split <;> exact (State.KeepsCrews.refl s).elsewhere

theorem State.xlate_keepsCrews (s : State) (k : Option Nat) (va : Nat) (w : Bool) : s.KeepsCrews (s.xlate k va w).1 := by
  have hrefl := State.KeepsCrews.refl s
  unfold State.xlate
  split
  · split
    · split
      · exact hrefl
      · exact hrefl.refuse
    · exact hrefl.refuse
  split
  · exact hrefl.refuse
  extract_lets cached r s'
  have hread : s.KeepsCrews s' := s.readEntries_keepsCrews _
  split
  · exact .ite hread.refuse hread
  split
  · exact hread
  extract_lets pa
  split
  · exact hread.trans (s'.tlbPut_keepsCrews _ _)
  · exact hread.refuse

theorem State.xlateSpan_keepsCrews (k : Option Nat) (w : Bool) (fuel : Nat) (s : State) (va n : Nat) :
    s.KeepsCrews (s.xlateSpan k va n w fuel).1 := by
  induction fuel generalizing s va n with
  | zero => exact .refl s
  | succ fuel ih =>
    have hx := s.xlate_keepsCrews k va w
    unfold State.xlateSpan
    dsimp only
    split
    · exact .refl s
    split
    · next e => rwa [e] at hx
    · next s' pa e =>
      rw [e] at hx
      have hrest := hx.trans (ih s' (va + min n (2 ^ 16 - va % 2 ^ 16)) (n - min n (2 ^ 16 - va % 2 ^ 16)))
      split
      · next e => rwa [e] at hrest
      · next e => rwa [e] at hrest

/-! ## Writes of an engine -/

theorem State.devRuns_keepsCrews (s : State) (k : Option Nat) (va n : Nat) (w : Bool) :
    s.KeepsCrews (s.devRuns k va n w).1 := by
  have hx := s.xlateSpan_keepsCrews k w (spanPages n) va n
  unfold State.devRuns
  split
  · next e => rwa [e] at hx
  · next e =>
    rw [e] at hx
    split
    · exact hx.setReg _ (by unfold Reg.cxlErrCnt; omega)
    · exact hx

theorem State.writeRuns_keepsCrews (l : List (Nat × Nat)) (s : State) (v en : Nat) : s.KeepsCrews (s.writeRuns l v en) := by
  induction l generalizing s v en with
  | nil => exact .refl s
  | cons r l ih =>
    unfold State.writeRuns
    refine State.KeepsCrews.trans ?_ (ih _ _ _)
    split
    · exact (State.KeepsCrews.refl s).elsewhere
    · exact (s.writeMem_keepsCrews _ _ _ _).trans (State.touch_keepsCrews _ _)

theorem State.devWrite_keepsCrews (s : State) (k : Option Nat) (va n v : Nat) : s.KeepsCrews (s.devWrite k va n v).1 := by
  have hr := s.devRuns_keepsCrews k va n true
  unfold State.devWrite
  split
  · next e => rwa [e] at hr
  · next e =>
    rw [e] at hr
    exact hr.trans (State.writeRuns_keepsCrews _ _ _ _)

/-- A record pushed on a ring changes the ring's HEAD or counts a drop (04 R117). -/
theorem State.KeepsCrews.ringPush (h : s.KeepsCrews t) (r : Ring) (en : Bool) (n v : Nat) (hhead : ¬StopeReg r.head)
    (hdrop : ¬StopeReg r.drop) : s.KeepsCrews (t.ringPush r en n v) := by
  have hw := h.trans (t.devWrite_keepsCrews none (t.reg64 r.base0 r.base1 + n * t.reg r.head) n v)
  unfold State.ringPush
  dsimp only
  split
  · exact h.bump hdrop
  split
  · next e =>
    rw [e] at hw
    exact hw.bump hdrop
  · next e =>
    rw [e] at hw
    exact hw.setReg _ hhead

/-! ## Steps, tickets and verdicts (15 R408-R417, R429) -/

theorem State.KeepsCrews.modStep (h : s.KeepsCrews t) (id : StepId) (f : StepRec → StepRec) : s.KeepsCrews (t.modStep id f) :=
  h.elsewhere

theorem State.KeepsCrews.report (h : s.KeepsCrews t) (id : StepId) (it : Item) : s.KeepsCrews (t.report id it) := by
  have hdrop : s.KeepsCrews (t.bump Reg.plgItemDropCnt) := h.bump (by decide)
  have hput (k : StepId) (g : StepRec → StepRec) (b : Bool) : s.KeepsCrews ((t.modStep k g).bumpIf b Reg.plgItemDropCnt) :=
    (h.modStep k g).bumpIf b (by decide)
  unfold State.report
  extract_lets put
  split
  · exact hdrop
  split
  · split
    · exact hput _ _ _
    · split
      · exact hput _ _ _
      · exact hdrop
  · split
    · exact hput _ _ _
    · exact hdrop

theorem State.send_keepsCrews (s : State) (p : Packet) : s.KeepsCrews (s.send p) :=
  (State.KeepsCrews.refl s).elsewhere

theorem State.KeepsCrews.setTickets (h : s.KeepsCrews t) (l : List Ticket) : s.KeepsCrews (t.setTickets l) :=
  State.KeepsCrews.setReg (off := Reg.dptUnresolved) h.elsewhere _ (by decide)

theorem State.sendVerdict_keepsCrews (s : State) (t : Ticket) (good : Bool) (cause : Nat) :
    s.KeepsCrews (s.sendVerdict t good cause) := by
  have heach : s.KeepsCrews (t.dests.foldl (fun s d => s.send (s.verdictPacket d false t.id good cause)) s) :=
    .foldl (fun s _ => s.send_keepsCrews _) _ s
  exact .ite (.ite (s.send_keepsCrews _) heach) heach

theorem State.KeepsCrews.dropTicket (h : s.KeepsCrews t) (x : Ticket) (good : Bool) (cause : Nat) :
    s.KeepsCrews (t.dropTicket x good cause) := by
  unfold State.dropTicket
  extract_lets s1 s2 s3 s4
  have h1 : s.KeepsCrews s1 := h.setTickets _
  have h2 : s.KeepsCrews s2 := .ite h1.elsewhere h1
  have h3 : s.KeepsCrews s3 := h2.trans (s2.sendVerdict_keepsCrews _ _ _)
  have h4 : s.KeepsCrews s4 := h3.bump (by cases good <;> decide)
  exact .ite (h4.modStep _ _) h2

theorem State.KeepsCrews.poisonStep (h : s.KeepsCrews t) (num cause ticket origin : Nat) :
    s.KeepsCrews (t.poisonStep num cause ticket origin) := by
  unfold State.poisonStep
  extract_lets id s1 s2 hit low s3 s4 s5 s6 dead
  have h2 : s.KeepsCrews s2 := .bump (.ite (h.trans (t.send_keepsCrews _)) h) (by decide)
  have h3 : s.KeepsCrews s3 := h2.report _ _
  have h4 : s.KeepsCrews s4 := .ite ((h3.setReg _ (by decide)).setReg _ (by decide)) h3
  have h5 : s.KeepsCrews s5 := h4.elsewhere
  have h6 : s.KeepsCrews s6 := h5.raiseIf _ _
  exact .ite h (h6.trans (.foldl (fun s _ => (State.KeepsCrews.refl s).dropTicket _ _ _) _ _))

/-- A ticket is issued beside the crews (15 R408, R417). -/
theorem State.issueTicket_keepsCrews (s : State) (step : StepId) (kind : Nat) (old : List Nat) (tile : Option Nat) :
    s.KeepsCrews (s.issueTicket step kind old tile).2.2 := by
  unfold State.issueTicket
  extract_lets serial s1 id deps x s2
  have h1 : s.KeepsCrews s1 := (State.KeepsCrews.refl s).elsewhere
  have h2 : s.KeepsCrews s2 := State.KeepsCrews.setTickets (t := { s1 with born := s1.born + 1 }) h1.elsewhere _
  split <;> dsimp only
  · exact h2.dropTicket _ _ _
  · exact h2

/-! ## Canaries that fail (15 R423) -/

theorem State.stope_modStope (s : State) (n m : Nat) (f : StopeCtl → StopeCtl) :
    (s.modStope n f).stope m = if m = n then f (s.stope n) else s.stope m :=
  Store.get_set _ _ _ _ _

/-- A stope's record whose last crew stands may change. -/
theorem State.KeepsCrews.modStope (h : s.KeepsCrews t) (n : Nat) (f : StopeCtl → StopeCtl)
    (hf : ∀ x, (f x).lastCrew = x.lastCrew) : s.KeepsCrews (t.modStope n f) := by
  refine h.trans ⟨rfl, rfl, rfl, rfl, fun m => ?_, fun _ _ => rfl⟩
  rw [State.stope_modStope]
  split
  · next e => rw [hf, e]
  · rfl

theorem State.KeepsCrews.requestFence (h : s.KeepsCrews t) (n cause : Nat) : s.KeepsCrews (t.requestFence n cause) :=
  .ite h (h.modStope n _ fun _ => by split <;> rfl)

theorem State.KeepsCrews.canaryFail (h : s.KeepsCrews t) (n cause entry : Nat) : s.KeepsCrews (t.canaryFail n cause entry) := by
  unfold State.canaryFail
  extract_lets s1 f sus nums lo hi s2 open_ s3 s4 s5
  have h1 : s.KeepsCrews s1 := h.requestFence _ _
  have h2 : s.KeepsCrews s2 := h1.elsewhere
  have h3 : s.KeepsCrews s3 := .ite (h2.poisonStep _ _ _ _) h2
  have h5 : s.KeepsCrews s5 := (h3.report _ _).bump (by decide)
  exact h5.raiseIf _ _

end Sys2Proof.Machine
end

section
/-!
Skips (06 R157-R162; 16 R448): what a skipped slot leaves as it stood, and the obligation.
-/
namespace Sys2Proof.Machine

variable {s t u : State} {c : CrewRef}

/-! ## What changes the record of a crew's run alone -/

/-- From `s` to `t` nothing of what `State.KeepsCrews` names has changed for crew `c` but the record that it keeps of its run; the
run is on the crew as before, alone or as one of its pair. -/
structure State.InstanceOnly (c : CrewRef) (s t : State) : Prop where
  crew : t.crew c = { s.crew c with inst := (t.crew c).inst }
  pair : (t.crew c).inst.map (·.pair) = (s.crew c).inst.map (·.pair)
  drills : t.drills = s.drills
  turns : t.turns = s.turns
  lastCrew : ∀ n, (t.stope n).lastCrew = (s.stope n).lastCrew
  reg : ∀ off, StopeReg off → t.reg off = s.reg off

theorem State.InstanceOnly.trans (h : s.InstanceOnly c t) (g : t.InstanceOnly c u) : s.InstanceOnly c u where
  crew := by rw [g.crew, h.crew]
  pair := g.pair.trans h.pair
  drills := g.drills.trans h.drills
  turns := g.turns.trans h.turns
  lastCrew n := (g.lastCrew n).trans (h.lastCrew n)
  reg off ho := (g.reg off ho).trans (h.reg off ho)

theorem State.KeepsCrews.instanceOnly (h : s.KeepsCrews t) : s.InstanceOnly c t := by
  have hcrew := State.crew_of_crews h.crews c
  exact ⟨by rw [hcrew], by rw [hcrew], h.drills, h.turns, h.lastCrew, h.reg⟩

theorem State.InstanceOnly.refl (s : State) : s.InstanceOnly c s := (State.KeepsCrews.refl s).instanceOnly

theorem State.InstanceOnly.keepsCrews (h : s.InstanceOnly c t) (g : t.KeepsCrews u) : s.InstanceOnly c u :=
  h.trans g.instanceOnly

theorem State.InstanceOnly.isSome (h : s.InstanceOnly c t) : (t.crew c).inst.isSome = (s.crew c).inst.isSome := by
  simpa using congrArg Option.isSome h.pair

@[simp] theorem State.modCrew_crew (s : State) (c : CrewRef) (f : Crew → Crew) : (s.modCrew c f).crew c = f (s.crew c) :=
  s.setCrew_crew c _

@[simp] theorem State.modInst_crew (s : State) (c : CrewRef) (f : Instance → Instance) :
    (s.modInst c f).crew c = { s.crew c with inst := (s.crew c).inst.map f } :=
  s.setCrew_crew c _

theorem State.InstanceOnly.modInst (h : s.InstanceOnly c t) (f : Instance → Instance) (hf : ∀ i, (f i).pair = i.pair) :
    s.InstanceOnly c (t.modInst c f) := by
  refine h.trans ⟨by rw [State.modInst_crew], ?_, rfl, rfl, fun _ => rfl, fun _ _ => rfl⟩
  simp [Function.comp_def, hf]

theorem State.InstanceOnly.ite {p : Prop} [Decidable p] (ht : s.InstanceOnly c t) (hu : s.InstanceOnly c u) :
    s.InstanceOnly c (if p then t else u) := by
  split
  · exact ht
  · exact hu

theorem State.InstanceOnly.markBad (h : s.InstanceOnly c t) (k : Nat) : s.InstanceOnly c (t.markBad c k) := by
  unfold State.markBad
  exact h.modInst _ fun _ => rfl

theorem State.runDiffers_instanceOnly (s : State) (c : CrewRef) : s.InstanceOnly c (s.runDiffers c) := by
  unfold State.runDiffers
  refine State.InstanceOnly.keepsCrews ?_ ((State.KeepsCrews.refl _).bumpIf _ (by decide))
  exact ((State.InstanceOnly.refl s).markBad 3).modInst _ fun _ => rfl

theorem State.InstanceOnly.failCanary (h : s.InstanceOnly c t) (cause : Nat) : s.InstanceOnly c (t.failCanary c cause) := by
  unfold State.failCanary
  split
  · exact h
  refine .ite h ?_
  have hfail := h.modInst (fun i => { i with canaryFail := some cause }) fun _ => rfl
  dsimp only
  split
  · exact hfail.keepsCrews ((State.KeepsCrews.refl _).canaryFail _ _ _)
  · exact hfail

/-- What a run sends off its stope changes what its effect changes (15 R405). -/
theorem State.KeepsCrews.offStope (h : s.KeepsCrews t) (i : Instance) (x : Traffic) {f : State → State}
    (hf : ∀ u : State, u.KeepsCrews (f u)) : s.KeepsCrews (t.offStope i x f) := by
  unfold State.offStope
  extract_lets s1
  have h1 : s.KeepsCrews s1 := h.elsewhere
  exact .ite (h.trans (hf t)) (.ite h1 (h1.trans (hf s1)))

/-! ## The record of a skip (06 R157, R161, R162) -/

/-- A skip counts, and changes the record of the crew's run beside. -/
theorem State.noteSkip_instanceOnly {i : Instance} (hi : (s.crew c).inst = some i) (site : Site) (slot k : Nat) :
    (s.bump (Reg.crwSkipCnt c.stope)).InstanceOnly c (s.noteSkip c site slot k) := by
  unfold State.noteSkip
  extract_lets cr s1 key s2 s3
  rw [show cr.inst = some i from hi]
  have h2 : s1.InstanceOnly c s2 := (State.InstanceOnly.refl s1).modInst _ fun _ => rfl
  have h3 : s1.InstanceOnly c s3 := h2.modInst _ fun _ => rfl
  refine .ite (.ite h2 (h2.trans (s2.runDiffers_instanceOnly c))) ?_
  extract_lets seals record s4
  have h4 : s1.InstanceOnly c s4 := by
    refine h3.keepsCrews ((State.KeepsCrews.refl s3).offStope _ _ fun u => ?_)
    have hring := (State.KeepsCrews.refl u).ringPush ringSkip (u.flag Reg.crwCtrl Fld.crwCtrlSkipqEn) 32 record
      (by decide) (by decide)
    exact .raiseIf (.ite hring ((hring.report _ _).modStep _ _)) _ _
  exact .ite (h4.failCanary 3) h4

/-! ## A slot that is skipped (06 R157-R159) -/

/-- From `s` to `t` a slot of the crew's bundle was skipped: it counts, no write of it is pending, and beside the record of the
crew's run nothing of what `State.KeepsCrews` names has changed for the crew. -/
structure State.SlotSkipped (c : CrewRef) (slot : Nat) (s t : State) : Prop where
  crew : t.crew c = { (s.crew c).dropBusy slot with inst := (t.crew c).inst }
  drills : t.drills = s.drills
  turns : t.turns = s.turns
  lastCrew : ∀ n, (t.stope n).lastCrew = (s.stope n).lastCrew
  skipCnt : t.reg (Reg.crwSkipCnt c.stope) = (s.reg (Reg.crwSkipCnt c.stope) + 1) % 2 ^ 32
  reg : ∀ off, StopeReg off → off ≠ Reg.crwSkipCnt c.stope → t.reg off = s.reg off

theorem stopeReg_crwSkipCnt {n : Nat} (hn : n < 144) : StopeReg (Reg.crwSkipCnt n) := by
  unfold Reg.crwSkipCnt; omega

theorem State.skipSlot_skipped {i : Instance} (hi : (s.crew c).inst = some i) (hc : c.stope < 144) (slot k : Nat) :
    s.SlotSkipped c slot (s.skipSlot c slot k) := by
  have hdrop : ((s.modCrew c fun x => x.dropBusy slot).crew c).inst = some i := by simpa [Crew.dropBusy] using hi
  have h := State.noteSkip_instanceOnly hdrop ((s.modCrew c fun x => x.dropBusy slot).crew c).site slot k
  have hcount : ((s.modCrew c fun x => x.dropBusy slot).bump (Reg.crwSkipCnt c.stope)).crew c = (s.crew c).dropBusy slot :=
    s.modCrew_crew c fun x => x.dropBusy slot
  have hcrew := h.crew
  rw [hcount] at hcrew
  exact ⟨hcrew, h.drills, h.turns, h.lastCrew, (h.reg _ (stopeReg_crwSkipCnt hc)).trans (State.bump_reg _ _),
    fun off ho hne => (h.reg off ho).trans (State.bump_reg_ne _ hne)⟩

/-- What the obligation says of a skipped slot. -/
theorem State.SlotSkipped.performsNothing {slot : Nat} (h : s.SlotSkipped c slot t) :
    t.reg (Reg.crwSkipCnt c.stope) = (s.reg (Reg.crwSkipCnt c.stope) + 1) % 2 ^ 32 ∧ t.drills = s.drills ∧
    (∀ n, n < 2 ^ 16 → t.tally n = s.tally n) ∧ (t.crew c).regs = (s.crew c).regs ∧
    (t.crew c).handles = (s.crew c).handles ∧ (t.crew c).pc = (s.crew c).pc ∧ (t.crew c).loops = (s.crew c).loops := by
  refine ⟨h.skipCnt, h.drills, fun n hn => h.reg _ ?_ ?_, ?_, ?_, ?_, ?_⟩
  · unfold Reg.tlyCount; omega
  · unfold Reg.tlyCount Reg.crwSkipCnt; omega
  all_goals rw [h.crew]; rfl

/-- An active crew has something to run. -/
theorem Crew.inst_of_active {x : Crew} (h : x.active = true) : ∃ i, x.inst = some i := by
  unfold Crew.active at h
  cases hi : x.inst with
  | none => simp [hi] at h
  | some i => exact ⟨i, rfl⟩

/-! ## The scalar slot (Tables 7.1, 7.2) -/

/-- A field of a slot that a mask picks out is not 0 where the masked bits are not. -/
theorem bits_ne_zero_of_and_ne_zero {n hi lo : Nat} {w mask : BitVec n} (hmask : mask.toNat = (2 ^ (hi + 1 - lo) - 1) <<< lo)
    (h : w &&& mask ≠ 0) : bits w.toNat hi lo ≠ 0 := by
  intro hb
  refine h (BitVec.eq_of_toNat_eq (Nat.eq_of_testBit_eq fun k => ?_))
  have hbit : (bits w.toNat hi lo).testBit (k - lo) = false := by simp [hb]
  rw [bits, Nat.testBit_mod_two_pow, Nat.testBit_shiftRight] at hbit
  rw [BitVec.toNat_and, hmask, Nat.testBit_and, Nat.testBit_shiftLeft, Nat.testBit_two_pow_sub_one]
  by_cases hk : lo ≤ k
  · rw [Nat.add_sub_cancel' hk] at hbit
    rw [decide_eq_true hk, Bool.true_and, Bool.and_comm, hbit]
    simp
  · simp [hk]

/-- A row of Table 7.2 reserves fields: its command is a scalar operation of its opcode, and bits that it reserves and that are
not 0 break the format rule of the opcode. -/
def RowReserves (row : Nat × (CrewRef → Slot40 → Instr) × (Slot40 → Slot40) × (Dword → Dword → Slot40 → Dword)) : Prop :=
  row.1 < 64 ∧ (∀ c w s, ∃ f, exec (row.2.1 c w) s = .next (s.scalarSlot row.1 c w.toNat f)) ∧
  ∀ w, row.2.2.1 w ≠ 0 → scalarBadField row.1 w.toNat = true

section Row
variable {op : Nat} {instr : CrewRef → Slot40 → Instr} {val : Dword → Dword → Slot40 → Dword} (hop : op < 64)
  (hexec : ∀ c w s, ∃ f, exec (instr c w) s = .next (s.scalarSlot op c w.toNat f))
include hop hexec

theorem rowReserves_field {mask : Slot40} {hi lo : Nat} (hmask : mask.toNat = (2 ^ (hi + 1 - lo) - 1) <<< lo)
    (hbad : ∀ w, scalarBadField op w = decide (bits w hi lo ≠ 0)) : RowReserves (op, instr, (· &&& mask), val) :=
  ⟨hop, hexec, fun w hw => (hbad w.toNat).trans (decide_eq_true (bits_ne_zero_of_and_ne_zero hmask hw))⟩

theorem rowReserves_nothing : RowReserves (op, instr, fun _ => 0, val) :=
  ⟨hop, hexec, fun _ hw => absurd rfl hw⟩

end Row

/-- Formats SR and SI of Table 7.1: bits 18 to 0 without an immediate, 28 to 24 in MOVI, 23 to 6 in a shift by an immediate. -/
theorem scalarRows_reserve : ∀ row ∈ scalarRows, RowReserves row := by
  simp only [scalarRows, List.forall_mem_cons]
  refine ⟨?add, ?sub, ?mul, ?mulhu, ?and, ?or, ?xor, ?shl, ?shr, ?sar, ?min, ?max, ?minu, ?maxu, ?slt, ?sltu, ?seq, ?movi,
    ?addi, ?andi, ?ori, ?xori, ?shli, ?shri, ?sari, ?insi, fun _ h => absurd h List.not_mem_nil⟩
  case movi => exact rowReserves_field (hi := 28) (lo := 24) (by decide) (fun _ _ _ => ⟨_, rfl⟩) rfl fun _ => rfl
  case addi | andi | ori | xori | insi => exact rowReserves_nothing (by decide) fun _ _ _ => ⟨_, rfl⟩
  case shli | shri | sari =>
    exact rowReserves_field (hi := 23) (lo := 6) (by decide) (fun _ _ _ => ⟨_, rfl⟩) rfl fun _ => rfl
  all_goals exact rowReserves_field (hi := 18) (lo := 0) (by decide) (fun _ _ _ => ⟨_, rfl⟩) rfl fun _ => rfl

/-- A slot's opcode is its bits 39 to 34 (Table 7.1). -/
theorem bits_opcode {w : Slot40} {op : Nat} (hop : op < 64) (h : w.extractLsb' 34 6 = BitVec.ofNat 6 op) :
    bits w.toNat 39 34 = op := by
  have hnat := congrArg BitVec.toNat h
  rw [BitVec.extractLsb'_toNat, BitVec.toNat_ofNat, Nat.mod_eq_of_lt hop] at hnat
  exact hnat

variable {op w k : Nat}

theorem State.scalarSlot_reserved {f : Crew → Nat → Nat} (hactive : (s.crew c).active = true) (hop : bits w 39 34 = op)
    (hbad : scalarBadField op w = true) : s.scalarSlot op c w f = s.skipSlot c 0 2 := by
  simp [State.scalarSlot, hactive, hop, firstCause, hbad]

theorem State.vectorSlot_skipped {f : VecSlot → Crew → Crew × Status} (hactive : (s.crew c).active = true)
    (hop : (VecSlot.ofNat w).op = op) (hcheck : (VecSlot.ofNat w).check (s.crew c) w false = some k) :
    s.vectorSlot op c w f = s.skipSlot c 1 k := by
  simp [State.vectorSlot, hactive, hop, hcheck]

/-- A count of the sluice beside a skip changes nothing of what the obligation names (Table 19.3). -/
theorem State.SlotSkipped.bumpIf {slot : Nat} (h : s.SlotSkipped c slot t) (b : Bool) {off : Nat} (ho : ¬StopeReg off)
    (hc : c.stope < 144) : s.SlotSkipped c slot (t.bumpIf b off) where
  crew := by rw [State.crew_of_crews (t.bumpIf_crews b off)]; exact h.crew
  drills := by rw [t.bumpIf_eq b off]; exact h.drills
  turns := by rw [t.bumpIf_eq b off]; exact h.turns
  lastCrew n := by rw [t.bumpIf_eq b off]; exact h.lastCrew n
  skipCnt := (t.bumpIf_reg_ne b (off := off) fun e => ho (e ▸ stopeReg_crwSkipCnt hc)).trans h.skipCnt
  reg o hs hne := (t.bumpIf_reg_ne b (off := off) fun e => ho (e ▸ hs)).trans (h.reg o hs hne)

/-- Settles O29. In both slots the cause that applies makes the command a skip of its slot (`State.skipSlot_skipped`). -/
theorem skippedSlotsPerformNothing : Obligations.SkippedSlotsPerformNothing := by
  refine ⟨fun row hrow c w s hc hactive hop hreserved => ?_, fun row hrow c w s k hc hactive hop hcheck => ?_⟩
  all_goals obtain ⟨i, hi⟩ := Crew.inst_of_active hactive
  · obtain ⟨hlt, hexec, hbad⟩ := scalarRows_reserve row hrow
    obtain ⟨f, hf⟩ := hexec c w s
    rw [State.scalarSlot_reserved hactive (bits_opcode hlt hop) (hbad w hreserved)] at hf
    exact ⟨_, hf, (State.skipSlot_skipped hi hc 0 2).performsNothing⟩
  · obtain ⟨g, trans, hexec, -⟩ := vectorRows_elementwise row hrow
    have hf := hexec c w s
    rw [State.vectorSlot_skipped hactive hop hcheck] at hf
    exact ⟨_, hf, ((State.skipSlot_skipped hi hc 1 k).bumpIf _ (by unfold Reg.slcTransCnt; omega) hc).performsNothing⟩

end Sys2Proof.Machine
end

section
/-!
The end of a run (06 R150, R166; 08 R218): its merge buffer is issued, it is accounted for, and its crew is left idle.
-/
namespace Sys2Proof.Machine

variable {s t u : State} {c : CrewRef}

/-! ## A crew that is left idle (06 R150, R166) -/

/-- A crew is idle: nothing runs on it, and no tile context of its stope's drill is its own. -/
def State.leftIdle (s : State) (c : CrewRef) : Prop :=
  (s.crew c).inst = none ∧ (s.crew c).phase = .idle ∧ (s.drill c.stope).ctxs.all (·.crew ≠ c.crew) = true

theorem State.drill_of_drills (h : t.drills = s.drills) (n : Nat) : t.drill n = s.drill n := by
  unfold State.drill; rw [h]

theorem State.leftIdle.of_eq (h : s.leftIdle c) (heq : t.crews = s.crews ∧ t.drills = s.drills) : t.leftIdle c := by
  obtain ⟨hcrews, hdrills⟩ := heq
  unfold State.leftIdle
  rw [State.crew_of_crews hcrews, State.drill_of_drills hdrills]
  exact h

@[simp] theorem State.setPhase_crew (s : State) (c : CrewRef) (p : CrewPhase) :
    (s.setPhase c p).crew c = { s.crew c with phase := p } :=
  s.setCrew_crew c { s.crew c with phase := p }

@[simp] theorem State.freeCrewTiles_drill (s : State) (c : CrewRef) :
    (s.freeCrewTiles c).drill c.stope = { s.drill c.stope with ctxs := (s.drill c.stope).ctxs.filter (·.crew ≠ c.crew) } :=
  Store.get_set_self _ _ _ _

theorem State.freeCrewTiles_crews (s : State) (c : CrewRef) : (s.freeCrewTiles c).crews = s.crews := by
  simp [State.freeCrewTiles, State.setDrill]

theorem State.idleCrew_leftIdle (s : State) (c : CrewRef) : (s.idleCrew c).leftIdle c := by
  have hcrew : (s.idleCrew c).crew c = { Crew.idle with dupCount := (s.crew c).dupCount } := by
    unfold State.idleCrew
    rw [State.setPhase_crew, State.setCrew_crew, State.crew_of_crews (s.freeCrewTiles_crews c)]
    rfl
  have hdrills : (s.idleCrew c).drills = (s.freeCrewTiles c).drills := by simp [State.idleCrew, State.setPhase]
  refine ⟨by rw [hcrew]; rfl, by rw [hcrew]; rfl, ?_⟩
  rw [State.drill_of_drills hdrills, State.freeCrewTiles_drill]
  simp

/-! ## The account of a run (08 R218; 15 R423) -/

theorem State.dispatchTally_eq (s : State) (id : Nat) :
    (s.dispatchTally id).crews = s.crews ∧ (s.dispatchTally id).drills = s.drills := by
  unfold State.dispatchTally
  split
  · split <;> exact ⟨rfl, rfl⟩
  · exact ⟨rfl, rfl⟩

theorem State.dispatchCount_eq (s : State) (id : Nat) :
    (s.dispatchCount id).crews = s.crews ∧ (s.dispatchCount id).drills = s.drills := by
  unfold State.dispatchCount
  split
  · exact ⟨rfl, rfl⟩
  · dsimp only
    split <;> exact ⟨rfl, rfl⟩

theorem State.KeepsCrews.canaryPass (h : s.KeepsCrews t) (n : Nat) : s.KeepsCrews (t.canaryPass n) := by
  have hreg := (h.setReg (t.frame % 2 ^ 32) (off := Reg.dptLastGood n) (by unfold Reg.dptLastGood; omega)).bump
    (off := Reg.dptCanaryCnt n) (by unfold Reg.dptCanaryCnt; omega)
  exact hreg.modStope n _ fun _ => rfl

/-- The account of a run is kept beside the crews and the drills. -/
theorem State.accountEnd_eq (s : State) (c : CrewRef) (i : Instance) :
    (s.accountEnd c i).crews = s.crews ∧ (s.accountEnd c i).drills = s.drills := by
  unfold State.accountEnd
  split
  · next id _ _ =>
    have htally := State.dispatchTally_eq (s.setOutcome (i.tickets ++ i.oldTickets) i.bad) id
    have hcount := State.dispatchCount_eq ((s.setOutcome (i.tickets ++ i.oldTickets) i.bad).dispatchTally id) id
    exact ⟨hcount.1.trans htally.1, hcount.2.trans htally.2⟩
  · extract_lets s1
    split
    · exact ⟨rfl, rfl⟩
    have hfail (cause entry : Nat) := (State.KeepsCrews.refl s1).canaryFail c.stope cause entry
    have hpass := (State.KeepsCrews.refl s1).canaryPass c.stope
    split
    · exact ⟨(hfail _ _).crews, (hfail _ _).drills⟩
    · exact ⟨hpass.crews, hpass.drills⟩

/-! ## The end (06 R150, R166) -/

/-- A skip does not end what its crew runs. -/
theorem State.noteSkip_isSome (site : Site) (slot k : Nat) (h : (s.crew c).inst.isSome = true) :
    ((s.noteSkip c site slot k).crew c).inst.isSome = true := by
  obtain ⟨i, hi⟩ := Option.isSome_iff_exists.1 h
  exact (State.noteSkip_instanceOnly hi site slot k).isSome.trans h

theorem State.foldl_noteSkip_isSome {α : Type} (site : α → Site) (slot k : Nat) (l : List α)
    (h : (s.crew c).inst.isSome = true) :
    ((l.foldl (fun s a => s.noteSkip c (site a) slot k) s).crew c).inst.isSome = true := by
  induction l generalizing s with
  | nil => exact h
  | cons a l ih => exact ih (State.noteSkip_isSome _ _ _ h)

theorem State.writeRefusals_isSome (h : (s.crew c).inst.isSome = true) :
    ((s.writeRefusals c).crew c).inst.isSome = true := by
  unfold State.writeRefusals
  split
  · exact h
  extract_lets s1 s2
  have h1 : (s1.crew c).inst.isSome = true := State.foldl_noteSkip_isSome MergeEntry.site 1 11 _ h
  have h2 : (s2.crew c).inst.isSome = true := State.foldl_noteSkip_isSome (fun f => f) 4 11 _ h1
  rw [State.modInst_crew, Option.isSome_map]
  exact h2

/-- However a run ends, alone or as one of a pair, its crew is left idle. -/
theorem State.finishInstance_leftIdle (h : (s.crew c).inst.isSome = true) : (s.finishInstance c).leftIdle c := by
  have hidle (u : State) (i : Instance) : ((u.idleCrew c).accountEnd c i).leftIdle c :=
    (u.idleCrew_leftIdle c).of_eq (State.accountEnd_eq _ c i)
  have hsome := State.writeRefusals_isSome h
  unfold State.finishInstance
  dsimp only
  split
  · next hnone => simp [hnone] at hsome
  split
  · exact hidle _ _
  split
  · exact State.idleCrew_leftIdle _ c
  split
  · exact hidle _ _
  · exact State.idleCrew_leftIdle _ c

/-- A fetch fault ends the run (R150). -/
theorem State.fetchFault_leftIdle (foff : Nat) (h : (s.crew c).inst.isSome = true) : (s.fetchFault c foff).leftIdle c := by
  unfold State.fetchFault
  extract_lets s1 s2 x s3 s4
  have h1 : (s1.crew c).inst.isSome = true := State.noteSkip_isSome _ _ _ h
  refine State.finishInstance_leftIdle ?_
  rw [State.modInst_crew, Option.isSome_map, State.setCrew_crew]
  exact h1

/-! ## The merge buffer (05 R128; 10 R271) -/

/-- The crew waits for `k` merges more. -/
def Crew.sent (x : Crew) (k : Nat) : Crew :=
  { x with inst := x.inst.map fun i => { i with mergesOut := i.mergesOut + k } }

/-- From `s` to `t` the crew has issued `k` merges, each as a stream of its own on its stope's skip. -/
structure State.MergesIssued (c : CrewRef) (k : Nat) (s t : State) : Prop where
  mem : t.mem = s.mem
  crew : t.crew c = (s.crew c).sent k
  mergeCnt : t.reg (Reg.slcMergeCnt c.stope) = (s.reg (Reg.slcMergeCnt c.stope) + k) % 2 ^ 32
  streams : (t.skip c.stope).streams.length = (s.skip c.stope).streams.length + k

theorem State.MergesIssued.zero (s : State) : s.MergesIssued c 0 s := by
  refine ⟨rfl, ?_, (Nat.mod_eq_of_lt (s.reg_lt _)).symm, rfl⟩
  simp [Crew.sent]

theorem State.MergesIssued.trans {j k : Nat} (h : s.MergesIssued c j t) (g : t.MergesIssued c k u) :
    s.MergesIssued c (j + k) u where
  mem := g.mem.trans h.mem
  crew := by
    rw [g.crew, h.crew]
    simp [Crew.sent, Function.comp_def, Nat.add_assoc]
  mergeCnt := by rw [g.mergeCnt, h.mergeCnt, Nat.mod_add_mod, Nat.add_assoc]
  streams := by rw [g.streams, h.streams, Nat.add_assoc]

/-- A stream of the module's own changes its skip (10 R271). -/
theorem State.ownStream_frame (s : State) (k : Nat) (use : StreamUse) (step : StepId) (at_ : Nat) (d : Option StreamDesc) :
    (s.ownStream k use step at_ d).2.mem = s.mem ∧ (s.ownStream k use step at_ d).2.regs = s.regs ∧
    (s.ownStream k use step at_ d).2.crews = s.crews ∧ (s.ownStream k use step at_ d).2.dispatches = s.dispatches :=
  ⟨rfl, rfl, rfl, rfl⟩

theorem State.ownStream_streams (s : State) (k : Nat) (use : StreamUse) (step : StepId) (at_ : Nat) (d : Option StreamDesc) :
    ((s.ownStream k use step at_ d).2.skip k).streams.length = (s.skip k).streams.length + 1 := by
  unfold State.ownStream
  rw [State.setSkip_skip]
  exact List.length_append

/-- One entry of the merge buffer is issued. -/
def State.sendMerge (s : State) (c : CrewRef) (i : Instance) (m : MergeEntry) : State :=
  ((s.ownStream c.stope (.merge c.crew m.site m.lode) i.step m.target none).2.bump (Reg.slcMergeCnt c.stope)).modInst c
    fun i => { i with mergesOut := i.mergesOut + 1 }

/-- A stream of a merge counts in SLC_MERGE_CNT and with the merges that its crew waits for. -/
theorem State.MergesIssued.count (hmem : t.mem = s.mem) (hregs : t.regs = s.regs) (hcrews : t.crews = s.crews)
    (hstreams : (t.skip c.stope).streams.length = (s.skip c.stope).streams.length + 1) :
    s.MergesIssued c 1 ((t.bump (Reg.slcMergeCnt c.stope)).modInst c fun i => { i with mergesOut := i.mergesOut + 1 }) := by
  have hcount := t.bump_drillsOnly (Reg.slcMergeCnt c.stope)
  refine ⟨hcount.mem.trans hmem, ?_, ?_, hstreams⟩
  · rw [← State.crew_of_crews (hcount.crews.trans hcrews) c]
    exact State.modInst_crew _ c _
  · rw [← State.reg_of_regs hregs]
    exact t.bump_reg (Reg.slcMergeCnt c.stope)

theorem State.sendMerge_issued (s : State) (c : CrewRef) (i : Instance) (m : MergeEntry) :
    s.MergesIssued c 1 (s.sendMerge c i m) :=
  have ⟨hmem, hregs, hcrews, _⟩ := s.ownStream_frame c.stope (.merge c.crew m.site m.lode) i.step m.target none
  .count hmem hregs hcrews (s.ownStream_streams c.stope (.merge c.crew m.site m.lode) i.step m.target none)

theorem State.foldl_sendMerge_issued (c : CrewRef) (i : Instance) (l : List MergeEntry) (s : State) :
    s.MergesIssued c l.length (l.foldl (fun s m => s.sendMerge c i m) s) := by
  induction l generalizing s with
  | nil => exact .zero s
  | cons m l ih =>
    rw [List.foldl_cons, List.length_cons, Nat.add_comm]
    exact (s.sendMerge_issued c i m).trans (ih _)

/-- What a single run sends off its stope takes effect (15 R405). -/
theorem State.offStope_single {i : Instance} (h : i.pair = 0) (s : State) (x : Traffic) (f : State → State) :
    s.offStope i x f = f s := if_pos h

theorem State.issueMerges_eq {i : Instance} (h : i.pair = 0) (s : State) (c : CrewRef) :
    s.issueMerges c i = (((s.crew c).merge.foldl (fun s m => s.sendMerge c i m) s).modCrew c
      fun x => { x with merge := [] }).modInst c fun i => { i with mergeIssued := true } := by
  simp only [State.issueMerges, State.offStope_single h]
  rfl

/-! ## INSTANCE_COMMIT (06 R166) -/

section Commit
variable {i : Instance} (hi : (s.crew c).inst = some i) (hended : i.ended = true) (hpair : i.pair = 0)
  (htiles : s.tilesOpen c = false) (hdups : (s.crew c).dups = [])
include hi hended hpair htiles hdups

/-- Once its tiles have committed and no duplicate is pending, an ended run issues its merges, waits for them, or ends. -/
theorem execInstanceCommit_ended : execInstanceCommit c s =
    if (s.crew c).merge ≠ [] ∧ i.mergeIssued = false then .next (s.issueMerges c i)
    else if i.mergesOut ≠ 0 then .next s else .next (s.finishInstance c) := by
  simp only [execInstanceCommit, hi, hended, htiles, hdups, State.pairStreams, hpair]
  simp

/-- The merge buffer is issued first. -/
theorem instanceCommit_issues (hmerge : (s.crew c).merge ≠ []) (hissued : i.mergeIssued = false) :
    ∃ t j, exec (.instanceCommit c) s = .next t ∧ t.mem = s.mem ∧ (t.crew c).merge = [] ∧ (t.crew c).inst = some j ∧
      j.mergeIssued = true ∧ j.mergesOut = i.mergesOut + (s.crew c).merge.length ∧
      t.reg (Reg.slcMergeCnt c.stope) = (s.reg (Reg.slcMergeCnt c.stope) + (s.crew c).merge.length) % 2 ^ 32 ∧
      (t.skip c.stope).streams.length = (s.skip c.stope).streams.length + (s.crew c).merge.length := by
  have h := State.foldl_sendMerge_issued c i (s.crew c).merge s
  have hexec := execInstanceCommit_ended hi hended hpair htiles hdups
  rw [if_pos ⟨hmerge, hissued⟩, State.issueMerges_eq hpair] at hexec
  refine ⟨_, { i with mergesOut := i.mergesOut + (s.crew c).merge.length, mergeIssued := true }, hexec, h.mem, ?_, ?_, rfl, rfl,
    h.mergeCnt, h.streams⟩
  · rw [State.modInst_crew, State.modCrew_crew]
  · rw [State.modInst_crew, State.modCrew_crew, h.crew, Crew.sent, hi]
    rfl

/-- With nothing left to merge it commits. -/
theorem instanceCommit_commits (hdone : (s.crew c).merge = [] ∨ i.mergeIssued = true) (hout : i.mergesOut = 0) :
    exec (.instanceCommit c) s = .next (s.finishInstance c) := by
  have hno : ¬((s.crew c).merge ≠ [] ∧ i.mergeIssued = false) := by
    rintro ⟨hmerge, hissued⟩
    simp [hmerge, hissued] at hdone
  refine (execInstanceCommit_ended hi hended hpair htiles hdups).trans ?_
  rw [if_neg hno, if_neg (not_not_intro hout)]

end Commit

/-- Settles O32. Of an ended run first the merge buffer goes out, entry by entry (`State.MergesIssued`), then the crew is left
idle (`State.finishInstance_leftIdle`). -/
theorem instancesCommit : Obligations.InstancesCommit := by
  intro c s i hi hended hpair htiles hdups
  refine ⟨fun hmerge hissued => instanceCommit_issues hi hended hpair htiles hdups hmerge hissued, fun hdone hout => ?_⟩
  have hsome : (s.crew c).inst.isSome = true := by rw [hi]; rfl
  obtain ⟨hinst, hphase, hctxs⟩ := State.finishInstance_leftIdle hsome
  exact ⟨_, instanceCommit_commits hi hended hpair htiles hdups hdone hout, hinst, hphase, hctxs⟩

end Sys2Proof.Machine
end

section
/-!
Switching crews out (06 R167, R168; 08 R224): a wait of age and the victim of a preemption, and the obligation.
-/
namespace Sys2Proof.Machine

variable {s : State} {c : CrewRef}

/-! ## A crew that begins to drain (R167, R168) -/

/-- What a crew that begins to drain keeps of its switch-out: it has no save slot yet. -/
def Crew.switchedOut (preempted : Bool) (x : Crew) : Crew :=
  { x with saveSlot := none, preempted, saveLen := 19264, savedH := [] }

theorem State.setPhase_crewsAndRegs (s : State) (c : CrewRef) (p : CrewPhase) :
    ∃ x r, s.setPhase c p = { s with crews := x, regs := r } := ⟨_, _, rfl⟩

theorem State.switchOut_room (h : s.slotRoom = true) (p : Bool) :
    s.switchOut c p = (s.modCrew c (Crew.switchedOut p)).setPhase c .draining := if_pos h

theorem State.switchOut_noRoom (h : s.slotRoom = false) (p : Bool) : s.switchOut c p = s.bump (Reg.crwNoslotCnt c.stope) := by
  simp [State.switchOut, h]

theorem State.switchOut_eq (s : State) (c : CrewRef) (p : Bool) :
    s.switchOut c p = { s with crews := (s.switchOut c p).crews, regs := (s.switchOut c p).regs } := by
  have hsome : ∃ x r, s.switchOut c p = { s with crews := x, regs := r } := by
    cases hroom : s.slotRoom with
    | true =>
      obtain ⟨x, r, h⟩ := State.setPhase_crewsAndRegs (s.modCrew c (Crew.switchedOut p)) c .draining
      exact ⟨x, r, (State.switchOut_room hroom p).trans h⟩
    | false => exact ⟨s.crews, _, State.switchOut_noRoom hroom p⟩
  obtain ⟨x, r, h⟩ := hsome
  rw [h]

theorem State.switchOut_crew (h : s.slotRoom = true) (p : Bool) :
    (s.switchOut c p).crew c = { Crew.switchedOut p (s.crew c) with phase := .draining } := by
  rw [State.switchOut_room h, State.setPhase_crew, State.modCrew_crew]

/-! ## A wait of age (R167) -/

theorem switchWaitExpiry_switchesOut {w : CrewWait} (hphase : (s.crew c).phase = .waiting) (hwait : (s.crew c).wait = some w)
    (hsat : w.sat = none) (hlate : w.late = none) (hage : s.was Reg.crwSwitchWait < s.cycle - w.since)
    (hwork : s.entryFor c.stope = true) (hfull : s.idleCrewOf c.stope = none) (hslots : s.was Reg.crwSaveSlots ≠ 0) :
    exec (.switchWaitExpiry c) s = .next (s.switchOut c false) := by
  change execSwitchWaitExpiry c s = _
  simp only [execSwitchWaitExpiry, hphase, hwait]
  simp [hsat, hlate, hage, hwork, hfull, hslots]

/-! ## The victim of a preemption (08 R224) -/

/-- The request of a level names the crew that it preempts. -/
def State.requestPreempt (s : State) (l : Nat) (c : CrewRef) : State :=
  { s with preempts := Store.set 0 s.preempts l (crewKey c + 1) }

theorem State.requestPreempt_slotRoom (s : State) (l : Nat) (c : CrewRef) : (s.requestPreempt l c).slotRoom = s.slotRoom := rfl

/-- An entry that has waited, with no crew idle for it, preempts the victim of its levels. -/
theorem State.preempts?_eq {d : Dispatch} (hage : s.reg Reg.sftPreemptWait ≤ s.cycle - d.waitSince)
    (hfull : ∀ st, st < 144 → s.stopeState st = 1 → d.levels.testBit (st / 72) = true → s.idleCrewOf st = none) :
    s.preempts? d = pickVictim (s.victims d.levels d.prio) := by
  have hidle : ((List.range 144).any fun st =>
      s.stopeState st = 1 && d.levels.testBit (st / 72) && (s.idleCrewOf st).isSome) = false := by
    refine List.any_eq_false.2 fun st hst hbusy => ?_
    simp only [Bool.and_eq_true, decide_eq_true_eq] at hbusy
    obtain ⟨⟨hactive, hlevel⟩, hsome⟩ := hbusy
    simp [hfull st (List.mem_range.1 hst) hactive hlevel] at hsome
  simp [State.preempts?, hidle, Nat.not_lt.2 hage]

theorem preemptRequest_judged {l : Nat} {d : Dispatch}
    (hserved : s.firstServed l ((s.entries l).filter fun d => (s.preempts? d).isSome) = some d)
    (hpreempts : s.preempts? d = some c) (hfree : Store.get 0 s.preempts l = 0) :
    exec (.preemptRequest l) s =
      if s.slotRoom then .next ((s.requestPreempt l c).switchOut c true) else .next (s.bump (Reg.crwNoslotCnt c.stope)) := by
  change execPreemptRequest l s = _
  simp [execPreemptRequest, hserved, hpreempts, hfree, State.requestPreempt]

/-- Settles O33. Both commands switch their crew out where a save slot is to be had (`State.switchOut_crew`), and count the
refusal otherwise. -/
theorem crewsSwitchOut : Obligations.CrewsSwitchOut := by
  refine ⟨fun c s w _ hphase hwait hsat hlate hage hwork hfull hslots => ?_,
    fun l s d c hserved hage hfree hfull hvictim => ?_⟩
  · refine ⟨_, switchWaitExpiry_switchesOut hphase hwait hsat hlate hage hwork hfull hslots, s.switchOut_eq c false, ?_⟩
    cases hroom : s.slotRoom with
    | true =>
      rw [if_pos rfl, State.switchOut_crew hroom]
      exact ⟨rfl, rfl, rfl, hwait⟩
    | false =>
      rw [if_neg Bool.false_ne_true, State.switchOut_noRoom hroom]
      exact ⟨rfl, State.bump_reg _ _⟩
  · have hexec := preemptRequest_judged hserved ((State.preempts?_eq hage hfull).trans hvictim) hfree
    cases hroom : s.slotRoom with
    | true =>
      rw [hroom, if_pos rfl] at hexec
      have hroom' := (s.requestPreempt_slotRoom l c).trans hroom
      have hrest := (s.requestPreempt l c).switchOut_eq c true
      refine ⟨_, hexec, by rw [hrest]; rfl, ?_⟩
      rw [if_pos rfl, State.switchOut_crew hroom', hrest]
      exact ⟨rfl, rfl, Store.get_set_self 0 s.preempts l (crewKey c + 1)⟩
    | false =>
      rw [hroom, if_neg Bool.false_ne_true] at hexec
      refine ⟨_, hexec, rfl, ?_⟩
      rw [if_neg Bool.false_ne_true]
      exact ⟨rfl, State.bump_reg _ _⟩

end Sys2Proof.Machine
end

section
/-!
Dispatch of a work-list entry (06 R141; 08 R218-R222): what an entry starts on its crew, and the obligation.
-/
namespace Sys2Proof.Machine

variable {s t u : State} {c : CrewRef} {i : Instance} {d : Dispatch} {w : Nat}

/-! ## The start of a run on an idle crew (06 R141) -/

theorem Crew.fresh_scalar (i : Instance) (n r : Nat) : Store.get 0 (Crew.fresh i n).regs.s r =
    BitVec.ofNat 64 (if r = 0 then i.tile else if r = 1 then i.args else if r = 2 then i.coord
      else if r = 3 then i.step.num else 0) := by
  simp only [Crew.fresh, Store.get_set]
  by_cases h0 : r = 0
  · simp [h0]
  by_cases h1 : r = 1
  · simp [h1]
  by_cases h2 : r = 2
  · simp [h2]
  simp only [h0, h1, h2, if_false]
  split <;> rfl

/-- The scalar registers that an entry starts with: its first 24 bytes, in three words, and its step's number (R141, 08 Table
8.6). -/
theorem Crew.fresh_entry {n num : Nat} (r : Nat) (htile : i.tile = getBytes w 0 8) (hargs : i.args = getBytes w 8 8)
    (hcoord : i.coord = getBytes w 16 8) (hnum : i.step.num = num) :
    (Store.get 0 (Crew.fresh i n).regs.s r).toNat =
      if r = 0 then getBytes w 0 8 else if r = 1 then getBytes w 8 8 else if r = 2 then getBytes w 16 8
      else if r = 3 then num % 2 ^ 64 else 0 := by
  have hword (lo : Nat) : getBytes w lo 8 % 2 ^ 64 = getBytes w lo 8 := Nat.mod_mod _ _
  rw [Crew.fresh_scalar, BitVec.toNat_ofNat, htile, hargs, hcoord, hnum]
  simp only [apply_ite (· % 2 ^ 64), hword, Nat.zero_mod]

/-- The run with its place in the order of dispatch and the cycle of its start. -/
def Instance.placed (i : Instance) (order now : Nat) : Instance := { i with order := order, started := now }

theorem State.putInstance_crew (s : State) (c : CrewRef) (i : Instance) :
    (s.putInstance c i).crew c = Crew.fresh (i.placed (s.fresh + 1) s.cycle) (s.crew c).dupCount := by
  have hserved (u : State) (n : Nat) : (u.served n).crew c = u.crew c := rfl
  unfold State.putInstance
  dsimp only
  rw [hserved, State.setPhase_crew, State.setCrew_crew]
  rfl

theorem State.putInstance_dispatches (s : State) (c : CrewRef) (i : Instance) :
    (s.putInstance c i).dispatches = s.dispatches := by
  simp [State.putInstance, State.served, State.setPhase]

/-- A new run with the ticket that it is issued (15 R408). -/
def Instance.ticketed (i : Instance) (ticket born : Nat) : Instance := { i with ticket, born, tickets := [ticket] }

/-- Below check level 2 a run starts alone, with its ticket (15 R405, R408). -/
theorem State.startInstance_single (h : i.level ≠ 2) (s : State) (c : CrewRef) :
    ∃ (u : State) (ticket born : Nat),
      s.startInstance c i = u.putInstance c (i.ticketed ticket born) ∧ u.dispatches = s.dispatches := by
  have hissue := s.issueTicket_keepsCrews i.step 1 i.oldTickets (if i.oldTickets = [] then none else some 1)
  refine ⟨_, _, _, if_neg h, ?_⟩
  exact hissue.dispatches

/-! ## The DISPATCH that is served (08 R218, R220) -/

/-- Copying a kernel image leaves each DISPATCH with its entries (R220). -/
theorem State.copyImage_dispatches (s : State) (d : Dispatch) (n : Nat) :
    ∃ g : Dispatch → Dispatch, (∀ x, (g x).id = x.id ∧ (g x).next = x.next) ∧
      (s.copyImage d n).dispatches = s.dispatches.map g := by
  unfold State.copyImage
  split
  · exact ⟨id, fun _ => ⟨rfl, rfl⟩, (List.map_id _).symm⟩
  split
  · exact ⟨_, fun x => by dsimp only; split <;> exact ⟨rfl, rfl⟩, rfl⟩
  · exact ⟨_, fun x => by dsimp only; split <;> exact ⟨rfl, rfl⟩, rfl⟩

/-- The entry is taken (R221). -/
def State.takeEntry (s : State) (d : Dispatch) (c : CrewRef) : State :=
  { s.modDispatch d.id (fun x => { x with next := x.next + 1, waitSince := s.cycle }) with
    lastShaft := Store.set 255 s.lastShaft (c.stope / 72) d.shaft }

theorem State.mem_takeEntry {x : Dispatch} (hx : x ∈ (s.takeEntry d c).dispatches) (hid : x.id = d.id) :
    ∃ y ∈ s.dispatches, y.id = d.id ∧ x.next = y.next + 1 := by
  obtain ⟨y, hy, rfl⟩ := List.mem_map.1 hx
  by_cases h : y.id = d.id
  · exact ⟨y, hy, h, by rw [if_pos h]⟩
  · rw [if_neg h] at hid
    exact absurd hid h

/-- Tying the ticket to the run changes the table of tickets alone (15 R412). -/
theorem State.tieTicket_eq (s : State) (c : CrewRef) : ∃ l, s.tieTicket c = { s with tickets := l } := by
  unfold State.tieTicket
  split <;> exact ⟨_, rfl⟩

/-! ## The entry (08 R219, R221) -/

/-- The run of the entry that is served, before its ticket. -/
def State.entryOf (s : State) (d : Dispatch) (w : Nat) : Instance :=
  entryInstance d d.next w (((s.step? d.step).map (·.seed)).getD 0) s.checkLevel

/-- A sound entry is read and served with a ticket. -/
theorem State.serveEntry_sound {s1 : State} (hread : s.devRead none (d.list + 32 * d.next) 32 = (s1, .ok (w, false)))
    (hroom : s1.ticketRoom = true) (halign : getBytes w 24 4 % 32 = 0) (hin : getBytes w 24 4 < d.klen) :
    s.serveEntry d c = (((s1.copyImage d c.stope).startInstance c (s1.entryOf d w)).takeEntry d c).tieTicket c := by
  have hsound : ¬((s1.entryOf d w).entry % 32 ≠ 0 ∨ d.klen ≤ (s1.entryOf d w).entry) := by
    rintro (h | h)
    · exact h halign
    · exact absurd hin (Nat.not_lt.2 h)
  unfold State.serveEntry
  rw [hread]
  exact (if_neg hsound).trans (if_neg (by simp [hroom]))

/-- With nothing else to serve the onsetter gives the next entry to the crew it picks (R221, R222). -/
theorem onsetterDispatch_servesEntry {l : Nat} (hresume : s.pickStope l (fun st => (s.resumeOn st).isSome) = none)
    (hagain : s.requeued = []) (hpairs : s.pairs = []) (hcanary : s.canaryPack = none) (hnext : s.nextDispatch l = some d)
    (hpick : s.pickStope l (fun st => !(s.resuming st)) = some c) :
    exec (.onsetterDispatch l) s = .next (s.serveEntry d c) := by
  change execOnsetterDispatch l s = _
  simp [execOnsetterDispatch, hresume, hagain, State.shadowFor, hpairs, hcanary, hnext, hpick]

/-- Settles O31. The entry's run starts on the crew with its ticket (`State.startInstance_single`), and the entry is taken
(`State.mem_takeEntry`); reading it has changed no DISPATCH. -/
theorem entriesAreDispatched : Obligations.EntriesAreDispatched := by
  intro l s s1 c d w hresume hagain hpairs _ hcanary hnext hpick hread hlevel hroom halign hin
  have hexec := onsetterDispatch_servesEntry hresume hagain hpairs hcanary hnext hpick
  rw [State.serveEntry_sound hread hroom halign hin] at hexec
  have hsingle : (s1.entryOf d w).level ≠ 2 := Nat.ne_of_lt hlevel
  obtain ⟨u, ticket, born, hstart, hu⟩ := State.startInstance_single hsingle (s1.copyImage d c.stope) c
  obtain ⟨g, hg, hcopy⟩ := s1.copyImage_dispatches d c.stope
  rw [hstart] at hexec
  obtain ⟨tickets, htie⟩ := ((u.putInstance c ((s1.entryOf d w).ticketed ticket born)).takeEntry d c).tieTicket_eq c
  rw [htie] at hexec
  have hcrew := u.putInstance_crew c ((s1.entryOf d w).ticketed ticket born)
  have hread' := s.devRead_keepsShafts none (d.list + 32 * d.next) 32
  rw [hread] at hread'
  refine ⟨_, ((s1.entryOf d w).ticketed ticket born).placed (u.fresh + 1) u.cycle, hexec, congrArg Crew.inst hcrew,
    congrArg Crew.phase hcrew, rfl, rfl, rfl, congrArg Crew.pc hcrew, fun r => ?_, congrArg (·.regs.v) hcrew,
    congrArg (·.regs.p) hcrew, congrArg Crew.handles hcrew, congrArg Crew.loops hcrew, congrArg Crew.merge hcrew,
    fun x hx hid => ?_⟩
  · exact (congrArg (fun x : Crew => (Store.get 0 x.regs.s r).toNat) hcrew).trans
      (Crew.fresh_entry r (by rfl) (by rfl) (by rfl) (by rfl))
  · obtain ⟨y, hy, hyid, hnum⟩ := State.mem_takeEntry (c := c) hx hid
    rw [State.putInstance_dispatches, hu, hcopy, hread'.dispatches] at hy
    obtain ⟨z, hz, rfl⟩ := List.mem_map.1 hy
    obtain ⟨hzid, hznext⟩ := hg z
    exact ⟨z, hz, hzid.symm.trans hyid, by rw [hnum, hznext]⟩

end Sys2Proof.Machine
end

section
/-!
Issue of bundles (06 R143-R150, R154, R163, R164): the choice among ready crews, the bundle that issues, and the obligation.
-/
namespace Sys2Proof.Machine

variable {s t : State} {c : CrewRef} {i : Instance} {n k w : Nat}

/-! ## The choice among ready crews (R163, R164) -/

/-- The place of a crew in the ascending order that begins after the crew that issued last. -/
def turnOf (last k : Nat) : Int := ((k : Int) - last - 1) % 16

theorem turnOf_order {last m : Nat} (h : m < 16) : turnOf last ((last + 1 + m) % 16) = m := by
  unfold turnOf; omega

theorem turnOrder_pairwise (last : Nat) :
    ((List.range 16).map fun m => (last + 1 + m) % 16).Pairwise fun a b => turnOf last a ≤ turnOf last b := by
  rw [List.pairwise_map]
  refine (List.pairwise_lt_range (n := 16)).imp_of_mem fun {a b} ha hb hab => ?_
  rw [turnOf_order (List.mem_range.1 ha), turnOf_order (List.mem_range.1 hb)]
  exact Int.ofNat_le.2 hab.le

theorem mem_turnOrder {last k : Nat} (h : k < 16) : k ∈ (List.range 16).map fun m => (last + 1 + m) % 16 := by
  refine List.mem_map.2 ⟨(turnOf last k).toNat, List.mem_range.2 ?_, ?_⟩ <;> unfold turnOf <;> omega

/-- The head of a list whose members without a mark go first: it has none if any member has none, and it comes before each other
member of its class. -/
theorem head_unmarked_first {α : Type} {r : α → α → Prop} {l : List α} (hl : l.Pairwise r) (hr : ∀ a, r a a)
    {mark : α → Bool} {a b : α} (hhead : (l.filter (fun x => !mark x) ++ l.filter mark).head? = some a) (hb : b ∈ l) :
    (mark b = false → mark a = false) ∧ (mark b = mark a → r a b) := by
  have first {p : α → Bool} {m : List α} (h : l.filter p = a :: m) : p a = true ∧ (p b = true → r a b) := by
    have hsorted := hl.filter p
    rw [h, List.pairwise_cons] at hsorted
    have ha : a ∈ l.filter p := h ▸ List.mem_cons_self
    refine ⟨(List.mem_filter.1 ha).2, fun hpb => ?_⟩
    have hbmem : b ∈ a :: m := h ▸ List.mem_filter.2 ⟨hb, hpb⟩
    rcases List.mem_cons.1 hbmem with rfl | hbm
    · exact hr b
    · exact hsorted.1 b hbm
  cases hplain : l.filter fun x => !mark x with
  | nil =>
    rw [hplain, List.nil_append] at hhead
    obtain ⟨m, hm⟩ := List.head?_eq_some_iff.1 hhead
    obtain ⟨hma, hle⟩ := first hm
    have hmb : mark b = true := by simpa using List.filter_eq_nil_iff.1 hplain b hb
    exact ⟨fun h => absurd (hmb.symm.trans h) nofun, fun _ => hle hmb⟩
  | cons x m =>
    rw [hplain] at hhead
    obtain rfl : x = a := by simpa using hhead
    obtain ⟨hma, hle⟩ := first hplain
    have hma' : mark x = false := by simpa using hma
    exact ⟨fun _ => hma', fun h => hle (by simp [h, hma'])⟩

/-- Does a crew run ballast (R164). -/
def State.ballastOn (s : State) (n k : Nat) : Bool := (s.crew ⟨n, k⟩).inst.any fun i => i.ballast

/-- The ready crews of a stope in the order that begins after the crew that issued last. -/
def State.readyInTurn (s : State) (n : Nat) : List Nat :=
  ((List.range 16).map fun m => ((s.stope n).lastCrew + 1 + m) % 16).filter fun k => s.crewReady ⟨n, k⟩

theorem State.readyCrews_eq (s : State) (n : Nat) :
    s.readyCrews n = (s.readyInTurn n).filter (fun k => !s.ballastOn n k) ++ (s.readyInTurn n).filter (s.ballastOn n) := rfl

theorem State.issuer_some (h : s.issuer n = some k) : n ∉ s.turns ∧ (s.readyCrews n).head? = some k := by
  unfold State.issuer at h
  split at h
  · cases h
  · next hfree =>
    simp only [Bool.or_eq_true, List.contains_iff_mem, not_or] at hfree
    exact ⟨hfree.1.1, h⟩

theorem State.issuer_ready (h : s.issuer n = some k) : s.crewReady ⟨n, k⟩ = true := by
  have hmem := List.mem_of_head? (State.issuer_some h).2
  rw [State.readyCrews_eq, List.mem_append, List.mem_filter, List.mem_filter] at hmem
  exact (List.mem_filter.1 (hmem.elim And.left And.left)).2

/-- The crew that its stope chooses is a normal one if a normal one is ready, and the first of its class after the crew that
issued last (R164). -/
theorem State.issuer_first (h : s.issuer n = some k) {j : Nat} (hj : j < 16) (hready : s.crewReady ⟨n, j⟩ = true) :
    (s.ballastOn n j = false → s.ballastOn n k = false) ∧
    (s.ballastOn n j = s.ballastOn n k → turnOf (s.stope n).lastCrew k ≤ turnOf (s.stope n).lastCrew j) := by
  have hsorted := (turnOrder_pairwise (s.stope n).lastCrew).filter fun k => s.crewReady ⟨n, k⟩
  have hmem : j ∈ s.readyInTurn n := List.mem_filter.2 ⟨mem_turnOrder hj, hready⟩
  exact head_unmarked_first hsorted (fun _ => le_refl _) (State.issuer_some h).2 hmem

theorem State.unheld_free {x : Crew} (h : s.unheld c x w = true) :
    (∀ e ∈ bundleReads w, x.free s.cycle e = true) ∧ (∀ e ∈ bundleWrites w, x.free s.cycle e.2.1 = true) := by
  simp only [State.unheld, Bool.and_eq_true, List.all_eq_true] at h
  obtain ⟨⟨⟨⟨⟨⟨⟨-, hreads⟩, hwrites⟩, -⟩, -⟩, -⟩, -⟩, -⟩ := h
  exact ⟨hreads, hwrites⟩

/-- A ready crew has no write pending to a register that its next bundle reads or writes (R146). -/
theorem State.crewReady_free (h : s.crewReady c = true) (hw : w = s.faceRead c.stope (s.crew c).pc 32) :
    (∀ e ∈ bundleReads w, (s.crew c).free s.cycle e = true) ∧
    (∀ e ∈ bundleWrites w, (s.crew c).free s.cycle e.2.1 = true) := by
  have hbundle : (s.nextBundle c).2 = w := hw.symm
  unfold State.crewReady at h
  split at h
  · cases h
  · simp only [hbundle, Bool.and_eq_true] at h
    obtain ⟨-, hunheld, -⟩ := h
    have hfree := State.unheld_free hunheld
    exact hfree

/-! ## The bundle that issues (R144, R145, R154) -/

/-- A crew reads a bundle below the post row as it stands, where no word is marked (09 R255; 10 R269). -/
theorem State.crewRead_plain {ea m : Nat} (hmarks : s.marks = []) (hpost : ea + m ≤ postRow)
    (hw : w = s.faceRead c.stope ea m) :
    s.crewRead c ea m = (s, w) := by
  have hbelow : hitsPost ea m = false := decide_eq_false (Nat.not_lt.2 hpost)
  simp [State.crewRead, hbelow, State.readMem, State.marked, hmarks, hw, State.faceRead]

/-- The crew's stope takes its turn for it (R164). -/
def State.takeTurn (s : State) (c : CrewRef) (w : Nat) : State :=
  ({ s with turns := c.stope :: s.turns }.active c.stope).modStope c.stope fun x =>
    { x.holdUnits s.cycle w with lastCrew := c.crew }

/-- The state in which bundle `w` of the crew has issued, its header bit 7 apart. -/
def State.issued (s : State) (c : CrewRef) (w : Nat) : State :=
  ((s.takeTurn c w).modCrew c (Crew.issue · s.cycle (s.was Reg.slcCtrl) w)).bump (Reg.crwBundleCnt c.stope)

theorem State.issueBundle_eq (hread : s.crewRead c (s.crew c).pc 32 = (s, w)) :
    s.issueBundle c = if w.testBit 7 then (s.issued c w).skipSlot c 6 12 else s.issued c w := by
  unfold State.issueBundle
  dsimp only
  rw [hread]
  rfl

theorem State.takeTurn_eq (s : State) (c : CrewRef) (w : Nat) :
    ∃ y a, s.takeTurn c w = { s with turns := c.stope :: s.turns, stopes := y, activity := a } := ⟨_, _, rfl⟩

theorem State.issued_eq (s : State) (c : CrewRef) (w : Nat) :
    ∃ x r y a, s.issued c w = { s with crews := x, regs := r, turns := c.stope :: s.turns, stopes := y, activity := a } := by
  have hcrew (u : State) (f : Crew → Crew) : ∃ x, u.modCrew c f = { u with crews := x } := ⟨_, rfl⟩
  have hcount (u : State) (off : Nat) : ∃ r, u.bump off = { u with regs := r } := ⟨_, rfl⟩
  obtain ⟨y, a, hturn⟩ := s.takeTurn_eq c w
  obtain ⟨x, hx⟩ := hcrew (s.takeTurn c w) (Crew.issue · s.cycle (s.was Reg.slcCtrl) w)
  obtain ⟨r, hr⟩ := hcount ((s.takeTurn c w).modCrew c (Crew.issue · s.cycle (s.was Reg.slcCtrl) w))
    (Reg.crwBundleCnt c.stope)
  exact ⟨x, r, y, a, by rw [State.issued, hr, hx, hturn]⟩

theorem State.issued_crew (s : State) (c : CrewRef) (w : Nat) :
    (s.issued c w).crew c = (s.crew c).issue s.cycle (s.was Reg.slcCtrl) w :=
  State.modCrew_crew (s.takeTurn c w) c (Crew.issue · s.cycle (s.was Reg.slcCtrl) w)

theorem State.issued_lastCrew (s : State) (c : CrewRef) (w : Nat) : ((s.issued c w).stope c.stope).lastCrew = c.crew := by
  have h := State.modStope_stope ({ s with turns := c.stope :: s.turns }.active c.stope) c.stope fun x =>
    { x.holdUnits s.cycle w with lastCrew := c.crew }
  exact congrArg StopeCtl.lastCrew h

/-- Before CRW_BUNDLE_CNT counts the bundle, no register has changed. -/
theorem State.issuing_reg (s : State) (c : CrewRef) (w off : Nat) :
    ((s.takeTurn c w).modCrew c (Crew.issue · s.cycle (s.was Reg.slcCtrl) w)).reg off = s.reg off := by
  have hregs : ((s.takeTurn c w).modCrew c (Crew.issue · s.cycle (s.was Reg.slcCtrl) w)).regs = s.regs := rfl
  exact State.reg_of_regs hregs off

theorem State.issued_bundleCnt (s : State) (c : CrewRef) (w : Nat) : (s.issued c w).reg (Reg.crwBundleCnt c.stope) =
    (s.reg (Reg.crwBundleCnt c.stope) + 1) % 2 ^ 32 := by
  rw [State.issued, State.bump_reg, State.issuing_reg]

theorem State.issued_regsBut (s : State) (c : CrewRef) (w : Nat) : regsBut [Reg.crwBundleCnt c.stope] s (s.issued c w) := by
  intro off ho
  rw [State.issued, State.bump_reg_ne _ (List.ne_of_not_mem_cons ho), State.issuing_reg]

/-- Each register that the bundle writes is pending for its latency (R146). -/
theorem Crew.issue_busy (x : Crew) (now slc : Nat) {e : Nat × RegRef × Nat} (he : e ∈ bundleWrites w) :
    ∃ b ∈ (x.issue now slc w).busy, b.reg = e.2.1 ∧ b.ready = now + e.2.2 :=
  ⟨⟨e.2.1, e.1, now, now + e.2.2⟩, List.mem_append_right _ (List.mem_map_of_mem he), rfl, rfl⟩

/-- From `s` to `t` bundle `w` of the crew has issued. -/
structure State.Issues (c : CrewRef) (w : Nat) (s t : State) : Prop where
  bundleCnt : t.reg (Reg.crwBundleCnt c.stope) = (s.reg (Reg.crwBundleCnt c.stope) + 1) % 2 ^ 32
  turns : t.turns = c.stope :: s.turns
  snap : (t.crew c).snap = (s.crew c).regs
  regs : (t.crew c).regs = (s.crew c).regs
  written : (t.crew c).written = []
  curFoff : (t.crew c).curFoff = (s.crew c).pc
  curLoops : (t.crew c).curLoops = (s.crew c).loops
  next : ((t.crew c).pc, (t.crew c).loops) = fallThrough (s.crew c).pc (s.crew c).loops
  lastCrew : (t.stope c.stope).lastCrew = c.crew

theorem State.issued_issues (s : State) (c : CrewRef) (w : Nat) : s.Issues c w (s.issued c w) := by
  have hcrew := s.issued_crew c w
  refine ⟨s.issued_bundleCnt c w, rfl, ?_, ?_, ?_, ?_, ?_, ?_, s.issued_lastCrew c w⟩ <;> rw [hcrew] <;> rfl

/-- The skip that header bit 7 makes leaves the bundle issued (R143). -/
theorem State.Issues.skipped {u : State} {slot : Nat} (h : s.Issues c w t) (g : t.SlotSkipped c slot u) (hc : c.stope < 144) :
    s.Issues c w u := by
  have hcnt : StopeReg (Reg.crwBundleCnt c.stope) := by unfold Reg.crwBundleCnt; omega
  have hne : Reg.crwBundleCnt c.stope ≠ Reg.crwSkipCnt c.stope := by simp [Reg.crwBundleCnt, Reg.crwSkipCnt]
  refine ⟨(g.reg _ hcnt hne).trans h.bundleCnt, g.turns.trans h.turns, ?_, ?_, ?_, ?_, ?_, ?_,
    (g.lastCrew _).trans h.lastCrew⟩ <;> rw [g.crew]
  · exact h.snap
  · exact h.regs
  · exact h.written
  · exact h.curFoff
  · exact h.curLoops
  · exact h.next

theorem State.issueBundle_issues (hi : (s.crew c).inst = some i) (hc : c.stope < 144)
    (hread : s.crewRead c (s.crew c).pc 32 = (s, w)) : s.Issues c w (s.issueBundle c) := by
  have hissued := s.issued_issues c w
  have hinst : ((s.issued c w).crew c).inst = some i := by rw [s.issued_crew]; exact hi
  rw [State.issueBundle_eq hread]
  split
  · exact hissued.skipped (State.skipSlot_skipped hinst hc 6 12) hc
  · exact hissued

/-! ## BUNDLE_FETCH (R149, R150) -/

theorem bundleFetch_issues (hi : (s.crew c).inst = some i) (hfetch : s.mayFetch c i = true) (hok : s.fetchFaults c i = false)
    (hturn : s.issuer c.stope = some c.crew) : exec (.bundleFetch c) s = .next (s.issueBundle c) := by
  change execBundleFetch c s = _
  simp [execBundleFetch, hi, hfetch, hok, hturn]

theorem bundleFetch_faults (hi : (s.crew c).inst = some i) (hfetch : s.mayFetch c i = true) (hbad : s.fetchFaults c i = true) :
    exec (.bundleFetch c) s = .next (s.fetchFault c (s.crew c).pc) := by
  change execBundleFetch c s = _
  simp [execBundleFetch, hi, hfetch, hbad]

/-! ## A loop entry of count 0 (R151-R155) -/

theorem bits_eq_extractLsb' {v : Slot40} (hi lo : Nat) : bits v.toNat hi lo = (v.extractLsb' lo (hi + 1 - lo)).toNat :=
  (BitVec.extractLsb'_toNat ..).symm

/-- A loop entry whose count is 0 and that breaks no rule skips its body, and falls through the body's end. -/
theorem loop_zero {v : Slot40} {l : LoopLevel} {ls : List LoopLevel} (hactive : (s.crew c).active = true)
    (hop : v.extractLsb' 34 6 = 0x28) (himm : v.getLsbD 33 = true) (hrsv : v.extractLsb' 28 5 = 0)
    (hcount : v.extractLsb' 0 16 = 0)    (hloops : (s.crew c).curLoops = l :: ls) (hroom : ls.length < 3)
    (hlast : l.last = (s.crew c).curFoff + 32 * ((v.extractLsb' 16 12).toNat + 1)) :
    ∃ t, exec (.loop c v) s = .next t ∧ ((t.crew c).pc, (t.crew c).loops) = fallThrough l.last (l :: ls) := by
  have hopbits : bits v.toNat 39 34 = 0x28 := bits_opcode (by decide) hop
  have himm' : v.toNat.testBit 33 = true := himm
  have hrsv' : bits v.toNat 32 28 = 0 := by rw [bits_eq_extractLsb']; exact congrArg BitVec.toNat hrsv
  have hcount' : bits v.toNat 15 0 = 0 := by rw [bits_eq_extractLsb']; exact congrArg BitVec.toNat hcount
  have hend : (s.crew c).curFoff + 32 * (bits v.toNat 27 16 + 1) = l.last := by rw [bits_eq_extractLsb']; exact hlast.symm
  have hfield : scalarBadField 0x28 v.toNat = false := by simp [scalarBadField, himm', hrsv']
  have hnest : loopBad (l :: ls) l.last = false := by simp [loopBad]; omega
  have hslot : s.loopSlot c v.toNat = (s.setCrew c { s.crew c with
      pc := (fallThrough l.last (l :: ls)).1, loops := (fallThrough l.last (l :: ls)).2 }).bump (Reg.crwLoopZeroCnt c.stope) := by
    simp only [State.loopSlot, hactive, hopbits, hend, hloops, hfield, hnest, himm', hcount', firstCause]
    rfl
  have hcrew (u : State) (off : Nat) : (u.bump off).crew c = u.crew c := rfl
  refine ⟨_, congrArg Host.Outcome.next hslot, ?_⟩
  rw [hcrew, State.setCrew_crew]

/-- Settles O30. The chosen crew is the head of the ready ones (`State.issuer_first`), its bundle issues (`State.Issues`) or its
run ends (`State.fetchFault_leftIdle`). -/
theorem bundlesIssue : Obligations.BundlesIssue := by
  refine ⟨fun c s i w hc _ hi hfetch hok hturn hmarks hpost hw => ?_, fun c s i _ hi hfetch hbad => ?_,
    fun c s v l ls hactive hop himm hrsv hcount hloops hroom hlast =>
      loop_zero hactive hop himm hrsv hcount hloops hroom hlast⟩
  · obtain ⟨hreads, hwrites⟩ := State.crewReady_free (c := c) (State.issuer_ready hturn) hw
    have hread := State.crewRead_plain (c := c) hmarks hpost hw
    have hissues := State.issueBundle_issues hi hc hread
    obtain ⟨hcnt, hturns, hsnap, hregs, hwritten, hfoff, hcur, hnext, hlast⟩ := hissues
    refine ⟨hreads, hwrites, (State.issuer_some hturn).1, fun k hk hready j hj => ?_, _, bundleFetch_issues hi hfetch hok hturn,
      hcnt, hturns, hsnap, hregs, hwritten, hfoff, hcur, hnext, hlast, fun hbit => ?_⟩
    · have hfirst := State.issuer_first hturn hk hready
      have hbj : s.ballastOn c.stope k = j.ballast := by simp [State.ballastOn, hj]
      have hbi : s.ballastOn c.stope c.crew = i.ballast := by simp [State.ballastOn, hi]
      rw [hbj, hbi] at hfirst
      exact hfirst
    · rw [State.issueBundle_eq hread, if_neg (by simp [hbit])]
      refine ⟨?_, s.issued_regsBut c w, fun e he => ?_⟩
      · obtain ⟨x, r, y, a, h⟩ := s.issued_eq c w
        rw [h]
      · rw [s.issued_crew]
        exact Crew.issue_busy _ _ _ he
  · have hfaults : s.fetchFaults c i = true := by
      rcases hbad with h | h <;> simp [State.fetchFaults, h]
    obtain ⟨hinst, hphase, hctxs⟩ := State.fetchFault_leftIdle (s.crew c).pc (Option.isSome_of_eq_some hi)
    exact ⟨_, bundleFetch_faults hi hfetch hfaults, hinst, hphase, hctxs⟩

end Sys2Proof.Machine
end

section
/-!
Fields of a slot as numbers and as bit vectors, and a crew that one command changes (06 R145, R159; 07 Tables 7.1 to 7.14).
-/
namespace Sys2Proof.Machine

variable {s t : State} {c : CrewRef} {n : Nat}

/-! ## Fields of a slot -/

theorem bits_toNat (w : BitVec n) (hi lo : Nat) : bits w.toNat hi lo = (w.extractLsb' lo (hi + 1 - lo)).toNat :=
  (BitVec.extractLsb'_toNat ..).symm

/-- A number that fits a width. For every width, so that none is evaluated. -/
theorem toNat_ofNat_of_lt {k v : Nat} (h : v < 2 ^ k) : (BitVec.ofNat k v).toNat = v := Nat.mod_eq_of_lt h

/-- A field that is 0 as a bit vector is 0 as a number. -/
theorem bits_eq_zero {w : BitVec n} {hi lo : Nat} (h : w.extractLsb' lo (hi + 1 - lo) = 0) : bits w.toNat hi lo = 0 := by
  rw [bits_toNat, h]
  rfl

theorem bits_ne_zero {w : BitVec n} {hi lo : Nat} (h : w.extractLsb' lo (hi + 1 - lo) ≠ 0) : bits w.toNat hi lo ≠ 0 := by
  rw [bits_toNat]
  exact fun e => h (BitVec.eq_of_toNat_eq e)

/-- A slot's opcode is its topmost field. -/
theorem bits_eq_opcode {w : BitVec n} {hi lo op : Nat} (hop : op < 2 ^ (hi + 1 - lo))
    (h : w.extractLsb' lo (hi + 1 - lo) = BitVec.ofNat _ op) : bits w.toNat hi lo = op := by
  rw [bits_toNat, h, BitVec.toNat_ofNat, Nat.mod_eq_of_lt hop]

/-- A field of a slot that a mask picks out is 0 where the masked bits are. -/
theorem bits_eq_zero_of_and_eq_zero {hi lo : Nat} {w mask : BitVec n} (hmask : mask.toNat = (2 ^ (hi + 1 - lo) - 1) <<< lo)
    (h : w &&& mask = 0) : bits w.toNat hi lo = 0 := by
  refine Nat.eq_of_testBit_eq fun k => ?_
  have hbit : (w &&& mask).toNat.testBit (lo + k) = false := by simp [h]
  rw [BitVec.toNat_and, hmask, Nat.testBit_and, Nat.testBit_shiftLeft, Nat.testBit_two_pow_sub_one, Nat.add_sub_cancel_left,
    decide_eq_true (Nat.le_add_right lo k), Bool.true_and, Bool.and_comm] at hbit
  rw [bits, Nat.testBit_mod_two_pow, Nat.testBit_shiftRight, hbit, Nat.zero_testBit]

theorem testBit_bits (w hi lo i : Nat) : (bits w hi lo).testBit i = (decide (i < hi + 1 - lo) && w.testBit (lo + i)) := by
  rw [bits, Nat.testBit_mod_two_pow, Nat.testBit_shiftRight]

theorem testBit_of_bits_eq_zero {w hi lo i : Nat} (h : bits w hi lo = 0) (hlo : lo ≤ i) (hhi : i ≤ hi) : w.testBit i = false := by
  have hbit := testBit_bits w hi lo (i - lo)
  rwa [h, Nat.zero_testBit, decide_eq_true (by omega), Bool.true_and, Nat.add_sub_cancel' hlo, eq_comm] at hbit

/-- The upper part of a field is a field. -/
theorem bits_div_two_pow (w hi lo k : Nat) : bits w hi lo / 2 ^ k = bits w hi (lo + k) := by
  refine Nat.eq_of_testBit_eq fun i => ?_
  have hpos : k + i < hi + 1 - lo ↔ i < hi + 1 - (lo + k) := by omega
  rw [← Nat.shiftRight_eq_div_pow, Nat.testBit_shiftRight, testBit_bits, testBit_bits, decide_eq_decide.2 hpos, Nat.add_assoc]

theorem bits_single (w i : Nat) : bits w i i = (w.testBit i).toNat := by
  rw [bits, Nat.add_sub_cancel_left, Nat.toNat_testBit, Nat.shiftRight_eq_div_pow, Nat.pow_one]

/-- A size field of two bits is one of the larger sizes where its upper bit is set. -/
theorem two_le_of_testBit {v : Nat} (h : v.testBit 1 = true) : 2 ≤ v := Nat.ge_two_pow_of_testBit h

/-- The signed value of the low bits of a number. -/
theorem sext_eq (v : Nat) {k : Nat} (hk : k ≠ 0) : sext k v = (BitVec.ofNat k v).toInt := by
  obtain ⟨j, rfl⟩ := Nat.exists_eq_succ_of_ne_zero hk
  have hpow : 2 ^ (j + 1) = 2 * 2 ^ j := Nat.pow_succ'
  simp only [sext, BitVec.toInt, BitVec.toNat_ofNat, Nat.succ_eq_add_one, Nat.add_sub_cancel]
  split <;> split <;> omega

theorem sext_toNat (w : BitVec n) {k : Nat} (hk : k ≠ 0) : sext k w.toNat = (w.extractLsb' 0 k).toInt := sext_eq _ hk

theorem ofInt_toInt (x : BitVec n) (k : Nat) : ofInt k x.toInt = (x.signExtend k).toNat := by
  rw [BitVec.signExtend, BitVec.toNat_ofInt, ofInt]

theorem ofInt_sext (w : BitVec n) (j : Nat) {k : Nat} (hk : k ≠ 0) :
    ofInt j (sext k w.toNat) = ((w.extractLsb' 0 k).signExtend j).toNat := by
  rw [sext_toNat w hk, ofInt_toInt]

/-- The face offset of a load or store slot (R196). -/
theorem Crew.effOff_eq (x : Crew) (w : BitVec n) :
    x.effOff w.toNat = (x.sr (w.extractLsb' 24 5).toNat + ((w.extractLsb' 0 16).signExtend 64).toNat) % 2 ^ 64 := by
  rw [Crew.effOff, bits_toNat, ofInt_sext w 64 (by decide)]

theorem sizeOf2_bits (w : BitVec n) (lo : Nat) : sizeOf2 (bits w.toNat (lo + 1) lo) = 2 ^ (w.extractLsb' lo 2).toNat := by
  have hlt : bits w.toNat (lo + 1) lo < 4 := Nat.lt_of_lt_of_eq (Nat.mod_lt _ (Nat.two_pow_pos _)) (by
    rw [Nat.add_assoc, Nat.add_sub_cancel_left]; rfl)
  rw [sizeOf2, Nat.mod_eq_of_lt hlt, bits_toNat, Nat.add_assoc, Nat.add_sub_cancel_left]

/-! ## A crew that a command changes -/

theorem Store.insert_insert {α : Type} (u v : α) (m : Store α) (k : Nat) :
    Store.insert v (Store.insert u m k) k = Store.insert v m k := by
  induction m with
  | nil => simp [Store.insert]
  | cons e m ih =>
    obtain ⟨i, x⟩ := e
    by_cases hlt : k < i
    · simp [Store.insert, hlt]
    · by_cases heq : k = i
      · simp [Store.insert, heq]
      · simp [Store.insert, hlt, heq, ih]

theorem Store.erase_insert {α : Type} (u : α) (m : Store α) (k : Nat) :
    Store.erase (Store.insert u m k) k = Store.erase m k := by
  induction m with
  | nil => simp [Store.insert, Store.erase]
  | cons e m ih =>
    obtain ⟨i, x⟩ := e
    by_cases hlt : k < i
    · simp [Store.insert, Store.erase, hlt]
    · by_cases heq : k = i
      · simp [Store.insert, Store.erase, heq]
      · have hkeep : Store.insert u ((i, x) :: m) k = (i, x) :: Store.insert u m k := by simp [Store.insert, hlt, heq]
        unfold Store.erase at ih ⊢
        rw [hkeep, List.filter_cons, List.filter_cons, ih]

/-- Of two stores at a key the later stands, where the first lists its entry. -/
theorem Store.set_set {α : Type} [DecidableEq α] (d u v : α) (m : Store α) (k : Nat) (hu : u ≠ d) :
    Store.set d (Store.set d m k u) k v = Store.set d m k v := by
  have hfirst : Store.set d m k u = Store.insert u m k := by simp [Store.set, Store.put, hu]
  rw [hfirst]
  by_cases hv : v = d
  · simp [Store.set, Store.put, hv, Store.erase_insert]
  · simp [Store.set, Store.put, hv, Store.insert_insert]

theorem Crew.ne_idle {x : Crew} (h : x.active = true) : x ≠ Crew.idle := by
  rintro rfl
  exact absurd h (by decide)

theorem State.setCrew_setCrew (s : State) (c : CrewRef) {x y : Crew} (hx : x.active = true) :
    (s.setCrew c x).setCrew c y = s.setCrew c y := by
  simp only [State.setCrew, Store.set_set _ _ _ _ _ (Crew.ne_idle hx)]

theorem onlyCrew_setCrew (s : State) (c : CrewRef) (x : Crew) : onlyCrew c s (s.setCrew c x) := by
  rw [onlyCrew, State.setCrew_crew]

theorem Crew.wS_wroteS (x : Crew) (d : Nat) {v : Nat} {r : Dword} (h : BitVec.ofNat 64 v = r) :
    Crew.wroteS d r x (x.wS d v) :=
  ⟨rfl, fun _ => h ▸ Store.get_set _ _ _ _ _⟩

theorem Crew.wV_wroteV (x : Crew) (d v : Nat) : Crew.wroteV d x (x.wV d v) :=
  ⟨rfl, fun _ hr => Store.get_set_ne _ _ _ hr⟩

theorem Crew.not_dual {x : Crew} {r : RegRef} (h : r ∉ x.written) : x.dual [r] = false := by
  simpa [Crew.dual] using h

end Sys2Proof.Machine
end

section
/-!
The scalar slot (06 R151-R156; 07 R176-R178): the obligations.
-/
namespace Sys2Proof.Machine

variable {s t : State} {c : CrewRef} {op : Nat}

/-! ## Operations (R176) -/

/-- A scalar operation that no cause of Table 6.4 skips writes its result. -/
theorem State.scalarSlot_performs {w : Nat} {f : Crew → Nat → Nat} (hactive : (s.crew c).active = true)
    (hop : bits w 39 34 = op) (hfield : scalarBadField op w = false) (hdual : RegRef.s (bits w 33 29) ∉ (s.crew c).written) :
    s.scalarSlot op c w f = s.setCrew c ((s.crew c).wS (bits w 33 29) (f (s.crew c) w)) := by
  simp [State.scalarSlot, hactive, hop, firstCause, hfield, Crew.not_dual hdual]

/-- A row of Table 7.2 says what the model computes: its command is the scalar operation of its opcode, its reserved bits are those
of the opcode's format rule, and its result is the opcode's. -/
def RowComputes (row : Nat × (CrewRef → Slot40 → Instr) × (Slot40 → Slot40) × (Dword → Dword → Slot40 → Dword)) : Prop :=
  (∀ c w s, exec (row.2.1 c w) s = .next (s.scalarSlot row.1 c w.toNat fun x w => scalarResult row.1 x w)) ∧
  (∀ w, row.2.2.1 w = 0 → scalarBadField row.1 w.toNat = false) ∧
  ∀ a b w, scalarValue row.1 a b w.toNat = row.2.2.2 a b w

section Row
variable {instr : CrewRef → Slot40 → Instr} {val : Dword → Dword → Slot40 → Dword}
  (hexec : ∀ c w s, exec (instr c w) s = .next (s.scalarSlot op c w.toNat fun x w => scalarResult op x w))
include hexec

theorem rowComputes_field {mask : Slot40} {hi lo : Nat} (hmask : mask.toNat = (2 ^ (hi + 1 - lo) - 1) <<< lo)
    (hfield : ∀ w, scalarBadField op w = decide (bits w hi lo ≠ 0)) (hval : ∀ a b w, scalarValue op a b w.toNat = val a b w) :
    RowComputes (op, instr, (· &&& mask), val) :=
  ⟨hexec, fun w hw => (hfield w.toNat).trans (decide_eq_false (not_not_intro (bits_eq_zero_of_and_eq_zero hmask hw))), hval⟩

/-- Format SR: bits 18 to 0 are reserved. -/
theorem rowComputes_low (hfield : ∀ w, scalarBadField op w = decide (bits w 18 0 ≠ 0))
    (hval : ∀ a b w, scalarValue op a b w.toNat = val a b w) : RowComputes (op, instr, (· &&& 0x7FFFF), val) :=
  rowComputes_field hexec rfl hfield hval

theorem rowComputes_nothing (hfield : ∀ w, scalarBadField op w = false) (hval : ∀ a b w, scalarValue op a b w.toNat = val a b w) :
    RowComputes (op, instr, fun _ => 0, val) :=
  ⟨hexec, fun w _ => hfield w.toNat, hval⟩

/-- A shift by an immediate: bits 23 to 6 are reserved. -/
theorem rowComputes_shift (hfield : ∀ w, scalarBadField op w = decide (bits w 23 6 ≠ 0))
    (hval : ∀ a b w, scalarValue op a b w.toNat = val a b w) : RowComputes (op, instr, (· &&& 0xFFFFC0), val) :=
  rowComputes_field hexec rfl hfield hval

end Row

/-- The sign-extended immediate of Table 7.2. -/
theorem ofNat_imm24 (w : Slot40) : BitVec.ofNat 64 (imm24 w.toNat) = (w.extractLsb' 0 24).signExtend 64 := by
  rw [imm24, ofInt_sext w 64 (by decide), BitVec.ofNat_toNat, BitVec.setWidth_eq]

theorem ofNat_imm (w : Slot40) : BitVec.ofNat 64 (bits w.toNat 23 0) = (w.extractLsb' 0 24).setWidth 64 := by
  rw [bits_toNat, BitVec.ofNat_toNat]

/-- The upper half of an unsigned product. -/
theorem ofNat_mul_div (a b : Dword) :
    BitVec.ofNat 64 (a.toNat * b.toNat / 2 ^ 64) = (a.setWidth 128 * b.setWidth 128).extractLsb' 64 64 := by
  have hprod : a.toNat * b.toNat < 2 ^ 128 := Nat.mul_lt_mul'' (c := 2 ^ 64) (d := 2 ^ 64) a.isLt b.isLt
  refine BitVec.eq_of_toNat_eq ?_
  rw [BitVec.extractLsb'_toNat, BitVec.toNat_mul, BitVec.toNat_setWidth, BitVec.toNat_setWidth,
    Nat.mod_eq_of_lt (Nat.lt_of_lt_of_le a.isLt (by decide)), Nat.mod_eq_of_lt (Nat.lt_of_lt_of_le b.isLt (by decide)),
    Nat.mod_eq_of_lt hprod, BitVec.toNat_ofNat, Nat.shiftRight_eq_div_pow]

/-- Every row of Table 7.2 says what the model computes. -/
theorem scalarRows_compute : ∀ row ∈ scalarRows, RowComputes row := by
  simp only [scalarRows, List.forall_mem_cons]
  refine ⟨?add, ?sub, ?mul, ?mulhu, ?and, ?or, ?xor, ?shl, ?shr, ?sar, ?min, ?max, ?minu, ?maxu, ?slt, ?sltu, ?seq, ?movi,
    ?addi, ?andi, ?ori, ?xori, ?shli, ?shri, ?sari, ?insi, fun _ h => absurd h List.not_mem_nil⟩
  case add | sub | mul | and | or | xor | shl | shr | sar | seq =>
    exact rowComputes_low (fun _ _ _ => rfl) (fun _ => rfl) fun _ _ _ => rfl
  case mulhu => exact rowComputes_low (fun _ _ _ => rfl) (fun _ => rfl) fun a b _ => ofNat_mul_div a b
  case min | max | minu | maxu | slt | sltu =>
    exact rowComputes_low (fun _ _ _ => rfl) (fun _ => rfl) fun _ _ _ => by simp [scalarValue, BitVec.slt, BitVec.ult]
  case movi =>
    exact rowComputes_field (hi := 28) (lo := 24) (fun _ _ _ => rfl) rfl (fun _ => rfl) fun _ _ w => ofNat_imm24 w
  case addi => exact rowComputes_nothing (fun _ _ _ => rfl) (fun _ => rfl) fun a _ w => congrArg (a + ·) (ofNat_imm24 w)
  case andi => exact rowComputes_nothing (fun _ _ _ => rfl) (fun _ => rfl) fun a _ w => congrArg (a &&& ·) (ofNat_imm w)
  case ori => exact rowComputes_nothing (fun _ _ _ => rfl) (fun _ => rfl) fun a _ w => congrArg (a ||| ·) (ofNat_imm w)
  case xori => exact rowComputes_nothing (fun _ _ _ => rfl) (fun _ => rfl) fun a _ w => congrArg (a ^^^ ·) (ofNat_imm w)
  case insi => exact rowComputes_nothing (fun _ _ _ => rfl) (fun _ => rfl) fun a _ w => congrArg (a <<< 24 ||| ·) (ofNat_imm w)
  case shli => exact rowComputes_shift (fun _ _ _ => rfl) (fun _ => rfl) fun a _ w => congrArg (a <<< ·) (bits_toNat w 5 0)
  case shri => exact rowComputes_shift (fun _ _ _ => rfl) (fun _ => rfl) fun a _ w => congrArg (a >>> ·) (bits_toNat w 5 0)
  case sari => exact rowComputes_shift (fun _ _ _ => rfl) (fun _ => rfl) fun a _ w => congrArg a.sshiftRight (bits_toNat w 5 0)

theorem scalarRows_opcode : ∀ row ∈ scalarRows, row.1 < 64 := fun row h => (scalarRows_reserve row h).1

/-- Settles O8. Each row of Table 7.2 is what the model computes (`scalarRows_compute`), and an operation that no cause skips
writes it (`State.scalarSlot_performs`). -/
theorem scalarOperationsWriteResult : Obligations.ScalarOperationsWriteResult := by
  intro row hrow c w s hactive hop hreserved hdual
  obtain ⟨hexec, hfield, hval⟩ := scalarRows_compute row hrow
  have hslot := State.scalarSlot_performs (f := fun x w => scalarResult row.1 x w) hactive
    (bits_opcode (scalarRows_opcode row hrow) hop) (hfield w hreserved) (by rwa [bits_toNat])
  have hresult (a b : Dword) : BitVec.ofNat 64 (scalarValue row.1 a b w.toNat).toNat = row.2.2.2 a b w := by
    rw [BitVec.ofNat_toNat, BitVec.setWidth_eq, hval]
  refine ⟨_, (hexec c w s).trans (congrArg _ hslot), onlyCrew_setCrew _ _ _, ?_⟩
  rw [State.setCrew_crew, bits_toNat]
  exact Crew.wS_wroteS _ _ (hresult _ _)

/-! ## Branches (R177) -/

/-- A row of the branches says what the model judges: its command is the branch of its opcode, which reserves bits 33 to 24 in JMP
alone, and is taken as the row says. -/
def RowBranches (row : Nat × (CrewRef → Slot40 → Instr) × (Dword → Dword → Bool)) : Prop :=
  (∀ c w s, exec (row.2.1 c w) s = .next (s.branchSlot row.1 c w.toNat)) ∧ row.1 < 64 ∧
  (∀ w : Slot40, (row.1 = 0x26 → w.extractLsb' 24 10 = 0) → scalarBadField row.1 w.toNat = false) ∧
  ∀ a b, branchTaken row.1 a b = row.2.2 a b

theorem branchRows_branch : ∀ row ∈ branchRows, RowBranches row := by
  simp only [branchRows, List.forall_mem_cons]
  refine ⟨?beq, ?bne, ?blt, ?bge, ?bltu, ?bgeu, ?jmp, fun _ h => absurd h List.not_mem_nil⟩
  case jmp => exact ⟨fun _ _ _ => rfl, by decide, fun w h => decide_eq_false (not_not_intro (bits_eq_zero (h rfl))), fun _ _ => rfl⟩
  case beq | bne | blt | bltu => exact ⟨fun _ _ _ => rfl, by decide, fun _ _ => rfl, fun _ _ => rfl⟩
  case bge | bgeu =>
    exact ⟨fun _ _ _ => rfl, by decide, fun _ _ => rfl, fun _ _ => by simp [branchTaken, BitVec.slt, BitVec.ult, ← decide_not]⟩

/-- The target of a branch, at which it wraps round (R177). -/
theorem branchTarget_eq (foff : Nat) (w : Slot40) :
    (branchTarget foff w.toNat : Int) = ((foff : Int) + 32 * (w.extractLsb' 0 24).toInt) % 2 ^ 22 := by
  have hoff : sext 24 (bits w.toNat 23 0) = (w.extractLsb' 0 24).toInt := by
    rw [← sext_toNat w (by decide)]
    simp [sext, bits]
  rw [branchTarget, hoff, Int.toNat_of_nonneg (Int.emod_nonneg _ (by decide))]
  rfl

/-- A count changes no crew. -/
@[simp] theorem State.bump_crew (s : State) (off : Nat) (c : CrewRef) : (s.bump off).crew c = s.crew c := rfl

/-- The state after a taken branch: the crew goes on at the target, in the loops that hold it (R156, R165). -/
def State.branched (s : State) (c : CrewRef) (target : Nat) : State :=
  (s.setCrew c { s.crew c with pc := target, loops := closeLoops target (s.crew c).curLoops, stall := s.cycle + 3 }).bumpN
    (Reg.crwLoopExitCnt c.stope) ((s.crew c).curLoops.length - (closeLoops target (s.crew c).curLoops).length)

/-- What a branch slot of its opcode comes to. -/
theorem State.branchSlot_eq {w : Nat} (hactive : (s.crew c).active = true) (hop : bits w 39 34 = op)
    (hfield : scalarBadField op w = false) :
    s.branchSlot op c w =
      if branchTaken op (Store.get 0 (s.crew c).snap.s (bits w 33 29)) (Store.get 0 (s.crew c).snap.s (bits w 28 24)) then
        s.branched c (branchTarget (s.crew c).curFoff w)
      else s := by
  simp [State.branchSlot, State.branched, hactive, hop, hfield]

theorem State.branched_crew (s : State) (c : CrewRef) (target : Nat) :
    (s.branched c target).crew c =
      { s.crew c with pc := target, loops := closeLoops target (s.crew c).curLoops, stall := s.cycle + 3 } :=
  s.setCrew_crew c _

theorem State.branched_regsBut (s : State) (c : CrewRef) (target : Nat) :
    regsBut [Reg.crwLoopExitCnt c.stope] s (s.branched c target) :=
  fun _ hoff => State.setReg_reg_ne _ _ (List.ne_of_not_mem_cons hoff)

/-- Settles O9. A taken branch (`State.branched`) moves its crew to the target and counts the loops that it leaves. -/
theorem branchesGoToTarget : Obligations.BranchesGoToTarget := by
  intro row hrow c w s hactive hop hjump
  obtain ⟨hexec, hlt, hfield, htaken⟩ := branchRows_branch row hrow
  have hslot := hexec c w s
  rw [State.branchSlot_eq hactive (bits_opcode hlt hop) (hfield w hjump), htaken, bits_toNat w 33 29, bits_toNat w 28 24] at hslot
  refine ⟨_, hslot, ?_⟩
  split
  · refine ⟨rfl, s.branched_regsBut c _, ?_, ?_, ?_⟩ <;> rw [State.branched_crew]
    exact branchTarget_eq _ w
  · rfl

/-! ## Loop entries (R178) -/

/-- The count of a loop entry. -/
def State.loopCount (s : State) (c : CrewRef) (w : Nat) : Nat :=
  if w.testBit 33 then bits w 15 0 else (s.crew c).sr (bits w 32 28) % 2 ^ 32

/-- The last bundle of a loop entry's body. -/
def Crew.loopEnd (x : Crew) (w : Nat) : Nat := x.curFoff + 32 * (bits w 27 16 + 1)

theorem State.loopSlot_badField {w : Nat} (hactive : (s.crew c).active = true) (hop : bits w 39 34 = 0x28)
    (hfield : scalarBadField 0x28 w = true) : s.loopSlot c w = s.skipSlot c 0 2 := by
  simp [State.loopSlot, hactive, hop, hfield, firstCause]

/-- A loop entry that breaks no rule skips its body at count 0, and opens a level over it at any other (R151-R155). -/
theorem State.loopSlot_opens {w : Nat} (hactive : (s.crew c).active = true) (hop : bits w 39 34 = 0x28)
    (hfield : scalarBadField 0x28 w = false) (hnest : loopBad (s.crew c).curLoops ((s.crew c).loopEnd w) = false) :
    s.loopSlot c w =
      if s.loopCount c w = 0 then
        (s.setCrew c { s.crew c with
          pc := (fallThrough ((s.crew c).loopEnd w) (s.crew c).curLoops).1
          loops := (fallThrough ((s.crew c).loopEnd w) (s.crew c).curLoops).2 }).bump (Reg.crwLoopZeroCnt c.stope)
      else s.setCrew c { s.crew c with
        pc := (s.crew c).curFoff + 32
        loops := ⟨(s.crew c).curFoff + 32, (s.crew c).loopEnd w, s.loopCount c w⟩ :: (s.crew c).curLoops } := by
  simp [State.loopSlot, State.loopCount, Crew.loopEnd] at hnest ⊢
  simp [hactive, hop, hfield, hnest, firstCause]

/-- The limits of R155: at most four levels, and a body that ends in that of the innermost one. -/
theorem loopBad_false {l : List LoopLevel} {last : Nat} (hroom : l.length < 4) (hin : ∀ x ∈ l.head?, last ≤ x.last) :
    loopBad l last = false := by
  cases l with
  | nil => rfl
  | cons x l =>
    have hx := hin x rfl
    simp only [loopBad, Bool.or_eq_false_iff, decide_eq_false_iff_not]
    omega

/-- Where no level ends with a bundle, the crew goes on behind it. -/
theorem fallThrough_past {l : List LoopLevel} {foff : Nat} (h : ∀ x ∈ l.head?, foff ≠ x.last) :
    fallThrough foff l = (foff + 32, l) := by
  cases l with
  | nil => rfl
  | cons x l => simp [fallThrough, Ne.symm (h x rfl)]

/-- The format rule of a loop entry: the field that its count does not use is 0. -/
theorem scalarBadField_loop (w : Slot40) :
    scalarBadField 0x28 w.toNat = if w.getLsbD 33 then decide (bits w.toNat 32 28 ≠ 0) else decide (bits w.toNat 15 0 ≠ 0) := rfl

theorem loop_badField {w : Slot40} (h : if w.getLsbD 33 then w.extractLsb' 28 5 ≠ 0 else w.extractLsb' 0 16 ≠ 0) :
    scalarBadField 0x28 w.toNat = true := by
  rw [scalarBadField_loop]
  split at h
  · next hsrc => rw [if_pos hsrc, decide_eq_true (bits_ne_zero h)]
  · next hsrc => rw [if_neg hsrc, decide_eq_true (bits_ne_zero h)]

theorem loop_count {w : Slot40} {n : Nat}
    (h : if w.getLsbD 33 then w.extractLsb' 28 5 = 0 ∧ n = (w.extractLsb' 0 16).toNat
      else w.extractLsb' 0 16 = 0 ∧ n = (Store.get 0 (s.crew c).snap.s (w.extractLsb' 28 5).toNat).toNat % 2 ^ 32) :
    scalarBadField 0x28 w.toNat = false ∧ s.loopCount c w.toNat = n := by
  have hcount : s.loopCount c w.toNat =
      if w.getLsbD 33 then bits w.toNat 15 0 else (s.crew c).sr (bits w.toNat 32 28) % 2 ^ 32 := rfl
  rw [scalarBadField_loop, hcount]
  split at h <;> obtain ⟨hunused, rfl⟩ := h
  · next hsrc =>
    have hzero : bits w.toNat 32 28 = 0 := bits_eq_zero hunused
    rw [if_pos hsrc, if_pos hsrc, hzero]
    exact ⟨rfl, bits_toNat w 15 0⟩
  · next hsrc =>
    have hzero : bits w.toNat 15 0 = 0 := bits_eq_zero hunused
    rw [if_neg hsrc, if_neg hsrc, hzero, bits_toNat w 32 28]
    exact ⟨rfl, rfl⟩

/-- Settles O10. An entry that breaks its format rule is skipped (`State.skipSlot_skipped`); of one that breaks no rule
`State.loopSlot_opens` says what it comes to. -/
theorem loopEntryOpensLevel : Obligations.LoopEntryOpensLevel := by
  refine ⟨fun c w s hc hactive hop hbad => ?_, fun c w s n body hactive hop hbody hcount hroom hin => ?_⟩
  · obtain ⟨i, hi⟩ := Crew.inst_of_active hactive
    have hslot := State.loopSlot_badField hactive (bits_opcode (by decide) hop) (loop_badField hbad)
    obtain ⟨hcnt, -, -, hregs, -, hpc, hloops⟩ := (State.skipSlot_skipped hi hc 0 2).performsNothing
    exact ⟨_, congrArg Host.Outcome.next hslot, hcnt, hregs, hpc, hloops⟩
  · obtain ⟨hfield, rfl⟩ := loop_count hcount
    have hend : (s.crew c).loopEnd w.toNat = (s.crew c).curFoff + 32 * body := by
      rw [Crew.loopEnd, bits_toNat, hbody]
    have hslot := State.loopSlot_opens hactive (bits_opcode (by decide) hop) hfield (loopBad_false hroom (hend ▸ hin))
    rw [hend] at hslot
    refine ⟨_, congrArg Host.Outcome.next hslot, ?_⟩
    split
    · refine ⟨State.bump_reg _ _, fun hpast => ?_⟩
      rw [State.bump_crew, State.setCrew_crew, fallThrough_past hpast]
      exact ⟨rfl, rfl⟩
    · exact ⟨onlyCrew_setCrew _ _ _, by rw [State.setCrew_crew], by rw [State.setCrew_crew]⟩

end Sys2Proof.Machine
end

section
/-!
Accesses of a crew to its own face (07 R196; 09 R247, R255): what a plain access reads and writes, and what an atomic holds.
-/
namespace Sys2Proof.Machine

variable {s t : State} {c : CrewRef} {pa ea n v en : Nat}

/-! ## Bytes as a number -/

theorem State.byte_of_mem (h : t.mem = s.mem) (a : Nat) : t.byte a = s.byte a := by
  unfold State.byte
  rw [h]

/-- A read depends on the bytes that it reads. -/
theorem State.readLE_congr (h : ∀ a, t.byte a = s.byte a) (pa n : Nat) : t.readLE pa n = s.readLE pa n := by
  induction n generalizing pa with
  | zero => rfl
  | succ n ih => rw [State.readLE, State.readLE, h, ih]

theorem State.readLE_of_mem (h : t.mem = s.mem) (pa n : Nat) : t.readLE pa n = s.readLE pa n :=
  State.readLE_congr (State.byte_of_mem h) pa n

theorem State.readLE_lt (s : State) (pa n : Nat) : s.readLE pa n < 2 ^ (8 * n) := by
  induction n generalizing pa with
  | zero => exact Nat.one_pos
  | succ n ih =>
    have hbyte : (s.byte pa).toNat < 256 := (s.byte pa).isLt
    have hrest := ih (pa + 1)
    rw [State.readLE, Nat.mul_succ, Nat.add_comm (8 * n), Nat.pow_add]
    omega

/-- A read of the bytes of a number gives the number. -/
theorem State.readLE_of_bytes (h : ∀ k, k < n → s.byte (pa + k) = BitVec.ofNat 8 (v / 256 ^ k)) :
    s.readLE pa n = v % 2 ^ (8 * n) := by
  induction n generalizing pa v with
  | zero => rw [State.readLE, Nat.mul_zero, Nat.pow_zero, Nat.mod_one]
  | succ n ih =>
    have hfirst : s.byte pa = BitVec.ofNat 8 v := by simpa using h 0 n.succ_pos
    have hrest : s.readLE (pa + 1) n = v / 256 % 2 ^ (8 * n) := ih fun k hk => by
      have := h (k + 1) (Nat.succ_lt_succ hk)
      rwa [Nat.pow_succ', ← Nat.div_div_eq_div_mul, ← Nat.add_assoc, Nat.add_right_comm] at this
    rw [State.readLE, hfirst, hrest, BitVec.toNat_ofNat, Nat.mul_succ, Nat.add_comm (8 * n), Nat.pow_add, Nat.mod_mul]

/-- A byte of a number that is cut behind it. -/
theorem byte_mod {k : Nat} (hk : k < n) : BitVec.ofNat 8 (v % 2 ^ (8 * n) / 256 ^ k) = BitVec.ofNat 8 (v / 256 ^ k) := by
  have hsplit : 8 * n = 8 * k + (8 + 8 * (n - k - 1)) := by omega
  have hpow : 256 ^ k = 2 ^ (8 * k) := by rw [Nat.pow_mul]
  refine BitVec.eq_of_toNat_eq ?_
  rw [BitVec.toNat_ofNat, BitVec.toNat_ofNat, hpow, hsplit, Nat.pow_add, Nat.mod_mul_right_div_self, Nat.pow_add,
    Nat.mod_mul_right_mod]

/-! ## Ranges that meet no marked word (09 R255) -/

theorem State.readMem_unmarked (h : s.marked pa n = false) : s.readMem pa n = (s, s.readLE pa n, false) := by
  rw [State.readMem, h]
  rfl

/-- A write whose range meets no marked word changes memory alone. -/
theorem State.writeMem_unmarked (h : s.marked pa n = false) (v en : Nat) :
    s.writeMem pa n v en = { s with mem := memWrite s.mem pa n v en } := by
  have hhit : (s.marks.filter fun e => (wordEnables pa n en (e.1 * 4)).any (· = true)) = [] := by
    refine List.filter_eq_nil_iff.2 fun e he hcover => ?_
    have hfar := List.any_eq_false.1 h e he
    simp only [wordEnables, List.any_map, List.any_eq_true, List.mem_range, Function.comp_apply, Bool.and_eq_true,
      decide_eq_true_eq] at hcover
    obtain ⟨i, hi, ⟨hlo, hhi⟩, -⟩ := hcover
    simp only [Bool.and_eq_true, decide_eq_true_eq, not_and] at hfar
    exact hfar (by omega) (by omega)
  rw [State.writeMem, hhit]
  rfl

theorem State.writeMem_byte (h : s.marked pa n = false) (v en a : Nat) :
    (s.writeMem pa n v en).byte a =
      if pa ≤ a ∧ a < pa + n ∧ en.testBit (a - pa) = true then BitVec.ofNat 8 (v / 256 ^ (a - pa)) else s.byte a := by
  rw [State.writeMem_unmarked h]
  exact memWrite_get _ _ _ _ _ _

theorem State.writeMem_byte_outside (h : s.marked pa n = false) (v en : Nat) {a : Nat} (ha : ¬(pa ≤ a ∧ a < pa + n)) :
    (s.writeMem pa n v en).byte a = s.byte a := by
  rw [State.writeMem_byte h, if_neg fun hin => ha ⟨hin.1, hin.2.1⟩]

/-- A write of all bytes of a range is what a read of the range gives afterwards. -/
theorem State.writeMem_readLE (h : s.marked pa n = false) (v : Nat) :
    (s.writeMem pa n v (allBytes n)).readLE pa n = v % 2 ^ (8 * n) := by
  refine State.readLE_of_bytes fun k hk => ?_
  have hen : (allBytes n).testBit (pa + k - pa) = true := by
    rw [Nat.add_sub_cancel_left, allBytes, Nat.testBit_two_pow_sub_one, decide_eq_true hk]
  rw [State.writeMem_byte h, if_pos ⟨Nat.le_add_right _ _, Nat.add_lt_add_left hk _, hen⟩, Nat.add_sub_cancel_left]

/-! ## Plain accesses of a crew (07 R196) -/

theorem hitsPost_false (h : ea + n ≤ postRow) : hitsPost ea n = false := decide_eq_false (Nat.not_lt.2 h)

theorem badAccess_false {align : Nat} (hpost : ea + n ≤ postRow) (halign : ea % align = 0) : badAccess ea n align = false := by
  have hface : ¬faceSize < ea + n := by unfold faceSize; unfold postRow at hpost; omega
  simp [badAccess, hface, halign]

/-- A crew's read below the post row that meets no marked word. -/
theorem State.crewRead_unmarked (hpost : ea + n ≤ postRow) (hmark : s.marked (faceBase c.stope + ea) n = false) :
    s.crewRead c ea n = (s, faceBytes s c ea n) := by
  simp only [State.crewRead, hitsPost_false hpost, Bool.false_eq_true, if_false, State.readMem_unmarked hmark]
  rfl

theorem memWrite_none (m : List Host.Cell) (pa n v : Nat) : memWrite m pa n v 0 = m := by
  induction n generalizing pa v with
  | zero => rfl
  | succ n ih => exact ih _ _

/-- A crew's write below the post row that meets no marked word changes the bytes that it enables. -/
theorem State.crewWrite_unmarked (hpost : ea + n ≤ postRow) (hmark : s.marked (faceBase c.stope + ea) n = false)
    (hen : en < 2 ^ n) :
    s.crewWrite c ea n v en = { s with mem := memWrite s.mem (faceBase c.stope + ea) n (v % 2 ^ (8 * n)) en } := by
  have hdrop : en / 2 ^ n = 0 := Nat.div_eq_of_lt hen
  simp only [State.crewWrite, hitsPost_false hpost, Bool.false_eq_true, if_false, hdrop, ne_eq, not_true_eq_false, decide_false,
    State.bumpIf_false, Nat.mod_eq_of_lt hen]
  split
  · next hnone => rw [hnone, memWrite_none]
  · exact State.writeMem_unmarked hmark _ _

/-! ## Locked sequences (09 R247) -/

/-- The face memory of a stope in the address map (Table 9.1). -/
theorem State.paKind_face (s : State) {n off : Nat} (hn : n < 144) (hoff : off < faceSize) :
    s.paKind (faceBase n + off) = .face n := by
  unfold faceSize at hoff
  have hpos : faceBase n + off - 0x8100000000 = 0x400000 * n + off := by unfold faceBase; omega
  have hin : (0x400000 * n + off) % 0x400000 < 0x300000 := by omega
  have hstope : (0x400000 * n + off) / 0x400000 = n := by omega
  have hhi : 0x8100000000 ≤ faceBase n + off ∧ faceBase n + off < 0x8100000000 + 0x400000 * 144 := by unfold faceBase; omega
  unfold State.paKind
  rw [if_neg (by omega), if_neg (by omega), if_neg (by omega), if_pos hhi, hpos, if_pos hin, hstope]

/-- The state when a crew's atomic locks the banks of its rows of the face. -/
def State.lockFace (s : State) (c : CrewRef) (ea n port cycles : Nat) : State :=
  s.pushLock (.face c.stope) (s.spanUnits (.face c.stope) ea n) port none (some c) none cycles ⟨0, 0⟩

theorem State.holdAtomic_face (hstope : c.stope < 144) (hpost : ea + n ≤ postRow) (port cycles : Nat) :
    s.holdAtomic (faceBase c.stope + ea) n port cycles (some c) = s.lockFace c ea n port cycles := by
  have hkind := s.paKind_face hstope (off := ea) (by unfold faceSize; unfold postRow at hpost; omega)
  have hoff : faceBase c.stope + ea - memBase (.face c.stope) = ea := Nat.add_sub_cancel_left ..
  simp only [State.holdAtomic, State.lockFace, hkind, hoff]

/-- The first row of a span is among those that it needs. -/
theorem State.mem_spanUnits (s : State) (m : BankMem) (off : Nat) (hn : 0 < n) :
    s.unitOf m (off / 64 * 64) ∈ s.spanUnits m off n := by
  refine List.mem_eraseDups.2 (List.mem_map.2 ⟨0, List.mem_range.2 (by omega), rfl⟩)

/-- A locked sequence that begins holds its units while its cycles last. -/
theorem State.bankLocked_pushLock (s : State) {m : BankMem} {l : List Nat} {unit cycles : Nat} (hunit : unit ∈ l) (hcycles : 0 < cycles)
    (port : Nat) (crew : Option CrewRef) (site : Site) :
    (s.pushLock m l port none crew none cycles site).bankLocked m unit = true := by
  refine List.any_eq_true.2 ⟨_, List.mem_append_right _ List.mem_cons_self, ?_⟩
  simpa [State.holds, State.pushLock, State.newId] using ⟨hcycles, hunit⟩

/-- While its cycles last, an atomic holds what it touched. -/
theorem State.lockFace_heldAt (hstope : c.stope < 144) (hpost : ea + n ≤ postRow) (hn : 0 < n) (port : Nat) {cycles : Nat}
    (hcycles : 0 < cycles) : (s.lockFace c ea n port cycles).heldAt (faceBase c.stope + ea) n = true := by
  have hbank : (s.lockFace c ea n port cycles).bankLocked (.face c.stope)
      ((s.lockFace c ea n port cycles).unitOf (.face c.stope) (ea / 64 * 64)) = true :=
    s.bankLocked_pushLock (s.mem_spanUnits (.face c.stope) ea hn) hcycles port (some c) ⟨0, 0⟩
  have hlocks : (s.lockFace c ea n port cycles).locks ≠ [] := by simp [State.lockFace, State.pushLock]
  generalize s.lockFace c ea n port cycles = u at hbank hlocks ⊢
  have hline : 64 * ((faceBase c.stope + ea) / 64) = faceBase c.stope + ea / 64 * 64 := by unfold faceBase; omega
  have hkind := u.paKind_face hstope (off := ea / 64 * 64) (by unfold faceSize; unfold postRow at hpost; omega)
  have hheld : u.heldLine ((faceBase c.stope + ea) / 64) = true := by
    simp only [State.heldLine, hline, hkind, Nat.add_sub_cancel_left, hbank]
  have hrange : ∃ k, k < (faceBase c.stope + ea + n + 63) / 64 - (faceBase c.stope + ea) / 64 ∧
      u.heldLine ((faceBase c.stope + ea) / 64 + k) = true := ⟨0, by omega, hheld⟩
  simpa [State.heldAt, hlocks] using hrange

end Sys2Proof.Machine
end

section
/-!
The load slot (07 R189-R192, R195, R196): what a load that no cause skips does, and the obligation.
-/
namespace Sys2Proof.Machine

variable {s t : State} {c : CrewRef} {op w ea n d v : Nat}

/-! ## A load that no cause skips -/

/-- A load slot of opcode `op` that issues and that no cause of Table 6.4 skips, on `n` bytes at `ea` that a plain access reaches. -/
structure SoundLoad (s : State) (c : CrewRef) (op w ea n : Nat) : Prop where
  active : (s.crew c).active = true
  opcode : bits w 39 34 = op
  off : (s.crew c).loadOff op w = ea
  size : loadSize op w = n
  plain : plainAccess s c ea n
  field : loadBadField op w = false
  ncb : loadBadNcb op w = false
  reg : loadBadReg op w (s.crew c) = false
  dual : loadDst op w = .p 0 ∨ loadDst op w ∉ (s.crew c).written

theorem Crew.loaded_active (x : Crew) : x.loaded.active = x.active := rfl

theorem SoundLoad.performs (h : SoundLoad s c op w ea n) (f : State → Crew → Nat → State) :
    s.loadSlot op c w f = f (s.setCrew c (s.crew c).loaded) (s.crew c) ea := by
  obtain ⟨hactive, hop, rfl, rfl, ⟨-, -, -, hheld⟩, hfield, hncb, hreg, hdual⟩ := h
  have hdst : (decide (loadDst op w ≠ .p 0) && (s.crew c).dual [loadDst op w]) = false := by
    rcases hdual with h | h
    · simp [h]
    · simp [Crew.not_dual h]
  simp only [State.loadSlot, hactive, hop, hheld, hfield, hncb, hreg, hdst, firstCause]
  rfl

/-- The crew that such a load changes has been at the bank (06 R147). -/
theorem SoundLoad.modCrew (h : SoundLoad s c op w ea n) (g : Crew → Crew) :
    (s.setCrew c (s.crew c).loaded).modCrew c g = s.setCrew c (g (s.crew c).loaded) := by
  rw [State.modCrew, State.setCrew_crew, State.setCrew_setCrew _ _ (Crew.loaded_active _ ▸ h.active)]

/-- Such a load reads its range of the face. -/
theorem SoundLoad.read (h : SoundLoad s c op w ea n) (x : Crew) :
    (s.setCrew c x).crewRead c ea n = (s.setCrew c x, faceBytes s c ea n) := by
  obtain ⟨-, hpost, hmark, -⟩ := h.plain
  have hbytes : faceBytes (s.setCrew c x) c ea n = faceBytes s c ea n := State.readLE_of_mem (by simp) _ _
  rw [State.crewRead_unmarked (s := s.setCrew c x) hpost hmark, hbytes]

/-- The REG rule of a load whose access is plain: VD and PD are below 8 (R174, R196). -/
theorem loadBadReg_false {x : Crew} (hop : op ≠ 6) (hoff : x.loadOff op w = ea) (hpost : ea + loadSize op w ≤ postRow)
    (halign : ea % loadAlign op w = 0) (hdst : op = 2 ∨ op = 3 ∨ op = 4 → bits w 33 29 < 8)
    (hmx : op = 3 → w.testBit 19 = false) : loadBadReg op w x = false := by
  have haccess := badAccess_false hpost halign
  have hd : ¬((op = 2 ∨ op = 3 ∨ op = 4) ∧ 7 < bits w 33 29) := fun ⟨h, hlt⟩ => by have := hdst h; omega
  have hw : (decide (op = 3) && w.testBit 19) = false := by by_cases h : op = 3 <;> simp [h, hmx]
  simp [loadBadReg, hoff, haccess, hd, hw, hop]

/-! ## What each load writes -/

/-- LDS writes its bytes, sign-extended where MOD[2] says so. -/
theorem SoundLoad.scalar (h : SoundLoad s c 1 w ea n) : s.loadSlot 1 c w (loadScalar c w) =
    s.setCrew c ((s.crew c).loaded.wS (bits w 33 29)
      (if w.testBit 18 then ofInt 64 (sext (8 * n) (faceBytes s c ea n)) else faceBytes s c ea n)) := by
  have hpost := h.plain.2.1
  have hrow : ¬(ea = postRow + 8 ∧ n = 8) := by omega
  have hsize : sizeOf2 (bits w 17 16) = n := h.size
  rw [h.performs, loadScalar, hsize, if_neg hrow, h.read, h.modCrew]

/-- The value of a scalar load, zero-extended or sign-extended. -/
theorem ofNat_extended (hn : n ≠ 0) (hv : v < 2 ^ (8 * n)) (b : Bool) :
    BitVec.ofNat 64 (if b then ofInt 64 (sext (8 * n) v) else v) =
      if b then (BitVec.ofNat (8 * n) v).signExtend 64 else (BitVec.ofNat (8 * n) v).setWidth 64 := by
  cases b
  · refine BitVec.eq_of_toNat_eq ?_
    simp [Nat.mod_eq_of_lt hv]
  · rw [if_pos rfl, if_pos rfl, sext_eq _ (by omega), ofInt_toInt, BitVec.ofNat_toNat, BitVec.setWidth_eq]

/-- LDV writes its bytes. -/
theorem SoundLoad.vector (h : SoundLoad s c 2 w ea 2048) (slot : Slot40) (hw : w = slot.toNat) :
    exec (.ldv c slot) s = .next (s.setCrew c ((s.crew c).loaded.wV (bits w 33 29) (faceBytes s c ea 2048))) := by
  subst hw
  refine congrArg Host.Outcome.next (h.performs _ |>.trans ?_)
  rw [h.read, h.modCrew]

/-- LDP writes its bytes. -/
theorem SoundLoad.predicate (h : SoundLoad s c 4 w ea 64) (slot : Slot40) (hw : w = slot.toNat) :
    exec (.ldp c slot) s = .next (s.setCrew c ((s.crew c).loaded.wP (bits w 33 29) (faceBytes s c ea 64))) := by
  subst hw
  refine congrArg Host.Outcome.next (h.performs _ |>.trans ?_)
  rw [h.read, h.modCrew]

/-- Element `e` that the widening load writes (R120, R190). -/
def widened (code img e : Nat) : Nat := ((Fmt.ofCode 2).convert false 0 0 ((Fmt.ofCode code).decode (packedElem code img e))).1

/-- LDVW without scales writes its elements, widened to binary16. -/
theorem SoundLoad.wide (h : SoundLoad s c 3 w ea n) (hmx : w.testBit 19 = false) : s.loadSlot 3 c w (loadWide c w) =
    s.setCrew c ((s.crew c).loaded.wV (bits w 33 29)
      (packElems 16 ((List.range 1024).map (widened (bits w 18 16) (faceBytes s c ea n))))) := by
  rw [h.performs, loadWide, h.size, if_neg (by simp [hmx]), h.read, h.modCrew]
  rfl

/-- The operands of a lode conversion (R130, R191). -/
def converted (x : Crew) (w : Nat) (l : LodeAcc) : Nat × Status :=
  lodeConv (Fmt.ofCode (Ncb.ofNat (bits w 15 8)).fmt) (Ncb.ofNat (bits w 15 8)).sat (Ncb.ofNat (bits w 15 8)).rnd
    (if (Ncb.ofNat (bits w 15 8)).rnd = 2 then x.draw (bits w 20 16) 0 0 else 0) (bits w 7 5) (l.source 2 0) l.terms
    ((Fmt.ofCode 0).decode (x.sr (bits w 4 0) % 2 ^ 32))

/-- LDLC of a full lode image writes the conversion, and counts its status. -/
theorem SoundLoad.conversion (h : SoundLoad s c 6 w ea 96) (hkind : fullImageKind (faceBytes s c ea 96) = 2) :
    s.loadSlot 6 c w (loadConv c w) =
      (s.setCrew c ((s.crew c).loaded.wS (bits w 33 29)
        (converted (s.crew c) w (LodeAcc.ofImage 2 (faceBytes s c ea 96)).1).1)).countStatus c.stope
        (converted (s.crew c) w (LodeAcc.ofImage 2 (faceBytes s c ea 96)).1).2 := by
  rw [h.performs, loadConv, h.read, if_neg (not_not_intro hkind), h.modCrew]
  rfl

/-- The counts of a status change registers alone (R138). -/
theorem State.countStatus_eq (s : State) (n : Nat) (z : Status) : ∃ r, s.countStatus n z = { s with regs := r } := by
  unfold State.countStatus
  generalize ht : s.bumpIf z.inexact _ = t
  generalize hu : t.bumpIf z.ovf _ = u
  rw [State.bumpIf_eq] at ht hu
  subst ht hu
  exact ⟨_, State.bumpIf_eq _ _ _⟩

/-! ## The obligation -/

theorem faceBytes_lt (s : State) (c : CrewRef) (ea : Nat) {n k : Nat} (h : 8 * n = k) : faceBytes s c ea n < 2 ^ k :=
  h ▸ s.readLE_lt _ _

/-- A whole register that a load writes reads back as the bytes. -/
theorem Crew.wV_toNat (x : Crew) (d : Nat) {v : Nat} (h : v < 2 ^ 16384) : (Store.get 0 (x.wV d v).regs.v d).toNat = v := by
  have hget : Store.get 0 (x.wV d v).regs.v d = BitVec.ofNat 16384 v := Store.get_set_self _ _ _ _
  rw [hget, toNat_ofNat_of_lt h]

theorem Crew.wP_toNat (x : Crew) {d v : Nat} (hd : d ≠ 0) (h : v < 2 ^ 512) :
    (Store.get 0 (x.wP d v).regs.p d).toNat = v := by
  have hget : Store.get 0 (x.wP d v).regs.p d = BitVec.ofNat 512 v := by
    rw [Crew.wP, if_neg hd]
    exact Store.get_set_self _ _ _ _
  rw [hget, toNat_ofNat_of_lt h]

/-- Settles O16. Each load is sound (`SoundLoad`), so it writes its register from the bytes of its range. -/
theorem loadsWriteTheirRegister : Obligations.LoadsWriteTheirRegister := by
  refine ⟨?lds, ?ldv, ?ldp, ?ldvw, ?ldlc⟩
  case lds =>
    intro c w s ea hactive hop hrsv hea halign hplain hdual
    have hsize : loadSize 1 w.toNat = 2 ^ (w.extractLsb' 16 2).toNat := sizeOf2_bits w 16
    have hoff : (s.crew c).loadOff 1 w.toNat = ea := ((s.crew c).effOff_eq w).trans hea.symm
    have hfield : bits w.toNat 23 16 / 2 ^ 3 = 0 := (bits_div_two_pow _ _ _ _).trans (bits_eq_zero hrsv)
    have hload : SoundLoad s c 1 w.toNat ea (2 ^ (w.extractLsb' 16 2).toNat) :=
      ⟨hactive, bits_opcode (by decide) hop, hoff, hsize, hplain, decide_eq_false (not_not_intro hfield), rfl,
       loadBadReg_false (by decide) hoff (hsize ▸ hplain.2.1) ((congrArg (ea % ·) hsize).trans halign) (by simp) nofun, .inr hdual⟩
    refine ⟨_, congrArg Host.Outcome.next hload.scalar, onlyCrew_setCrew _ _ _, ?_⟩
    rw [State.setCrew_crew, bits_toNat w 33 29]
    exact Crew.wS_wroteS _ _ (ofNat_extended (Nat.two_pow_pos _).ne' (faceBytes_lt _ _ _ rfl) _)
  case ldv =>
    intro c w s ea hactive hop hrsv hd hea halign hplain hdual
    have hoff : (s.crew c).loadOff 2 w.toNat = ea := ((s.crew c).effOff_eq w).trans hea.symm
    have hload : SoundLoad s c 2 w.toNat ea 2048 :=
      ⟨hactive, bits_opcode (by decide) hop, hoff, rfl, hplain, decide_eq_false (not_not_intro (bits_eq_zero hrsv)), rfl,
       loadBadReg_false (by decide) hoff hplain.2.1 halign (fun _ => hd) nofun, .inr hdual⟩
    refine ⟨_, hload.vector w rfl, onlyCrew_setCrew _ _ _, ?_⟩
    rw [State.setCrew_crew, bits_toNat w 33 29]
    exact ⟨Crew.wV_wroteV _ _ _, Crew.wV_toNat _ _ (faceBytes_lt _ _ _ rfl)⟩
  case ldp =>
    intro c w s ea hactive hop hrsv hd hea halign hplain hdual
    have hoff : (s.crew c).loadOff 4 w.toNat = ea := ((s.crew c).effOff_eq w).trans hea.symm
    have hload : SoundLoad s c 4 w.toNat ea 64 :=
      ⟨hactive, bits_opcode (by decide) hop, hoff, rfl, hplain, decide_eq_false (not_not_intro (bits_eq_zero hrsv)), rfl,
       loadBadReg_false (by decide) hoff hplain.2.1 halign (fun _ => hd) nofun, .inr hdual⟩
    refine ⟨_, hload.predicate w rfl, onlyCrew_setCrew _ _ _, ?_⟩
    rw [State.setCrew_crew, bits_toNat w 33 29]
    refine ⟨Crew.wP_s _ _ _, Crew.wP_v _ _ _, ?_⟩
    split
    · next hzero => rw [hzero, Crew.wP_zero]
    · next hpos => exact Crew.wP_toNat _ hpos (faceBytes_lt _ _ _ rfl)
  case ldvw =>
    intro c w s ea code hactive hop hrsv hcode hscaled hd hea halign hplain hdual
    subst hcode
    have hzero : bits w.toNat 23 19 = 0 := bits_eq_zero hrsv
    have hmx : w.toNat.testBit 19 = false := testBit_of_bits_eq_zero hzero (by decide) (by decide)
    have hsize : loadSize 3 w.toNat = packedBytes (w.extractLsb' 16 3).toNat 1024 := by
      rw [loadSize, hmx, bits_toNat]; rfl
    have hoff : (s.crew c).loadOff 3 w.toNat = ea := ((s.crew c).effOff_eq w).trans hea.symm
    have hfield : bits w.toNat 23 16 / 2 ^ 4 = 0 :=
      (bits_div_two_pow _ _ _ _).trans (by rw [← bits_div_two_pow w.toNat 23 19 1, hzero, Nat.zero_div])
    have hload : SoundLoad s c 3 w.toNat ea (packedBytes (w.extractLsb' 16 3).toNat 1024) :=
      ⟨hactive, bits_opcode (by decide) hop, hoff, hsize, hplain, decide_eq_false (not_not_intro hfield),
       decide_eq_false (Nat.not_lt.2 hscaled),
       loadBadReg_false (by decide) hoff (hsize ▸ hplain.2.1) halign (fun _ => hd) (fun _ => hmx), .inr hdual⟩
    refine ⟨_, congrArg Host.Outcome.next (hload.wide hmx), onlyCrew_setCrew _ _ _, ?_⟩
    rw [State.setCrew_crew, bits_toNat w 33 29, bits_toNat w 18 16]
    refine ⟨Crew.wV_wroteV _ _ _, fun e he => (Crew.wV_elem _ _ _ _ _).trans ?_⟩
    refine (elemAt_packElems 2 _ (by simp [elemCount, half]) e (by simpa using he)).trans ?_
    rw [List.getElem_map, List.getElem_range]
    rfl
  case ldlc =>
    intro c w s ea l hactive hop hfield hncb hea hreg hplain hkind hl hdual
    subst hl
    have hoff : (s.crew c).loadOff 6 w.toNat = ea := hea.symm
    have hload : SoundLoad s c 6 w.toNat ea 96 :=
      ⟨hactive, bits_opcode (by decide) hop, hoff, rfl, hplain, hfield, hncb, hreg, .inr hdual⟩
    refine ⟨_, congrArg Host.Outcome.next (hload.conversion hkind), ?_, ?_, ?_⟩
    · obtain ⟨r, hr⟩ := State.countStatus_eq (s.setCrew c _) c.stope _
      rw [hr]
      rfl
    · exact State.countStatus_regsBut (s.setCrew c _) c.stope _
    · rw [State.crew_of_crews (State.countStatus_crews _ _ _), State.setCrew_crew, bits_toNat w 33 29]
      refine Crew.wS_wroteS _ _ ?_
      rw [converted, bits_toNat w 20 16, bits_toNat w 7 5, bits_toNat w 4 0]

end Sys2Proof.Machine
end

section
/-!
The store slot and the atomics of both slots (07 R192-R194, R196; 09 R247, R248): the obligations.
-/
namespace Sys2Proof.Machine

variable {s t : State} {c : CrewRef} {op w ea n v en a : Nat}

/-! ## A store that no cause skips -/

/-- A store slot of opcode `op` that issues and that no cause of Table 6.4 skips, on `n` bytes at `ea` that a plain access reaches. -/
structure SoundStore (s : State) (c : CrewRef) (op w ea n : Nat) : Prop where
  active : (s.crew c).active = true
  loadDone : (s.crew c).loadDue = false
  opcode : bits w 39 34 = op
  off : (s.crew c).effOff w = ea
  size : storeSize op w = n
  plain : plainAccess s c ea n
  field : storeBadField op w = false
  ncb : storeBadNcb op w = false
  reg : storeBadReg op w (s.crew c) = false

theorem SoundStore.performs (h : SoundStore s c op w ea n) (f : State → Crew → Nat → State) :
    s.storeSlot op c w f = f s (s.crew c) ea := by
  obtain ⟨hactive, hdone, hop, rfl, rfl, ⟨-, -, -, hheld⟩, hfield, hncb, hreg⟩ := h
  simp only [State.storeSlot, hactive, hdone, hop, hheld, hfield, hncb, hreg, firstCause]
  rfl

/-- The REG rule of a store whose access is plain: VS and PS are below 8, and a predicate pair starts at an even one (R174, R193). -/
theorem storeBadReg_false {x : Crew} (hoff : x.effOff w = ea) (hpost : ea + storeSize op w ≤ postRow)
    (halign : ea % storeAlign op w = 0) (hsrc : op = 2 ∨ op = 3 → bits w 33 29 < 8)
    (hpair : op = 2 → w.testBit 19 = true → w.testBit 16 = false) : storeBadReg op w x = false := by
  have haccess := badAccess_false hpost halign
  have hd : ¬((op = 2 ∨ op = 3) ∧ 7 < bits w 33 29) := fun ⟨h, hlt⟩ => by have := hsrc h; omega
  have hp : (decide (op = 2) && w.testBit 19 && w.testBit 16) = false := by
    by_cases h : op = 2 <;> by_cases hbit : w.testBit 19 = true <;> simp [h, hbit, hpair]
  simp only [storeBadReg, hoff, haccess, hp, decide_eq_false hd, Bool.or_false]

/-! ## Stores of registers (R193) -/

/-- What the obligation says of a store: it changes the bytes that it enables, to those of `v`. -/
def State.Stored (s : State) (pa n v en : Nat) (t : State) : Prop :=
  t = { s with mem := t.mem } ∧
  ∀ a, t.byte a = if pa ≤ a ∧ a < pa + n ∧ en.testBit (a - pa) = true then BitVec.ofNat 8 (v / 256 ^ (a - pa)) else s.byte a

theorem State.crewWrite_stored (h : plainAccess s c ea n) (hen : en < 2 ^ n) (v : Nat) :
    s.Stored (faceBase c.stope + ea) n v en (s.crewWrite c ea n v en) := by
  obtain ⟨-, hpost, hmark, -⟩ := h
  rw [State.crewWrite_unmarked hpost hmark hen]
  refine ⟨rfl, fun a => (memWrite_get _ _ _ _ _ _).trans ?_⟩
  split
  · next hin => exact byte_mod (by omega)
  · rfl

/-- A store that writes what it does not cut writes the same. -/
theorem State.Stored.cut (h : s.Stored (faceBase c.stope + ea) n (v % 2 ^ (8 * n)) en t) :
    s.Stored (faceBase c.stope + ea) n v en t := by
  refine ⟨h.1, fun a => (h.2 a).trans ?_⟩
  split
  · next hin => exact byte_mod (by omega)
  · rfl

theorem allBytes_lt (n : Nat) : allBytes n < 2 ^ n := Nat.sub_lt (Nat.two_pow_pos n) Nat.one_pos

/-- STS writes the low bytes of its register. -/
theorem SoundStore.scalar (h : SoundStore s c 1 w ea n) :
    s.Stored (faceBase c.stope + ea) n ((s.crew c).sr (bits w 33 29)) (allBytes n) (s.storeSlot 1 c w (storeScalar c w)) := by
  have hsize : sizeOf2 (bits w 17 16) = n := h.size
  have hpost := h.plain.2.1
  have hrow : ¬(ea = postRow ∧ n = 8) := by omega
  rw [h.performs, storeScalar, hsize, if_neg hrow]
  exact (State.crewWrite_stored h.plain (allBytes_lt n) _).cut

theorem stvEnables_lt (x : Crew) (w : Nat) : stvEnables x w < 2 ^ 2048 := by
  have hunit : ∀ u : Nat, u = 2 ∨ u = 4 → u * (2048 / u) = 2048 := by rintro u (rfl | rfl) <;> rfl
  have h := packElems_lt (if w.testBit 19 then 2 else 4) ((List.range (2048 / if w.testBit 19 then 2 else 4)).map fun e =>
    if x.enabled (if w.testBit 19 then 1 else 0) (bits w 18 16) e then allBytes (if w.testBit 19 then 2 else 4) else 0)
  rwa [List.length_map, List.length_range, hunit _ (by split <;> simp)] at h

/-- Settles O17. Each store is sound (`SoundStore`), so it writes the bytes that it enables (`State.crewWrite_stored`). -/
theorem storesWriteFace : Obligations.StoresWriteFace := by
  simp only [Obligations.StoresWriteFace, List.forall_mem_cons]
  refine ⟨?sts, ?stv, ?stp, fun _ h => absurd h List.not_mem_nil⟩
  case sts =>
    intro c w s ea n hactive hop hn hrsv hea halign hplain hdone
    subst hn
    have hsize : storeSize 1 w.toNat = 2 ^ (w.extractLsb' 16 2).toNat := sizeOf2_bits w 16
    have hoff : (s.crew c).effOff w.toNat = ea := ((s.crew c).effOff_eq w).trans hea.symm
    have hfield : bits w.toNat 23 16 / 2 ^ 2 = 0 := (bits_div_two_pow _ _ _ _).trans (bits_eq_zero hrsv)
    have hsmall : 2 ^ (w.extractLsb' 16 2).toNat ≤ 64 :=
      Nat.pow_le_pow_right (by decide) (Nat.le_trans (Nat.le_of_lt (w.extractLsb' 16 2).isLt) (show 2 ^ 2 ≤ 6 by decide))
    rw [Nat.min_eq_left hsmall] at halign
    have hstore : SoundStore s c 1 w.toNat ea (2 ^ (w.extractLsb' 16 2).toNat) :=
      ⟨hactive, hdone, bits_opcode (by decide) hop, hoff, hsize, hplain, decide_eq_false (not_not_intro hfield), rfl,
       storeBadReg_false hoff (hsize ▸ hplain.2.1) ((congrArg (ea % ·) hsize).trans halign) (by simp) nofun⟩
    obtain ⟨heq, hbytes⟩ := hstore.scalar
    exact ⟨_, rfl, heq, hbytes⟩
  case stv =>
    intro c w s ea n hactive hop hn hrsv hea halign hplain hdone
    obtain ⟨hrsv, hv, hpair⟩ := hrsv
    subst hn
    have hoff : (s.crew c).effOff w.toNat = ea := ((s.crew c).effOff_eq w).trans hea.symm
    have hfield : bits w.toNat 23 16 / 2 ^ 4 = 0 := (bits_div_two_pow _ _ _ _).trans (bits_eq_zero hrsv)
    have hstore : SoundStore s c 2 w.toNat ea 2048 :=
      ⟨hactive, hdone, bits_opcode (by decide) hop, hoff, rfl, hplain, decide_eq_false (not_not_intro hfield), rfl,
       storeBadReg_false hoff hplain.2.1 halign (fun _ => hv) (fun _ => hpair)⟩
    obtain ⟨heq, hbytes⟩ := State.crewWrite_stored hplain (stvEnables_lt (s.crew c) w.toNat) ((s.crew c).vr (bits w.toNat 33 29))
    exact ⟨_, congrArg Host.Outcome.next (hstore.performs _), heq, hbytes⟩
  case stp =>
    intro c w s ea n hactive hop hn hrsv hea halign hplain hdone
    obtain ⟨hrsv, hp⟩ := hrsv
    subst hn
    have hoff : (s.crew c).effOff w.toNat = ea := ((s.crew c).effOff_eq w).trans hea.symm
    have hstore : SoundStore s c 3 w.toNat ea 64 :=
      ⟨hactive, hdone, bits_opcode (by decide) hop, hoff, rfl, hplain, decide_eq_false (not_not_intro (bits_eq_zero hrsv)), rfl,
       storeBadReg_false hoff hplain.2.1 halign (fun _ => hp) nofun⟩
    obtain ⟨heq, hbytes⟩ := State.crewWrite_stored hplain (allBytes_lt 64) ((s.crew c).pr (bits w.toNat 33 29))
    exact ⟨_, congrArg Host.Outcome.next (hstore.performs _), heq, hbytes⟩

/-! ## Atomics at the bank (R192, R194) -/

/-- From `s` to `t` an atomic of crew `c` has rewritten `n` bytes at `ea` of its face to `v`, and holds what it touched. -/
structure State.Rewritten (s : State) (c : CrewRef) (ea n v : Nat) (t : State) : Prop where
  only : t = { s with mem := t.mem, locks := t.locks, fresh := t.fresh }
  held : t.heldAt (faceBase c.stope + ea) n = true
  bytes : faceBytes t c ea n = v % 2 ^ (8 * n)
  outside : ∀ a, ¬(faceBase c.stope + ea ≤ a ∧ a < faceBase c.stope + ea + n) → t.byte a = s.byte a

theorem State.lockFace_byte (port cycles a : Nat) : (s.lockFace c ea n port cycles).byte a = s.byte a := rfl

/-- An atomic that writes its bytes and locks its banks. -/
theorem State.rewritten_lock (h : plainAccess s c ea n) (hn : 0 < n) (v port : Nat) {cycles : Nat} (hcycles : 0 < cycles) :
    s.Rewritten c ea n v
      ((s.writeMem (faceBase c.stope + ea) n v (allBytes n)).holdAtomic (faceBase c.stope + ea) n port cycles (some c)) := by
  obtain ⟨hstope, hpost, hmark, -⟩ := h
  rw [State.holdAtomic_face hstope hpost]
  refine ⟨?_, State.lockFace_heldAt hstope hpost hn port hcycles, ?_, fun a ha => ?_⟩
  · rw [State.writeMem_unmarked hmark]
    rfl
  · exact (State.readLE_congr (State.lockFace_byte _ _) _ _).trans (State.writeMem_readLE hmark v)
  · exact (State.lockFace_byte _ _ a).trans (State.writeMem_byte_outside hmark _ _ ha)

/-- An atomic that locks its banks before it writes comes to the same. -/
theorem State.writeMem_holdAtomic (h : plainAccess s c ea n) (v en port cycles : Nat) :
    (s.holdAtomic (faceBase c.stope + ea) n port cycles (some c)).writeMem (faceBase c.stope + ea) n v en =
      (s.writeMem (faceBase c.stope + ea) n v en).holdAtomic (faceBase c.stope + ea) n port cycles (some c) := by
  obtain ⟨hstope, hpost, hmark, -⟩ := h
  have hmark' : (s.lockFace c ea n port cycles).marked (faceBase c.stope + ea) n = false := hmark
  rw [State.holdAtomic_face hstope hpost, State.holdAtomic_face hstope hpost, State.writeMem_unmarked hmark',
    State.writeMem_unmarked hmark]
  rfl

/-- LDXCH writes its source to memory, and the old bytes to its register. -/
theorem SoundLoad.swap (h : SoundLoad s c 5 w ea n) :
    s.loadSlot 5 c w (loadSwap c w) =
      (((s.setCrew c (s.crew c).loaded).writeMem (faceBase c.stope + ea) n ((s.crew c).sr (bits w 20 16) % 2 ^ (8 * n))
        (allBytes n)).holdAtomic (faceBase c.stope + ea) n 5 4 (some c)).modCrew c fun x =>
          x.wS (bits w 33 29) (faceBytes s c ea n) := by
  obtain ⟨-, hpost, hmark, -⟩ := h.plain
  have hsize : sizeOf2 (bits w 22 21) = n := h.size
  have hmark' : (s.setCrew c (s.crew c).loaded).marked (faceBase c.stope + ea) n = false := hmark
  have hbytes : (s.setCrew c (s.crew c).loaded).readLE (faceBase c.stope + ea) n = faceBytes s c ea n :=
    State.readLE_of_mem (by simp) _ _
  simp only [h.performs, loadSwap, hsize, hitsPost_false hpost, hmark', hbytes, Bool.false_eq_true, if_false]

/-- STADD adds its register to its operand. -/
theorem SoundStore.add (h : SoundStore s c 4 w ea n) :
    s.storeSlot 4 c w (storeAdd c w) =
      (s.writeMem (faceBase c.stope + ea) n ((faceBytes s c ea n + (s.crew c).sr (bits w 33 29)) % 2 ^ (8 * n))
        (allBytes n)).holdAtomic (faceBase c.stope + ea) n 6 6 (some c) := by
  obtain ⟨-, hpost, hmark, -⟩ := h.plain
  have hsize : sizeOf2 (bits w 17 16) = n := h.size
  simp only [h.performs, storeAdd, hsize, hitsPost_false hpost, hmark, Bool.false_eq_true, if_false]
  rfl

/-- The element that STLADD adds (R91, R194). -/
def addedElem (x : Crew) (w : Nat) : LodeAcc :=
  (Fmt.ofCode (bits w 18 16)).elemLode (w.testBit 19) (bits (x.sr (bits w 33 29)) 39 32)
    (x.sr (bits w 33 29) % 2 ^ (Fmt.ofCode (bits w 18 16)).width)

/-- The image that STLADD leaves. -/
def addedImage (x : Crew) (w img : Nat) : Nat := ((LodeAcc.ofImage 2 img).1.addFull (addedElem x w)).image 2 0 0

/-- STLADD adds its element into a full lode image. -/
theorem SoundStore.lode (h : SoundStore s c 5 w ea 96) (hkind : fullImageKind (faceBytes s c ea 96) = 2) :
    s.storeSlot 5 c w (storeLode c w) =
      (s.writeMem (faceBase c.stope + ea) 96 (addedImage (s.crew c) w (faceBytes s c ea 96)) (allBytes 96)).holdAtomic
        (faceBase c.stope + ea) 96 6 (lodeCycles ea) (some c) := by
  obtain ⟨hstope, hpost, hmark, -⟩ := h.plain
  have hread : (s.holdAtomic (faceBase c.stope + ea) 96 6 (lodeCycles ea) (some c)).readLE (faceBase c.stope + ea) 96 =
      faceBytes s c ea 96 := by
    rw [State.holdAtomic_face hstope hpost]
    exact State.readLE_congr (State.lockFace_byte _ _) _ _
  rw [← State.writeMem_holdAtomic h.plain]
  simp only [h.performs, storeLode, hitsPost_false hpost, hmark, State.lodeAdd, hread, hkind, Bool.false_eq_true, if_false,
    ne_eq, not_true_eq_false]
  rfl

theorem LodeAcc.side_lt (l : LodeAcc) : l.side < 2 ^ 7 := by
  have hbit (b : Bool) : b.toNat ≤ 1 := Bool.toNat_le b
  have h0 := hbit l.nan
  have h1 := hbit l.pinf
  have h2 := hbit l.ninf
  have h3 := hbit l.inexact
  have h4 := hbit l.breach
  have h5 := hbit l.gexh
  have h6 := hbit l.bsign
  unfold LodeAcc.side
  omega

/-- A number below another in a wider one. -/
theorem add_mul_two_pow_lt {x y j k : Nat} (hx : x < 2 ^ j) (hy : y < 2 ^ k) : x + y * 2 ^ j < 2 ^ (j + k) := by
  calc x + y * 2 ^ j < (y + 1) * 2 ^ j := by rw [Nat.add_mul, Nat.one_mul, Nat.add_comm]; exact Nat.add_lt_add_left hx _
    _ ≤ 2 ^ k * 2 ^ j := Nat.mul_le_mul_right _ hy
    _ = 2 ^ (j + k) := by rw [← Nat.pow_add, Nat.add_comm]

theorem ofInt_lt (k : Nat) (v : Int) : ofInt k v < 2 ^ k := by
  have hpos : (0 : Int) < ((2 ^ k : Nat) : Int) := Int.natCast_pos.2 (Nat.two_pow_pos k)
  have hlt := Int.emod_lt_of_pos v hpos
  have hnonneg := Int.emod_nonneg v hpos.ne'
  unfold ofInt
  omega

/-- A lode image is its value and 16 bytes more (Table 3.8). -/
theorem LodeAcc.image_lt (l : LodeAcc) {kind : Nat} (hkind : kind ≤ 2) (anchor : Int) (x : Nat) :
    l.image kind anchor x < 2 ^ (lodeWidth kind + 128) := by
  have hval : (if lodeFits kind l.val then ofInt (lodeWidth kind) l.val else x % 2 ^ lodeWidth kind) < 2 ^ lodeWidth kind := by
    split
    · exact ofInt_lt _ _
    · exact Nat.mod_lt _ (Nat.two_pow_pos _)
  have hanchor : (if kind = 2 then 0 else ofInt 16 anchor) < 2 ^ 16 := by
    split
    · exact Nat.two_pow_pos _
    · exact ofInt_lt _ _
  have hside := l.side_lt
  have hterms : l.terms % 2 ^ 64 < 2 ^ 64 := Nat.mod_lt _ (Nat.two_pow_pos _)
  exact add_mul_two_pow_lt hval (by omega)

/-- A full lode image is 96 bytes. -/
theorem addedImage_mod (x : Crew) (w img : Nat) : addedImage x w img % 2 ^ (8 * 96) = addedImage x w img :=
  have hlen : lodeWidth 2 + 128 = 8 * 96 := rfl
  Nat.mod_eq_of_lt (hlen ▸ LodeAcc.image_lt _ (Nat.le_refl 2) 0 0)

theorem faceBytes_modCrew (u : State) (g : Crew → Crew) : faceBytes (u.modCrew c g) c ea n = faceBytes u c ea n :=
  have hmem : (u.modCrew c g).mem = u.mem := rfl
  State.readLE_of_mem hmem _ _

/-- Settles O18. Each atomic rewrites its operand and holds it (`State.rewritten_lock`). -/
theorem atomicsActAtBank : Obligations.AtomicsActAtBank := by
  refine ⟨?ldxch, ?stadd, ?stladd⟩
  case ldxch =>
    intro c w s ea n hactive hop hrsv hbig hn hea halign hplain hdual
    subst hn
    have hsize : loadSize 5 w.toNat = 2 ^ (w.extractLsb' 21 2).toNat := sizeOf2_bits w 21
    have hoff : (s.crew c).loadOff 5 w.toNat = ea := ((s.crew c).effOff_eq w).trans hea.symm
    have hzero : bits w.toNat 23 16 / 2 ^ 7 = 0 :=
      (bits_div_two_pow _ _ _ _).trans ((bits_single _ _).trans (congrArg Bool.toNat hrsv))
    have hlarge : 2 ≤ bits (bits w.toNat 23 16) 6 5 := two_le_of_testBit (by rw [testBit_bits, testBit_bits]; exact hbig)
    have hfield : loadBadField 5 w.toNat = false :=
      Bool.or_eq_false_iff.2 ⟨decide_eq_false (not_not_intro hzero), decide_eq_false (Nat.not_lt.2 hlarge)⟩
    have hload : SoundLoad s c 5 w.toNat ea (2 ^ (w.extractLsb' 21 2).toNat) :=
      ⟨hactive, bits_opcode (by decide) hop, hoff, hsize, hplain, hfield, rfl,
       loadBadReg_false (by decide) hoff (hsize ▸ hplain.2.1) ((congrArg (ea % ·) hsize).trans halign) (by simp) nofun, .inr hdual⟩
    have hplain' : plainAccess (s.setCrew c (s.crew c).loaded) c ea (2 ^ (w.extractLsb' 21 2).toNat) := hplain
    have hdone := State.rewritten_lock hplain' (Nat.two_pow_pos _)
      ((s.crew c).sr (w.extractLsb' 16 5).toNat % 2 ^ (8 * 2 ^ (w.extractLsb' 21 2).toNat)) 5 (cycles := 4) (by decide)
    refine ⟨_, congrArg Host.Outcome.next hload.swap, ?_⟩
    rw [bits_toNat w 20 16, bits_toNat w 33 29]
    generalize State.holdAtomic _ _ _ _ _ _ = u at hdone ⊢
    obtain ⟨honly, hheld, hbytes, houtside⟩ := hdone
    refine ⟨?_, hheld, ?_, (faceBytes_modCrew u _).trans (hbytes.trans (Nat.mod_mod _ _)), houtside⟩
    · rw [honly]
      rfl
    · have hcrew : u.crew c = (s.crew c).loaded := by
        rw [honly]
        exact s.setCrew_crew c _
      rw [State.modCrew_crew, hcrew]
      exact Crew.wS_wroteS _ _ rfl
  case stadd =>
    intro c w s ea n hactive hop hrsv hbig hn hea halign hplain hdone
    subst hn
    have hsize : storeSize 4 w.toNat = 2 ^ (w.extractLsb' 16 2).toNat := sizeOf2_bits w 16
    have hoff : (s.crew c).effOff w.toNat = ea := ((s.crew c).effOff_eq w).trans hea.symm
    have hzero : bits w.toNat 23 16 / 2 ^ 2 = 0 := (bits_div_two_pow _ _ _ _).trans (bits_eq_zero hrsv)
    have hlarge : 2 ≤ bits w.toNat 23 16 % 2 ^ 2 :=
      two_le_of_testBit (by rw [Nat.testBit_mod_two_pow, testBit_bits]; exact hbig)
    have hfield : storeBadField 4 w.toNat = false :=
      Bool.or_eq_false_iff.2 ⟨decide_eq_false (not_not_intro hzero), decide_eq_false (Nat.not_lt.2 hlarge)⟩
    have hstore : SoundStore s c 4 w.toNat ea (2 ^ (w.extractLsb' 16 2).toNat) :=
      ⟨hactive, hdone, bits_opcode (by decide) hop, hoff, hsize, hplain, hfield, rfl,
       storeBadReg_false hoff (hsize ▸ hplain.2.1) ((congrArg (ea % ·) hsize).trans halign) (by simp) nofun⟩
    obtain ⟨honly, hheld, hbytes, houtside⟩ := State.rewritten_lock hplain (Nat.two_pow_pos _)
      ((faceBytes s c ea (2 ^ (w.extractLsb' 16 2).toNat) + (s.crew c).sr (bits w.toNat 33 29)) %
        2 ^ (8 * 2 ^ (w.extractLsb' 16 2).toNat)) 6 (cycles := 6) (by decide)
    exact ⟨_, congrArg Host.Outcome.next hstore.add, honly, hheld, hbytes.trans (Nat.mod_mod _ _), houtside⟩
  case stladd =>
    intro c w s ea l hactive hop hrsv hscaled hea halign hplain hkind hl hdone
    subst hl
    have hoff : (s.crew c).effOff w.toNat = ea := ((s.crew c).effOff_eq w).trans hea.symm
    have hzero : bits w.toNat 23 16 / 2 ^ 4 = 0 := (bits_div_two_pow _ _ _ _).trans (bits_eq_zero hrsv)
    have hncb : storeBadNcb 5 w.toNat = false := by
      by_cases hmx : w.toNat.testBit 19 = true
      · have hcode : 3 ≤ bits w.toNat 18 16 := hscaled hmx
        simp [storeBadNcb, hcode]
      · simp [storeBadNcb, hmx]
    have hstore : SoundStore s c 5 w.toNat ea 96 :=
      ⟨hactive, hdone, bits_opcode (by decide) hop, hoff, rfl, hplain, decide_eq_false (not_not_intro hzero), hncb,
       storeBadReg_false hoff hplain.2.1 halign (by simp) nofun⟩
    have hcycles : 0 < lodeCycles ea := by unfold lodeCycles; split <;> decide
    obtain ⟨honly, hheld, hbytes, houtside⟩ := State.rewritten_lock hplain (by decide)
      (addedImage (s.crew c) w.toNat (faceBytes s c ea 96)) 6 hcycles
    exact ⟨_, congrArg Host.Outcome.next (hstore.lode hkind), honly, hheld,
      hbytes.trans (addedImage_mod _ _ _), houtside⟩

end Sys2Proof.Machine
end

section
/-!
The sync slot: signals of tallies (07 R197, R198; 08 R226).
-/
namespace Sys2Proof.Machine

variable {s t u : State} {c : CrewRef} {op w n v : Nat} {i : Instance}

/-! ## A sync slot that no cause skips -/

/-- A sync slot of opcode `op` that issues and that no cause of Table 6.4 skips. -/
structure SoundSync (s : State) (c : CrewRef) (op w : Nat) : Prop where
  active : (s.crew c).active = true
  opcode : bits w 31 26 = op
  field : syncBadField op w = false
  dual : (s.crew c).dual (syncDst op w) = false

theorem SoundSync.performs (h : SoundSync s c op w) (f : State → Crew → State) : s.syncSlot op c w f = f s (s.crew c) := by
  obtain ⟨hactive, hop, hfield, hdual⟩ := h
  simp [State.syncSlot, hactive, hop, hfield, hdual, firstCause]

/-! ## A signal (08 R226) -/

/-- From `s` to `t` a signal of crew `c` has added `v` to tally `n`, or set it above what the cycle's earlier signals give. -/
structure State.Signalled (s : State) (c : CrewRef) (n : Nat) (set : Bool) (v : Nat) (t : State) : Prop where
  only : t = { s with crews := t.crews, regs := t.regs, sums := t.sums }
  counters : regsBut [Reg.tlyCount n] s t
  tally : t.tally n = if set then (max (s.sumOf n).top v + (s.sumOf n).sum) % 2 ^ 32 else (s.tally n + v) % 2 ^ 32
  crewRegs : (t.crew c).regs = (s.crew c).regs

/-- A signal changes its tally and what the cycle's signals come to. -/
theorem State.signal_signalled (s : State) (c : CrewRef) (n : Nat) (set : Bool) (hv : v < 2 ^ 32) :
    s.Signalled c n set v (s.signal n set v) where
  only := rfl
  counters _ hoff := s.setReg_reg_ne _ (List.ne_of_not_mem_cons hoff)
  tally := by
    refine (s.setReg_reg _ _).trans ?_
    cases set
    · exact Nat.mod_mod _ _
    · exact (Nat.mod_mod _ _).trans (by rw [if_pos rfl, if_pos rfl, Nat.mod_eq_of_lt hv])
  crewRegs := rfl

/-- The state in which a crew's run has recorded a signal (16 R446). -/
def State.recordSignal (s : State) (c : CrewRef) (r : SignalRec) : State :=
  (s.modInst c fun i => { i with nSignal := i.nSignal + 1 }).modInst c fun i => i.recordSignal r

theorem State.recordSignal_eq (s : State) (c : CrewRef) (r : SignalRec) : ∃ x, s.recordSignal c r = { s with crews := x } := ⟨_, rfl⟩

theorem State.recordSignal_crewRegs (s : State) (c : CrewRef) (r : SignalRec) :
    ((s.recordSignal c r).crew c).regs = (s.crew c).regs := by
  simp only [State.recordSignal, State.modInst_crew]

/-- A run's own record stands beside its signal. -/
theorem State.Signalled.recorded {set : Bool} {r : SignalRec} (h : (s.recordSignal c r).Signalled c n set v t) :
    s.Signalled c n set v t := by
  obtain ⟨honly, hcounters, htally, hregs⟩ := h
  rw [State.recordSignal_crewRegs] at hregs
  obtain ⟨x, hrecord⟩ := s.recordSignal_eq c r
  rw [hrecord] at honly hcounters htally
  exact ⟨honly, hcounters, htally, hregs⟩

/-- A signal that no restart record holds and no pair compares is made. -/
theorem State.crewSignal_plain (h : plainSignal (s.crew c)) (r : SignalRec) :
    ∃ step, s.crewSignal c r = (s.recordSignal c r).signalNamed r.target r.set r.value step := by
  obtain ⟨i, hi, hrestart, hpair, hshadow⟩ := h
  refine ⟨i.step.num, ?_⟩
  simp only [State.crewSignal, hi, hrestart, hshadow, List.length_nil, Nat.not_lt_zero, if_false, Bool.false_eq_true,
    State.offStope_single hpair]
  rfl

/-- A signal of a local tally is made at once (R229). -/
theorem State.signalNamed_local (s : State) (hn : n < 2 ^ 16) (set : Bool) (v step : Nat) :
    s.signalNamed n set v step = s.signal n set v := by
  have hbit : n.testBit 34 = false := Nat.testBit_lt_two_pow (Nat.lt_trans hn (by decide))
  have hlow : bits n 15 0 = n := Nat.mod_eq_of_lt hn
  simp only [State.signalNamed, hbit, hlow]
  rfl

theorem State.crewSignal_signalled (h : plainSignal (s.crew c)) {r : SignalRec} (htarget : r.target < 2 ^ 16)
    (hvalue : r.value < 2 ^ 32) : s.Signalled c r.target r.set r.value (s.crewSignal c r) := by
  obtain ⟨step, hsignal⟩ := State.crewSignal_plain h r
  rw [hsignal, State.signalNamed_local _ htarget]
  exact (State.signal_signalled _ c r.target r.set hvalue).recorded

theorem tiSignal_lt (x : Crew) (w : Nat) (set : Bool) : (tiSignal x w set).target < 2 ^ 16 ∧ (tiSignal x w set).value < 2 ^ 32 :=
  ⟨Nat.mod_lt _ (Nat.two_pow_pos _), Nat.mod_lt _ (Nat.two_pow_pos _)⟩

/-- A tally of this module named in a register (R198). -/
theorem txSignal_local {x : Crew} {w : Nat} (hlocal : (x.sr (bits w 25 21)).testBit 34 = false) (set : Bool) :
    txSignal x w set = ⟨x.sr (bits w 25 21) % 2 ^ 16, set, x.sr (bits w 20 16) % 2 ^ 32⟩ := by
  simp only [txSignal, hlocal, Bool.false_eq_true, if_false]

/-- TADD and TSET: the tally in the slot. -/
theorem tiSignal_signalled {w : Slot32} {set : Bool} (h : plainSignal (s.crew c)) (hactive : (s.crew c).active = true)
    (hopcode : bits w.toNat 31 26 = op) (hop : op = 1 ∨ op = 2) (hrsv : w.extractLsb' 0 5 = 0) :
    s.Signalled c (w.extractLsb' 10 16).toNat set ((s.crew c).sr (w.extractLsb' 5 5).toNat % 2 ^ 32)
      (s.syncSlot op c w.toNat fun s x => s.crewSignal c (tiSignal x w.toNat set)) := by
  have hzero : bits w.toNat 4 0 = 0 := bits_eq_zero hrsv
  have hfield : syncBadField op w.toNat = false := by rcases hop with rfl | rfl <;> simp [syncBadField, hzero]
  have hdst : syncDst op w.toNat = [] := by rcases hop with rfl | rfl <;> rfl
  have hsync : SoundSync s c op w.toNat := ⟨hactive, hopcode, hfield, by rw [hdst]; rfl⟩
  obtain ⟨htarget, hvalue⟩ := tiSignal_lt (s.crew c) w.toNat set
  rw [hsync.performs, ← bits_toNat w 25 10, ← bits_toNat w 9 5]
  exact State.crewSignal_signalled h htarget hvalue

/-- TADDX and TSETX of a local tally: the tally in a register. -/
theorem txSignal_signalled {w : Slot32} {set : Bool} (h : plainSignal (s.crew c)) (hactive : (s.crew c).active = true)
    (hopcode : bits w.toNat 31 26 = op) (hop : op = 8 ∨ op = 9) (hrsv : w.extractLsb' 0 16 = 0)
    (hlocal : ((s.crew c).sr (w.extractLsb' 21 5).toNat).testBit 34 = false) :
    s.Signalled c ((s.crew c).sr (w.extractLsb' 21 5).toNat % 2 ^ 16) set ((s.crew c).sr (w.extractLsb' 16 5).toNat % 2 ^ 32)
      (s.syncSlot op c w.toNat fun s x => s.crewSignal c (txSignal x w.toNat set)) := by
  have hzero : bits w.toNat 15 0 = 0 := bits_eq_zero hrsv
  have hfield : syncBadField op w.toNat = false := by rcases hop with rfl | rfl <;> simp [syncBadField, hzero]
  have hdst : syncDst op w.toNat = [] := by rcases hop with rfl | rfl <;> rfl
  have hsync : SoundSync s c op w.toNat := ⟨hactive, hopcode, hfield, by rw [hdst]; rfl⟩
  have hsignal := txSignal_local (w := w.toNat) (by rwa [bits_toNat]) set
  have htarget : (s.crew c).sr (bits w.toNat 25 21) % 2 ^ 16 < 2 ^ 16 := Nat.mod_lt _ (Nat.two_pow_pos _)
  have hvalue : (s.crew c).sr (bits w.toNat 20 16) % 2 ^ 32 < 2 ^ 32 := Nat.mod_lt _ (Nat.two_pow_pos _)
  rw [hsync.performs, hsignal, ← bits_toNat w 25 21, ← bits_toNat w 20 16]
  exact State.crewSignal_signalled (r := ⟨_, set, _⟩) h htarget hvalue

/-- Settles O19. Each signal slot makes its signal (`tiSignal_signalled`, `txSignal_signalled`). -/
theorem signalsChangeTally : Obligations.SignalsChangeTally := by
  simp only [Obligations.SignalsChangeTally, List.forall_mem_cons]
  refine ⟨?tadd, ?tset, ?taddx, ?tsetx, fun _ h => absurd h List.not_mem_nil⟩
  case tadd | tset =>
    intro c w s n v hactive hop hplain hargs
    obtain ⟨hrsv, rfl, rfl⟩ := hargs
    obtain ⟨honly, hcounters, htally, hregs⟩ :=
      tiSignal_signalled hplain hactive (bits_eq_opcode (hi := 31) (by decide) hop) (by decide) hrsv
    exact ⟨_, rfl, honly, hcounters, htally, hregs⟩
  case taddx | tsetx =>
    intro c w s n v hactive hop hplain hargs
    obtain ⟨hrsv, hlocal, rfl, rfl⟩ := hargs
    obtain ⟨honly, hcounters, htally, hregs⟩ :=
      txSignal_signalled hplain hactive (bits_eq_opcode (hi := 31) (by decide) hop) (by decide) hrsv hlocal
    exact ⟨_, rfl, honly, hcounters, htally, hregs⟩

end Sys2Proof.Machine
end

section
/-!
Reads of tallies, waits and END (07 R197, R199-R204; 08 R227, R231): the obligation.
-/
namespace Sys2Proof.Machine

variable {s t u : State} {c : CrewRef} {op n v w : Nat}

/-! ## Memory that reports of an outcome leave (15 R411-R417, R423, R429) -/

theorem foldl_mem {α : Type} {f : State → α → State} (hf : ∀ (s : State) (a : α), (f s a).mem = s.mem) (l : List α) (s : State) :
    (l.foldl f s).mem = s.mem := by
  induction l generalizing s with
  | nil => rfl
  | cons a l ih => exact (ih _).trans (hf s a)

theorem ite_mem {p : Prop} [Decidable p] (ht : t.mem = s.mem) (hu : u.mem = s.mem) : (if p then t else u).mem = s.mem := by
  split
  · exact ht
  · exact hu

theorem State.bump_mem (s : State) (off : Nat) : (s.bump off).mem = s.mem := rfl

theorem State.report_mem (s : State) (id : StepId) (it : Item) : (s.report id it).mem = s.mem := by
  have hput (k : StepId) (g : StepRec → StepRec) (b : Bool) : ((s.modStep k g).bumpIf b Reg.plgItemDropCnt).mem = s.mem :=
    (State.bumpIf_sluiceOnly _ _ _).mem
  unfold State.report
  extract_lets put
  split
  · rfl
  split
  · split
    · exact hput _ _ _
    · split
      · exact hput _ _ _
      · rfl
  · split
    · exact hput _ _ _
    · rfl

theorem State.raiseIf_mem (s : State) (b : Bool) (e : Nat) : (s.raiseIf b e).mem = s.mem := (s.raiseIf_keepsShafts b e).mem

theorem State.sendVerdict_mem (s : State) (t : Ticket) (good : Bool) (cause : Nat) :
    (s.sendVerdict t good cause).mem = s.mem := by
  have heach : (t.dests.foldl (fun s d => s.send (s.verdictPacket d false t.id good cause)) s).mem = s.mem :=
    foldl_mem (f := fun s d => s.send (s.verdictPacket d false t.id good cause)) (fun _ _ => rfl) _ _
  exact ite_mem (ite_mem rfl heach) heach

theorem State.dropTicket_mem (s : State) (x : Ticket) (good : Bool) (cause : Nat) : (s.dropTicket x good cause).mem = s.mem := by
  unfold State.dropTicket
  extract_lets s1 s2 s3 s4
  have h2 : s2.mem = s.mem := ite_mem rfl rfl
  have h4 : s4.mem = s.mem := (s2.sendVerdict_mem _ _ _).trans h2
  exact ite_mem h4 h2

theorem State.poisonStep_mem (s : State) (num cause ticket origin : Nat) : (s.poisonStep num cause ticket origin).mem = s.mem := by
  unfold State.poisonStep
  extract_lets id s1 s2 hit low s3 s4 s5 s6 dead
  have h2 : s2.mem = s.mem := ite_mem (t := s.send _) rfl rfl
  have h3 : s3.mem = s.mem := (s2.report_mem _ _).trans h2
  have h4 : s4.mem = s.mem := ite_mem (t := s3.setReg64 _ _ _) h3 h3
  have h6 : s6.mem = s.mem := (s5.raiseIf_mem _ _).trans h4
  exact ite_mem rfl ((foldl_mem (fun _ _ => State.dropTicket_mem _ _ _ _) _ _).trans h6)

theorem State.canaryFail_mem (s : State) (n cause entry : Nat) : (s.canaryFail n cause entry).mem = s.mem := by
  unfold State.canaryFail
  extract_lets s1 f sus nums lo hi s2 open_ s3 s4 s5
  have h1 : s1.mem = s.mem := ite_mem (t := s) rfl rfl
  have h3 : s3.mem = s.mem := ite_mem ((s2.poisonStep_mem _ _ _ _).trans h1) h1
  have h5 : s5.mem = s.mem := (s4.bump_mem _).trans ((s3.report_mem _ _).trans h3)
  exact (s5.raiseIf_mem _ _).trans h5

theorem State.failCanary_mem (s : State) (c : CrewRef) (cause : Nat) : (s.failCanary c cause).mem = s.mem := by
  unfold State.failCanary
  split
  · rfl
  refine ite_mem rfl ?_
  dsimp only
  split
  · exact State.canaryFail_mem _ _ _ _
  · rfl

/-! ## Tables whose entries are judged -/

/-- A read of a table whose entries a function has changed that leaves the default. -/
theorem Store.get_map {α : Type} {d : α} {f : α → α} (hf : f d = d) (m : Store α) (k : Nat) :
    Store.get d (m.map fun e => (e.1, f e.2)) k = f (Store.get d m k) := by
  induction m with
  | nil => exact hf.symm
  | cons e m ih =>
    by_cases h : k = e.1
    · simp [Store.get, h]
    · simpa [Store.get, h] using ih

theorem State.judgeWaits_crew (s : State) (c : CrewRef) : s.judgeWaits.crew c = s.judgeCrew (s.crew c) :=
  Store.get_map rfl s.crews (crewKey c)

theorem State.judgeCrew_waiting {x : Crew} {wt : CrewWait} (h : x.wait = some wt) : s.judgeCrew x = { x with
    wait := some (wt.judge (s.tally wt.tally) s.cycle (s.flagWas Reg.crwCtrl Fld.crwCtrlSkipSeal)) } := by
  simp only [State.judgeCrew, h]

/-- The first command of a shaft that waits on a tally. -/
theorem State.judgeShaft_waiting {h : Shaft} {x : Command} {l : List Command} {tl th : Nat} (hdecoded : h.decoded = x :: l)
    (hwait : x.waitOn = some (tl, th)) :
    s.judgeShaft h = { h with decoded := { x with met := x.met || decide (th ≤ s.tally tl) } :: l } := by
  simp only [State.judgeShaft, hdecoded, hwait]
  split
  · next hmet => simp [hmet]
  · next hmet => simp [hmet, ← hdecoded]

theorem State.judgeWaits_shaft (s : State) (n : Nat) :
    Store.get Shaft.idle s.judgeWaits.shafts n = s.judgeShaft (Store.get Shaft.idle s.shafts n) :=
  Store.get_map rfl s.shafts n

/-- A wait that is still open is satisfied by a sufficient count, and times out in its deadline cycle otherwise (R227, R231). -/
theorem CrewWait.judge_open {x : CrewWait} (hsat : x.sat = none) (hlate : x.late = none) (count now : Nat) (blocks : Bool) :
    x.judge count now blocks =
      if x.thresh ≤ count then { x with sat := some count }
      else if x.timeout ≠ 0 ∧ (if x.frames then x.left = 0 else x.since + x.timeout ≤ now) then { x with late := some (count, blocks) }
      else x := by
  cases hframes : x.frames <;> simp [CrewWait.judge, CrewWait.due, hsat, hlate, hframes]

theorem Crew.wS_get_self (x : Crew) (d v : Nat) : Store.get 0 (x.wS d v).regs.s d = BitVec.ofNat 64 v := Store.get_set_self _ _ _ _

/-! ## The start and the end of a wait (07 R199, R200) -/

/-- The wait that a TWAIT begins. -/
def Crew.openWait (x : Crew) (w now : Nat) : CrewWait :=
  { tally := bits w 25 10, thresh := x.sr (bits w 9 5) % 2 ^ 32, dst := bits w 4 0, timeout := bits (x.sr (bits w 9 5)) 62 32,
    frames := (x.sr (bits w 9 5)).testBit 63, since := now, age := 0, left := bits (x.sr (bits w 9 5)) 62 32, declared := none,
    foff := x.curFoff, sat := none, late := none }

theorem State.beginWait_crew (s : State) (c : CrewRef) (w : Nat) : (s.beginWait c (s.crew c) w).crew c =
    { s.crew c with wait := some ((s.crew c).openWait w s.cycle), phase := .waiting } := by
  rw [State.beginWait, State.setPhase_crew, State.setCrew_crew]
  rfl

/-- What has changed crews and registers alone. -/
theorem eq_of_crewsAndRegs (h : ∃ x r, t = { s with crews := x, regs := r }) : t = { s with crews := t.crews, regs := t.regs } := by
  obtain ⟨x, r, rfl⟩ := h
  rfl

theorem State.beginWait_eq (s : State) (c : CrewRef) (x : Crew) (w : Nat) :
    s.beginWait c x w = { s with crews := (s.beginWait c x w).crews, regs := (s.beginWait c x w).regs } := by
  refine eq_of_crewsAndRegs ?_
  obtain ⟨y, r, h⟩ := State.setPhase_crewsAndRegs (s.setCrew c { s.crew c with wait := some (x.openWait w s.cycle) }) c .waiting
  exact ⟨y, r, h⟩

theorem State.beginWait_regsBut (s : State) (c : CrewRef) (x : Crew) (w : Nat) :
    regsBut [Reg.crwState c.stope] s (s.beginWait c x w) :=
  fun _ hoff => State.setReg_reg_ne _ _ (List.ne_of_not_mem_cons hoff)

theorem State.endWait_crew (s : State) (c : CrewRef) (d v : Nat) :
    (s.endWait c d v).crew c = { (s.crew c).wS d v with wait := none, phase := .running } := by
  rw [State.endWait, State.setPhase_crew, State.modCrew_crew]

theorem State.endWait_eq (s : State) (c : CrewRef) (d v : Nat) :
    s.endWait c d v = { s with crews := (s.endWait c d v).crews, regs := (s.endWait c d v).regs } := by
  refine eq_of_crewsAndRegs ?_
  obtain ⟨y, r, h⟩ := State.setPhase_crewsAndRegs (s.modCrew c fun x => { x.wS d v with wait := none }) c .running
  exact ⟨y, r, h⟩

theorem State.endWait_reg (s : State) (c : CrewRef) (d v : Nat) {off : Nat} (h : off ≠ Reg.crwState c.stope) :
    (s.endWait c d v).reg off = s.reg off :=
  State.setReg_reg_ne _ _ h

/-- The state when the wait of a crew has timed out (07 R203, 08 R231). -/
def State.timedOut (s : State) (c : CrewRef) (i : Instance) (wt : CrewWait) (blocks : Bool) : State :=
  let s := s.bump Reg.tlyTimeoutCnt
  if i.ballast then s.failCanary c 4
  else s.report i.step ⟨4, blocks, false, c.stope, packFields [(2, wt.tally), (2, c.stope), (1, c.crew), (4, wt.foff)]⟩

theorem State.timedOut_instanceOnly (s : State) (c : CrewRef) (i : Instance) (wt : CrewWait) (blocks : Bool) :
    (s.bump Reg.tlyTimeoutCnt).InstanceOnly c (s.timedOut c i wt blocks) :=
  .ite ((State.InstanceOnly.refl _).failCanary 4) (((State.KeepsCrews.refl _).report _ _).instanceOnly)

theorem State.timedOut_mem (s : State) (c : CrewRef) (i : Instance) (wt : CrewWait) (blocks : Bool) :
    (s.timedOut c i wt blocks).mem = s.mem :=
  ite_mem (State.failCanary_mem _ _ _) (State.report_mem _ _ _)

theorem execTwaitTimeout_late {wt : CrewWait} {i : Instance} {blocks : Bool} (hphase : (s.crew c).phase = .waiting)
    (hwait : (s.crew c).wait = some wt) (hi : (s.crew c).inst = some i) (hlate : wt.late = some (n, blocks)) :
    exec (.twaitTimeout c) s = .next ((s.timedOut c i wt blocks).endWait c wt.dst (n + 2 ^ 63)) := by
  change execTwaitTimeout c s = _
  simp only [execTwaitTimeout, hphase, hwait, hi, hlate]
  rfl

theorem execTwaitSatisfied_crew {wt : CrewWait} (hphase : (s.crew c).phase = .waiting) (hwait : (s.crew c).wait = some wt)
    (hsat : wt.sat = some n) : exec (.twaitSatisfied (.crew c)) s = .next (s.endWait c wt.dst n) := by
  change execTwaitSatisfied (.crew c) s = _
  simp only [execTwaitSatisfied, hphase, hwait, hsat]

/-! ## The obligation -/

theorem bits_eq_div_mod (w hi lo : Nat) : bits w hi lo = w / 2 ^ lo % 2 ^ (hi + 1 - lo) := by
  rw [bits, Nat.shiftRight_eq_div_pow]

/-- Settles O20. A slot that no cause skips acts (`SoundSync.performs`); a wait is judged by `CrewWait.judge_open`, and its crew
resumes by `State.endWait`. -/
theorem waitsBeginAndEnd : Obligations.WaitsBeginAndEnd := by
  refine ⟨?tread, ?twait, ?judgeCrew, ?judgeShaft, ?endOp, ?satisfied, ?resumed, ?timeout⟩
  case tread =>
    intro c w s hactive hop hrsv hdual
    have hsync : SoundSync s c 4 w.toNat :=
      ⟨hactive, bits_eq_opcode (hi := 31) (by decide) hop, decide_eq_false (not_not_intro (bits_eq_zero hrsv)),
       Crew.not_dual hdual⟩
    refine ⟨_, congrArg Host.Outcome.next (hsync.performs _), onlyCrew_setCrew _ _ _, ?_⟩
    rw [State.modCrew_crew, bits_toNat w 4 0, bits_toNat w 25 10]
    exact Crew.wS_wroteS _ _ rfl
  case twait =>
    intro c w s v hc hactive hop hdual hv
    subst hv
    have hsync : SoundSync s c 3 w.toNat :=
      ⟨hactive, bits_eq_opcode (hi := 31) (by decide) hop, rfl, Crew.not_dual hdual⟩
    refine ⟨s.beginWait c (s.crew c) w.toNat, (s.crew c).openWait w.toNat s.cycle, congrArg Host.Outcome.next (hsync.performs _),
      s.beginWait_eq c _ _, s.beginWait_regsBut c _ _, ?_⟩
    rw [State.beginWait_crew, ← bits_toNat w 25 10, ← bits_toNat w 9 5, ← bits_toNat w 4 0, ← bits_eq_div_mod _ 62 32]
    exact ⟨rfl, rfl, rfl, rfl, rfl, rfl, rfl, rfl, rfl, rfl, rfl, rfl⟩
  case judgeCrew =>
    intro c s wt hwait hsat hlate
    rw [State.judgeWaits_crew, State.judgeCrew_waiting hwait, CrewWait.judge_open hsat hlate]
  case judgeShaft =>
    intro n s h c l tl th hh hdecoded hwait
    rw [State.judgeWaits_shaft, hh, State.judgeShaft_waiting hdecoded hwait]
  case endOp =>
    intro c w s i hactive hop hrsv hi
    have hsync : SoundSync s c 0x10 w.toNat :=
      ⟨hactive, bits_eq_opcode (hi := 31) (by decide) hop, decide_eq_false (not_not_intro (bits_eq_zero hrsv)), rfl⟩
    refine ⟨_, congrArg Host.Outcome.next (hsync.performs _), onlyCrew_setCrew _ _ _, ?_⟩
    rw [State.modInst_crew, hi]
    rfl
  case satisfied =>
    intro c s wt n hphase hwait hsat
    refine ⟨s.endWait c wt.dst n, execTwaitSatisfied_crew hphase hwait hsat, s.endWait_eq c _ _, ?_⟩
    rw [State.endWait_crew]
    exact ⟨rfl, rfl, Crew.wS_get_self _ _ _, fun r hr => Crew.wS_get_ne _ _ _ _ hr⟩
  case resumed =>
    intro n s h c l hh hdecoded hmet
    refine ⟨_, rfl, rfl, (State.modShaft_shaft s n Shaft.resumed).trans ?_⟩
    rw [State.shaft, hh, Shaft.resumed, hdecoded]
    exact if_pos hmet
  case timeout =>
    intro c s wt i n blocks hc hphase hwait hi hlate
    have honly := s.timedOut_instanceOnly c i wt blocks
    refine ⟨_, execTwaitTimeout_late hphase hwait hi hlate, s.timedOut_mem c i wt blocks, ?_⟩
    rw [State.endWait_crew, State.endWait_reg _ _ _ _ (by unfold Reg.tlyTimeoutCnt Reg.crwState; omega),
      honly.reg _ (by decide), State.bump_reg]
    exact ⟨rfl, rfl, Crew.wS_get_self _ _ _, rfl⟩

end Sys2Proof.Machine
end

section
/-!
Tile handles (07 R187, R188): MFREE, MWAIT and a pending handle, and the obligation.
-/
namespace Sys2Proof.Machine

variable {s t u : State} {c : CrewRef} {id : Nat} {w : Slot48}

/-- Each tile start issues as `State.tileSlot` says, and is neither MFREE nor MWAIT (Table 7.8). -/
theorem tileStartRows_exec : ∀ row ∈ tileStartRows, row.1 ≠ 0x20 ∧ row.1 ≠ 0x21 ∧
    ∀ c w s, exec (row.2 c w) s = .next (s.tileSlot row.1 c w.toNat) := by
  simp only [tileStartRows, List.forall_mem_cons]
  refine ⟨?zc, ?zl, ?zr, ?ic, ?il, ?ir, ?hc, ?hl, ?hr, fun _ h => absurd h List.not_mem_nil⟩
  all_goals exact ⟨by decide, by decide, fun _ _ _ => rfl⟩

/-! ## The drill of a stope -/

theorem State.setDrill_drill (s : State) (n : Nat) (d : Drill) : (s.setDrill n d).drill n = d := Store.get_set_self _ _ _ _

theorem State.setDrill_drillsOnly (s : State) (n : Nat) (d : Drill) : s.DrillsOnly (s.setDrill n d) := ⟨_, _, rfl⟩

theorem State.setDrill_crew (s : State) (n : Nat) (d : Drill) (c : CrewRef) : (s.setDrill n d).crew c = s.crew c :=
  State.crew_of_crews (s.setDrill_drillsOnly n d).crews c

theorem State.setDrill_reg (s : State) (n : Nat) (d : Drill) {off : Nat} (h : off ≠ Reg.drlStat n) :
    (s.setDrill n d).reg off = s.reg off :=
  State.setReg_reg_ne { s with drills := Store.set Drill.idle s.drills n d } _ h

theorem State.freeCtx_ctxs (s : State) (n id : Nat) :
    ((s.freeCtx n id).drill n).ctxs = (s.drill n).ctxs.filter (·.id ≠ id) := by
  rw [State.freeCtx, State.setDrill_drill]

/-! ## Handles -/

theorem Crew.setHandle_handle (x : Crew) (i j : Nat) (h : Handle) :
    (x.setHandle i h).handle j = if j = i then h else x.handle j := Store.get_set _ _ _ _ _

/-- A matrix slot of the current bundle has set its handle (06 R147). -/
def State.withHandle (s : State) (c : CrewRef) (lh : Nat) (h : Handle) : State :=
  s.modCrew c fun x => { x.setHandle lh h with written := .l lh :: x.written }

theorem State.withHandle_handle (s : State) (c : CrewRef) (lh j : Nat) (h : Handle) :
    ((s.withHandle c lh h).crew c).handle j = if j = lh then h else (s.crew c).handle j := by
  rw [State.withHandle, State.modCrew_crew]
  exact Crew.setHandle_handle _ _ _ _

theorem State.withHandle_regs (s : State) (c : CrewRef) (lh : Nat) (h : Handle) :
    ((s.withHandle c lh h).crew c).regs = (s.crew c).regs := by
  rw [State.withHandle, State.modCrew_crew]
  rfl

theorem State.withHandle_drill (s : State) (c : CrewRef) (lh : Nat) (h : Handle) (n : Nat) :
    (s.withHandle c lh h).drill n = s.drill n := rfl

theorem State.withHandle_mem (s : State) (c : CrewRef) (lh : Nat) (h : Handle) : (s.withHandle c lh h).mem = s.mem := rfl

theorem State.withHandle_reg (s : State) (c : CrewRef) (lh : Nat) (h : Handle) (off : Nat) :
    (s.withHandle c lh h).reg off = s.reg off := rfl

theorem State.DrillsOnly.withHandle_eq (h : s.DrillsOnly t) (c : CrewRef) (lh : Nat) (x : Handle) : t.withHandle c lh x =
    { s with crews := (t.withHandle c lh x).crews, drills := (t.withHandle c lh x).drills, regs := (t.withHandle c lh x).regs } := by
  obtain ⟨d, r, rfl⟩ := h
  rfl

theorem matBadField_zero (h : bits w.toNat 36 0 = 0) : matBadField 0x20 w.toNat = false ∧ matBadField 0x21 w.toNat = false := by
  simp [matBadField, h]

theorem exec_mfree (hactive : (s.crew c).active = true) (hop : (MatSlot.ofNat w.toNat).op = 0x20) (hrsv : bits w.toNat 36 0 = 0) :
    exec (.mfree c w) s = .next (match (s.crew c).handle (MatSlot.ofNat w.toNat).lh with
      | .retained id => (s.freeCtx c.stope id).withHandle c (MatSlot.ofNat w.toNat).lh .invalid
      | _ => s) := by
  change execMfree c w s = _
  simp only [execMfree, hactive, hop, (matBadField_zero hrsv).1]
  cases (s.crew c).handle (MatSlot.ofNat w.toNat).lh <;> rfl

theorem exec_mwait (hactive : (s.crew c).active = true) (hop : (MatSlot.ofNat w.toNat).op = 0x21) (hrsv : bits w.toNat 36 0 = 0) :
    exec (.mwait c w) s = .next s := by
  change execMwait c w s = _
  simp only [execMwait, hactive, hop, (matBadField_zero hrsv).2]
  cases (s.crew c).handle (MatSlot.ofNat w.toNat).lh <;> rfl

theorem State.tileSlot_pending {op : Nat} (hop : (MatSlot.ofNat w.toNat).op = op)
    (h : (s.crew c).handle (MatSlot.ofNat w.toNat).lh = .pending id) : s.tileSlot op c w.toNat = s := by
  simp [State.tileSlot, hop, h]

/-- Settles O22. What each slot comes to is said by `exec_mfree`, `exec_mwait` and `State.tileSlot_pending`. -/
theorem handlesFreeAndWait : Obligations.HandlesFreeAndWait := by
  refine ⟨?free, ?invalid, ?wait, ?pending⟩
  case free =>
    intro c w s m id hm hactive hop hrsv hretained
    subst hm
    have hexec := exec_mfree hactive hop hrsv
    rw [hretained] at hexec
    refine ⟨_, hexec, (s.setDrill_drillsOnly _ _).withHandle_eq c _ _, fun off hoff => ?_, ?_, ?_, ?_⟩
    · rw [State.withHandle_reg]
      exact s.setDrill_reg _ _ (List.ne_of_not_mem_cons hoff)
    · rw [State.withHandle_drill, State.freeCtx_ctxs]
    · rw [State.withHandle_handle, if_pos rfl]
    · rw [State.withHandle_regs, State.freeCtx, State.setDrill_crew]
  case invalid =>
    intro c w s m hm hactive hop hrsv hinvalid
    subst hm
    rw [exec_mfree hactive hop hrsv, hinvalid]
  case wait =>
    intro c w s m hm hactive hop hrsv _
    subst hm
    exact exec_mwait hactive hop hrsv
  case pending =>
    intro row hrow c w s m id hm hop hpending
    subst hm
    obtain ⟨-, -, hexec⟩ := tileStartRows_exec row hrow
    rw [hexec, State.tileSlot_pending hop hpending]

end Sys2Proof.Machine
end

section
/-!
Tile starts (07 R185-R187; 03 R75, R76; 04 R106): what their reads leave as it stood, and the obligation.
-/
namespace Sys2Proof.Machine

variable {s t u : State} {c : CrewRef}

/-! ## Reads leave crews and drills (09 R255, R265; 10 R282) -/

theorem State.freeWords_keepsCrews (l : Store Nat) (s : State) (pa n v : Nat) : s.KeepsCrews (s.freeWords pa n v l).1 := by
  induction l generalizing s v with
  | nil => exact .refl s
  | cons e l ih =>
    unfold State.freeWords
    dsimp only
    split
    · exact (State.KeepsCrews.refl s).elsewhere.trans (ih _ _)
    · exact ih _ _

theorem State.readMem_keepsCrews (s : State) (pa n : Nat) : s.KeepsCrews (s.readMem pa n).1 := by
  unfold State.readMem
  split
  · exact ((s.noteMarks_keepsCrews pa n).bumpIf _ (by decide)).trans (State.freeWords_keepsCrews _ _ _ _ _)
  · exact .refl s

theorem State.latchTop_keepsCrews (s : State) (h : Store HbmCtl) (k v : Nat) :
    s.KeepsCrews ({ s with hbms := h }.setReg (Reg.hbmUeAddrTop k) v) :=
  (State.KeepsCrews.refl s).elsewhere.setReg _ (by unfold Reg.hbmUeAddrTop; omega)

theorem State.readReg_keepsCrews (s : State) (off : Nat) : s.KeepsCrews (s.readReg off).1 := by
  have hrefl := State.KeepsCrews.refl s
  unfold State.readReg
  split
  · exact hrefl
  split
  · exact hrefl.bump (by decide)
  dsimp only
  split
  · exact s.latchTop_keepsCrews _ _ _
  · unfold State.unlatchTop
    split
    · exact s.latchTop_keepsCrews _ _ _
    · exact hrefl

theorem State.ctlRead_keepsCrews (s : State) (off n : Nat) : s.KeepsCrews (s.ctlRead off n).1 := by
  unfold State.ctlRead
  split
  · exact .refl s
  split
  · exact .refl s
  split
  · exact s.readReg_keepsCrews off
  split
  · exact (s.readReg_keepsCrews off).trans (State.readReg_keepsCrews _ _)
  · exact (State.KeepsCrews.refl s).bump (by decide)

/-- The state that a read answers beside its value: the kernel is not to evaluate the read (see `State.KeepsShafts.fst`). -/
theorem State.KeepsCrews.fst {β : Type} (b : β) (h : s.KeepsCrews t) : s.KeepsCrews (t, b).1 := h

theorem State.readRuns_keepsCrews (l : List (Nat × Nat)) (s : State) : s.KeepsCrews (s.readRuns l).1 := by
  induction l generalizing s with
  | nil => exact .refl s
  | cons r l ih =>
    unfold State.readRuns
    dsimp only
    refine State.KeepsCrews.trans ?_ (ih _)
    refine State.KeepsCrews.trans ?_ (State.touch_keepsCrews _ _)
    split
    · exact .fst _ (s.ctlRead_keepsCrews _ _)
    · exact s.readMem_keepsCrews _ _

theorem State.devRead_keepsCrews (s : State) (k : Option Nat) (va n : Nat) : s.KeepsCrews (s.devRead k va n).1 := by
  have hr := s.devRuns_keepsCrews k va n false
  unfold State.devRead
  split
  · next e => rwa [e] at hr
  · next e =>
    rw [e] at hr
    exact hr.trans (State.readRuns_keepsCrews _ _)

/-! ## The descriptors, records and images of a tile -/

/-- From `s` to `t` crews, drills and memory have not changed. -/
structure State.KeepsTiles (s t : State) : Prop where
  crews : t.crews = s.crews
  drills : t.drills = s.drills
  mem : t.mem = s.mem

theorem State.KeepsTiles.refl (s : State) : s.KeepsTiles s := ⟨rfl, rfl, rfl⟩

theorem State.KeepsTiles.trans (h : s.KeepsTiles t) (g : t.KeepsTiles u) : s.KeepsTiles u :=
  ⟨g.crews.trans h.crews, g.drills.trans h.drills, g.mem.trans h.mem⟩

theorem State.KeepsTiles.fst {β : Type} (b : β) (h : s.KeepsTiles t) : s.KeepsTiles (t, b).1 := h

theorem State.bumpN_keepsTiles (s : State) (off k : Nat) : s.KeepsTiles (s.bumpN off k) := ⟨rfl, rfl, rfl⟩

theorem State.devRead_keepsTiles (s : State) (k : Option Nat) (va n : Nat) : s.KeepsTiles (s.devRead k va n).1 :=
  ⟨(s.devRead_keepsCrews k va n).crews, (s.devRead_keepsCrews k va n).drills, (s.devRead_keepsShafts k va n).mem⟩

theorem State.descIn_keepsTiles (s : State) (n : Nat) (x : Crew) (i : Nat) : s.KeepsTiles (s.descIn n x i).1 := by
  have hr := s.devRead_keepsTiles (some n) (x.sr i) 64
  unfold State.descIn State.readDesc
  split <;> next e => rwa [e] at hr

theorem State.tileDescs_keepsTiles (s : State) (n : Nat) (x : Crew) (sa : Nat) : s.KeepsTiles (s.tileDescs n x sa).1 := by
  have hreads : s.KeepsTiles (((s.descIn n x sa).1.descIn n x (sa + 1)).1.descIn n x (sa + 2)).1 :=
    ((s.descIn_keepsTiles n x sa).trans (State.descIn_keepsTiles _ _ _ _)).trans (State.descIn_keepsTiles _ _ _ _)
  unfold State.tileDescs
  dsimp only
  split <;> exact .fst _ hreads

theorem State.assayExpOf_keepsTiles (s : State) (k : Option Nat) (d : TensorDesc) : s.KeepsTiles (s.assayExpOf k d).1 := by
  have hr := s.devRead_keepsTiles k d.assay 16
  unfold State.assayExpOf
  split
  · exact .refl s
  split <;> next e => rwa [e] at hr

theorem State.tileAnchor_keepsTiles (s : State) (n : Nat) (l : Lcw) (a b : TensorDesc) :
    s.KeepsTiles (s.tileAnchor n l a b).1 := by
  have hreads := (s.assayExpOf_keepsTiles (some n) a).trans (State.assayExpOf_keepsTiles _ (some n) b)
  unfold State.tileAnchor
  split
  · exact .refl s
  split
  · exact .refl s
  dsimp only
  split
  · exact hreads
  · exact (hreads.trans (State.bumpN_keepsTiles _ _ 1)).trans (State.bumpN_keepsTiles _ _ _)

/-- A read that meets no marked word changes nothing (09 R255). -/
theorem State.readMem_state {pa n : Nat} (h : (s.readMem pa n).2.2 = false) : (s.readMem pa n).1 = s := by
  unfold State.readMem at h ⊢
  split at h
  · cases h
  · next hmarked => rw [if_neg hmarked]

/-- Reads one after the other, none of which meets a marked word, change nothing. -/
theorem foldl_unmarked {α β : Type} {f : State × β × Bool → α → State × β × Bool}
    (hf : ∀ x a, (f x a).2.2 = false → (f x a).1 = x.1 ∧ x.2.2 = false) (l : List α) (x : State × β × Bool)
    (h : (l.foldl f x).2.2 = false) : (l.foldl f x).1 = x.1 ∧ x.2.2 = false := by
  induction l generalizing x with
  | nil => exact ⟨rfl, h⟩
  | cons a l ih =>
    obtain ⟨hrest, hmark⟩ := ih (f x a) h
    obtain ⟨hstate, hbefore⟩ := hf x a hmark
    exact ⟨hrest.trans hstate, hbefore⟩

/-- Start images that meet no marked word are read without a change (07 R542). -/
theorem State.startImages_eq {n trow tcol kind : Nat} {m : MatSlot} {o : TensorDesc} {lodes : Store LodeAcc} {anchor : Int}
    (h : (s.startImages n m o trow tcol).2 = some (lodes, kind, anchor, false)) :
    s.startImages n m o trow tcol = (s, some (lodes, kind, anchor, false)) := by
  refine Prod.ext ?_ h
  generalize hx : s.startImages n m o trow tcol = x at h ⊢
  unfold State.startImages at hx
  dsimp only at hx
  split at hx
  · exact hx ▸ rfl
  split at hx
  · exact hx ▸ rfl
  split at hx
  · exact hx ▸ rfl
  subst hx
  simp only [Option.some.injEq, Prod.mk.injEq] at h
  obtain ⟨-, -, -, hmark⟩ := h
  refine (foldl_unmarked (fun x p hp => ?_) _ _ hmark).1
  obtain ⟨hbefore, hread⟩ := Bool.or_eq_false_iff.1 hp
  exact ⟨State.readMem_state hread, hbefore⟩

end Sys2Proof.Machine
end

section
/-!
Tile starts (07 R185-R187; 04 R106): how a start is judged and what it puts into the drill, and the obligation.
-/
namespace Sys2Proof.Machine

variable {s s1 t : State} {c : CrewRef} {w op : Nat} {i : Instance} {a b o : TensorDesc} {x old : TileCtx}

/-! ## How a start is judged -/

/-- The matrix slot `w` of an active crew holds a tile start of opcode `op` whose fields pass the checks of 07 R185. -/
structure SoundTile (s : State) (c : CrewRef) (i : Instance) (op w : Nat) : Prop where
  active : (s.crew c).active = true
  opcode : (MatSlot.ofNat w).op = op
  inst : (s.crew c).inst = some i
  starts : op ≠ 0x20 ∧ op ≠ 0x21
  rsv : w.testBit 0 = false
  ncb : (Ncb.ofNat (MatSlot.ofNat w).ncb).ok = true
  lcw : (Lcw.ofNat (MatSlot.ofNat w).lcw).ok = true
  shape : (MatSlot.ofNat w).shape < 5
  sa : (MatSlot.ofNat w).sa ≤ 28

/-- The row and the column of a tile as its slot's registers hold them (Table 7.7). -/
def Crew.tileRow (x : Crew) (m : MatSlot) : Nat := bits (x.sr (m.sa + 3)) 31 0
def Crew.tileCol (x : Crew) (m : MatSlot) : Nat := bits (x.sr (m.sa + 3)) 63 32

/-- The context that the handle of a matrix slot retains. -/
def State.retainedBy (s : State) (n : Nat) : Handle → Option TileCtx
  | .retained id => (s.drill n).ctxs.find? (·.id = id)
  | _ => none

theorem SoundTile.judged (h : SoundTile s c i op w)
    (hdescs : s.tileDescs c.stope (s.crew c) (MatSlot.ofNat w).sa = (s1, some (a, b, o, false)))
    (htile : tileOk (MatSlot.ofNat w) a b o ((s.crew c).tileRow (MatSlot.ofNat w)) ((s.crew c).tileCol (MatSlot.ofNat w)) = true) :
    s.judgeTile c i (s.crew c) (MatSlot.ofNat w) w = s1.judgeStart c i (s.crew c) (MatSlot.ofNat w) a b o false
      (s1.retainedBy c.stope ((s.crew c).handle (MatSlot.ofNat w).lh)) := by
  have hfields : firstCause [(matBadField (MatSlot.ofNat w).op w, 2), (!(Ncb.ofNat (MatSlot.ofNat w).ncb).ok, 3),
      (!(Lcw.ofNat (MatSlot.ofNat w).lcw).ok, 4), (decide (5 ≤ (MatSlot.ofNat w).shape), 5)] = none := by
    simp [firstCause, matBadField, h.opcode, h.starts, h.rsv, h.ncb, h.lcw, h.shape]
  unfold Crew.tileRow Crew.tileCol at htile
  simp only [State.judgeTile, hfields, if_neg (Nat.not_lt.2 h.sa), hdescs, htile]
  rfl

/-- The context of a slot whose start has been judged: its id and units are those of the context that it continues. -/
def judgedCtx (c : CrewRef) (i : Instance) (m : MatSlot) (cr : Crew) (a b o : TensorDesc) (id units kind : Nat) (anchor : Int)
    (lodes : Store LodeAcc) : TileCtx :=
  { newCtx c i m cr a b o id with kind, anchor, lodes, units }

section JudgeStart
variable {m : MatSlot} {cr : Crew}

/-- A start from zero lodes takes the kind and anchor of 03 R75 and R76. -/
theorem State.judgeStart_zero {kind : Nat} {anchor : Int} (hstart : m.start = 0)
    (hanchor : (s.tileAnchor c.stope (Lcw.ofNat m.lcw) a b).2 = (kind, anchor))
    (hfit : s.imagesFit m a b o (cr.tileRow m) (cr.tileCol m) kind = true) :
    s.judgeStart c i cr m a b o false none = ((s.tileAnchor c.stope (Lcw.ofNat m.lcw) a b).1,
      .fresh (judgedCtx c i m cr a b o 0 0 kind anchor []) false) := by
  unfold Crew.tileRow Crew.tileCol at hfit
  simp [State.judgeStart, hstart, hanchor, judgedCtx, newCtx, hfit]

/-- A start from images takes the kind and anchor of its images, and their lodes. -/
theorem State.judgeStart_images {kind : Nat} {anchor : Int} {lodes : Store LodeAcc} (hstart : m.start = 1)
    (himages : (s.startImages c.stope m o (cr.tileRow m) (cr.tileCol m)).2 = some (lodes, kind, anchor, false))
    (hfit : s.imagesFit m a b o (cr.tileRow m) (cr.tileCol m) kind = true) :
    s.judgeStart c i cr m a b o false none =
      (s, .fresh (judgedCtx c i m cr a b o 0 0 kind (if kind = 2 then 0 else anchor) lodes) false) := by
  have heq := State.startImages_eq himages
  unfold Crew.tileRow Crew.tileCol at heq hfit
  simp [State.judgeStart, hstart, judgedCtx, newCtx, heq, hfit]

/-- A start from a retained context keeps its lodes, kind, anchor and units. -/
theorem State.judgeStart_retained (hstart : m.start = 2)
    (hsame : old.shape = m.shape ∧ old.fmt = m.fmt ∧ old.mx = m.mx)
    (hfit : s.imagesFit m a b o (cr.tileRow m) (cr.tileCol m) old.kind = true) :
    s.judgeStart c i cr m a b o false (some old) =
      (s, .retained (judgedCtx c i m cr a b o old.id old.units old.kind old.anchor old.lodes) false) := by
  obtain ⟨hshape, hfmt, hmx⟩ := hsame
  unfold Crew.tileRow Crew.tileCol at hfit
  simp [State.judgeStart, hstart, judgedCtx, newCtx, hfit, hshape, hfmt, hmx]

end JudgeStart

/-! ## What a start puts into the drill -/

/-- From `s` to `t` the slot's tile context `x` has entered the drill, and its handle is pending on it (07 R187). -/
structure State.TileStarted (s : State) (c : CrewRef) (lh : Nat) (x : TileCtx) (t : State) : Prop where
  last : (t.drill c.stope).ctxs.getLast? = some x
  handle : ∀ j, (t.crew c).handle j = if j = lh then .pending x.id else (s.crew c).handle j
  regs : (t.crew c).regs = (s.crew c).regs
  mem : t.mem = s.mem

theorem State.startTile_started (s : State) (c : CrewRef) (lh : Nat) (x : TileCtx) :
    s.TileStarted c lh x.restart (s.startTile c lh x) := by
  have hstart : s.startTile c lh x = (s.setDrill c.stope { s.drill c.stope with
      ctxs := (s.drill c.stope).ctxs.filter (·.id ≠ x.id) ++ [x.restart] }).withHandle c lh (.pending x.id) := rfl
  rw [hstart]
  refine ⟨?_, fun j => ?_, ?_, ?_⟩
  · rw [State.withHandle_drill, State.setDrill_drill]
    exact List.getLast?_concat
  · rw [State.withHandle_handle, State.setDrill_crew]
    rfl
  · rw [State.withHandle_regs, State.setDrill_crew]
  · rw [State.withHandle_mem]
    exact (s.setDrill_drillsOnly _ _).mem

/-- What leaves crews and memory before a start leaves what the start makes of them. -/
theorem State.TileStarted.of_keepsTiles {lh : Nat} (h : s1.TileStarted c lh x t) (hkeeps : s.KeepsTiles s1) :
    s.TileStarted c lh x t := by
  have hcrew : s1.crew c = s.crew c := State.crew_of_crews hkeeps.crews c
  exact ⟨h.last, fun j => hcrew ▸ h.handle j, hcrew ▸ h.regs, h.mem.trans hkeeps.mem⟩

/-- A context as it enters the drill: what its start has judged stands, with the id and the units given, at its first slab and
pass. -/
structure TileCtx.EntersAs (x y : TileCtx) (id units : Nat) : Prop where
  slot : y.crew = x.crew ∧ y.handle = x.handle ∧ y.start = x.start ∧ y.out = x.out ∧ y.shape = x.shape
  descs : y.a = x.a ∧ y.b = x.b ∧ y.o = x.o
  lodes : y.kind = x.kind ∧ y.anchor = x.anchor ∧ y.lodes = x.lodes
  first : y.phase = .ready ∧ y.slab = 0 ∧ y.pass = 0
  claims : y.id = id ∧ y.units = units

theorem State.admitTile_started (s : State) (c : CrewRef) (m : MatSlot) (x : TileCtx) (level : Nat) :
    ∃ y id, s.TileStarted c m.lh y (s.admitTile c m x level) ∧ x.EntersAs y id (tileUnits x.shape x.kind) :=
  ⟨_, _, (State.startTile_started s.newId.2 c m.lh _).of_keepsTiles ⟨rfl, rfl, rfl⟩,
   ⟨⟨rfl, rfl, rfl, rfl, rfl⟩, ⟨rfl, rfl, rfl⟩, ⟨rfl, rfl, rfl⟩, ⟨rfl, rfl, rfl⟩, ⟨rfl, rfl⟩⟩⟩

theorem State.continueTile_started (s : State) (c : CrewRef) (m : MatSlot) (x : TileCtx) (level : Nat) :
    ∃ y, s.TileStarted c m.lh y (s.continueTile c m x level) ∧ x.EntersAs y x.id x.units :=
  ⟨_, s.startTile_started c m.lh _,
   ⟨⟨rfl, rfl, rfl, rfl, rfl⟩, ⟨rfl, rfl, rfl⟩, ⟨rfl, rfl, rfl⟩, ⟨rfl, rfl, rfl⟩, ⟨rfl, rfl⟩⟩⟩

section TileSlot
variable {m : MatSlot} {kind : Nat} {anchor : Int} {lodes : Store LodeAcc} {id units : Nat}

theorem SoundTile.fresh (h : SoundTile s c i op w) (hfree : ∀ id, (s.crew c).handle (MatSlot.ofNat w).lh ≠ .pending id)
    (hjudged : s.judgeTile c i (s.crew c) (MatSlot.ofNat w) w =
      (t, .fresh (judgedCtx c i (MatSlot.ofNat w) (s.crew c) a b o 0 0 kind anchor lodes) false)) :
    s.tileSlot op c w = if (s.drill c.stope).room (tileUnits (MatSlot.ofNat w).shape kind)
      then t.admitTile c (MatSlot.ofNat w) (judgedCtx c i (MatSlot.ofNat w) (s.crew c) a b o 0 0 kind anchor lodes) i.level
      else s := by
  cases hhandle : (s.crew c).handle (MatSlot.ofNat w).lh with
  | pending id => exact absurd hhandle (hfree id)
  | invalid | retained id =>
    cases hroom : (s.drill c.stope).room (tileUnits (MatSlot.ofNat w).shape kind) <;>
      simp [State.tileSlot, h.active, h.opcode, h.inst, hhandle, hjudged, State.tileHeld, judgedCtx, newCtx, hroom]

theorem SoundTile.retained (h : SoundTile s c i op w) (hfree : ∀ id, (s.crew c).handle (MatSlot.ofNat w).lh ≠ .pending id)
    (hjudged : s.judgeTile c i (s.crew c) (MatSlot.ofNat w) w = (t, .retained x false)) :
    s.tileSlot op c w = t.continueTile c (MatSlot.ofNat w) x i.level := by
  cases hhandle : (s.crew c).handle (MatSlot.ofNat w).lh with
  | pending id => exact absurd hhandle (hfree id)
  | invalid | retained id => simp [State.tileSlot, h.active, h.opcode, h.inst, hhandle, hjudged, State.tileHeld]

/-- What the obligation says of a started tile. -/
theorem State.TileStarted.made {j u : Nat} {cr : Crew} {y : TileCtx} (h : s.TileStarted c m.lh y t)
    (hy : (judgedCtx c i m cr a b o j u kind anchor lodes).EntersAs y id units) :
    (t.drill c.stope).ctxs.getLast? = some y ∧ y.crew = c.crew ∧ y.handle = m.lh ∧ y.a = a ∧ y.b = b ∧ y.o = o ∧
      y.start = m.start ∧ y.out = m.out ∧ y.shape = m.shape ∧ y.phase = .ready ∧ y.slab = 0 ∧ y.pass = 0 ∧ y.kind = kind ∧
      y.anchor = anchor ∧ y.lodes = lodes ∧ y.units = units ∧ (t.crew c).handle m.lh = .pending y.id ∧
      (∀ l, l ≠ m.lh → (t.crew c).handle l = (s.crew c).handle l) ∧ (t.crew c).regs = (s.crew c).regs ∧ t.mem = s.mem := by
  obtain ⟨⟨hcrew, hhandle, hstart, hout, hshape⟩, ⟨ha, hb, ho⟩, ⟨hkind, hanchor, hlodes⟩, ⟨hphase, hslab, hpass⟩, -, hunits⟩ := hy
  exact ⟨h.last, hcrew, hhandle, ha, hb, ho, hstart, hout, hshape, hphase, hslab, hpass, hkind, hanchor, hlodes, hunits,
    (h.handle m.lh).trans (if_pos rfl), fun l hl => (h.handle l).trans (if_neg hl), h.regs, h.mem⟩

end TileSlot

/-! ## The obligation -/

theorem Handle.not_pending {x y : Handle} (h : x = y) (hy : y = .invalid ∨ ∃ id, y = .retained id) : ∀ id, x ≠ .pending id := by
  rintro id rfl
  obtain rfl | ⟨_, rfl⟩ := hy <;> cases h

/-- Settles O21. How the start is judged (`State.judgeStart_zero`, `State.judgeStart_images`, `State.judgeStart_retained`) says which
context enters the drill; the reads before it leave crews, drills and memory (`State.KeepsTiles`). -/
theorem tilesStart : Obligations.TilesStart := by
  intro row hrow c w s s1 m i a b o hm hactive hop hi hrsv hncb hlcw hshape hsa hdescs htile
  subst hm
  obtain ⟨hnotFree, hnotWait, hexec⟩ := tileStartRows_exec row hrow
  have hsound : SoundTile s c i row.1 w.toNat := ⟨hactive, hop, hi, ⟨hnotFree, hnotWait⟩, hrsv, hncb, hlcw, hshape, hsa⟩
  have hjudged := hsound.judged hdescs htile
  have hkeeps : s.KeepsTiles s1 := by
    have h := s.tileDescs_keepsTiles c.stope (s.crew c) (MatSlot.ofNat w.toNat).sa
    rwa [hdescs] at h
  have hdrill : s.drill c.stope = s1.drill c.stope := (State.drill_of_drills hkeeps.drills _).symm
  rw [hexec]
  refine ⟨?zero, ?images, ?retained⟩
  case zero =>
    intro hstart hinvalid kind anchor hanchor hfit
    rw [hinvalid] at hjudged
    have hslot := hsound.fresh (Handle.not_pending hinvalid (.inl rfl))
      (hjudged.trans (State.judgeStart_zero hstart hanchor hfit))
    rw [hdrill] at hslot
    split
    · next hroom =>
      rw [if_pos hroom] at hslot
      obtain ⟨y, id, hstarted, hy⟩ := State.admitTile_started _ c _ _ i.level
      exact ⟨_, y, congrArg Host.Outcome.next hslot,
        (hstarted.of_keepsTiles (hkeeps.trans (s1.tileAnchor_keepsTiles _ _ _ _))).made hy⟩
    · next hroom => rw [hslot, if_neg hroom]
  case images =>
    intro hstart hinvalid kind anchor lodes himages hfit hroom
    rw [hinvalid] at hjudged
    have hslot := hsound.fresh (Handle.not_pending hinvalid (.inl rfl))
      (hjudged.trans (State.judgeStart_images hstart himages hfit))
    rw [hdrill, if_pos hroom] at hslot
    obtain ⟨y, id, hstarted, hy⟩ := State.admitTile_started _ c _ _ i.level
    exact ⟨_, y, congrArg Host.Outcome.next hslot, (hstarted.of_keepsTiles hkeeps).made hy⟩
  case retained =>
    intro hstart id old hretained hold hshape hfmt hmx hfit
    rw [hretained, State.retainedBy, hold] at hjudged
    have hslot := hsound.retained (Handle.not_pending hretained (.inr ⟨id, rfl⟩))
      (hjudged.trans (State.judgeStart_retained hstart ⟨hshape, hfmt, hmx⟩ hfit))
    obtain ⟨y, hstarted, hy⟩ := State.continueTile_started _ c _ _ i.level
    exact ⟨_, y, congrArg Host.Outcome.next hslot, (hstarted.of_keepsTiles hkeeps).made hy⟩

end Sys2Proof.Machine
end

section
/-!
Signals of the host and of other modules (08 R226-R230): what a signal makes of its tally, and the obligation.
-/
namespace Sys2Proof.Machine

variable {s t : State} {n k v : Nat} {set : Bool} {m : SignalMsg}

/-! ## A signal of the present cycle (R226) -/

theorem State.sumOf_tally (s : State) (n : Nat) : (s.sumOf n).tally = n := by
  unfold State.sumOf
  cases h : s.sums.find? fun x => x.tally = n with
  | none => rfl
  | some x => exact of_decide_eq_true (List.find?_some h :)

/-- A set raises the largest set that the cycle has met, an add the sum of its adds. -/
def SignalSum.met (x : SignalSum) (set : Bool) (v : Nat) : SignalSum :=
  if set then { x with top := max x.top (v % 2 ^ 32) } else { x with sum := x.sum + v }

theorem SignalSum.met_tally (x : SignalSum) (set : Bool) (v : Nat) : (x.met set v).tally = x.tally := by
  cases set <;> rfl

theorem State.signal_sumOf (s : State) (n : Nat) (set : Bool) (v : Nat) :
    (s.signal n set v).sumOf n = (s.sumOf n).met set v := by
  have hothers : (s.sums.filter fun z => z.tally ≠ n).find? (fun x => x.tally = n) = none :=
    List.find?_eq_none.2 fun x hx => by simpa using (List.mem_filter.1 hx).2
  have hmet : ((s.sumOf n).met set v).tally = n := (SignalSum.met_tally _ _ _).trans (s.sumOf_tally n)
  have hsums : (s.signal n set v).sums = (s.sums.filter fun z => z.tally ≠ n) ++ [(s.sumOf n).met set v] := rfl
  rw [State.sumOf, hsums, List.find?_append, hothers, Option.none_or, List.find?_singleton,
    if_pos (decide_eq_true hmet)]
  rfl

theorem State.signal_tally (s : State) (n : Nat) (set : Bool) (v : Nat) : (s.signal n set v).tally n =
    if set then (max (s.sumOf n).top (v % 2 ^ 32) + (s.sumOf n).sum) % 2 ^ 32 else (s.tally n + v) % 2 ^ 32 := by
  cases set <;> exact (s.setReg_reg _ _).trans (Nat.mod_mod _ _)

theorem State.signal_regsBut (s : State) (n : Nat) (set : Bool) (v : Nat) : regsBut [Reg.tlyCount n] s (s.signal n set v) :=
  fun _ hoff => s.setReg_reg_ne _ (List.ne_of_not_mem_cons hoff)

/-! ## Signals of the host (R228) -/

/-- TLY_HOST_OP holds the operation that the host wrote. -/
def State.noteHostOp (s : State) (n : Nat) (set : Bool) : State := s.setReg Reg.tlyHostOp (set.toNat * 2 ^ 16 + n % 2 ^ 16)

theorem State.hostSignal_eq (h : n < 2 ^ 16) (s : State) (set : Bool) :
    s.hostSignal n set = (s.noteHostOp n set).signal n set (s.reg Reg.tlyHostArg) := by
  simp only [State.hostSignal, Nat.mod_eq_of_lt h]
  rw [State.noteHostOp, Nat.mod_eq_of_lt h]

theorem State.hostSignal_regsBut (h : n < 2 ^ 16) (s : State) (set : Bool) :
    regsBut [Reg.tlyHostOp, Reg.tlyCount n] s (s.hostSignal n set) := by
  intro off hoff
  obtain ⟨hop, hcount⟩ := List.ne_and_not_mem_of_not_mem_cons hoff
  rw [State.hostSignal_eq h, State.signal_regsBut _ _ _ _ off hcount]
  exact s.setReg_reg_ne _ hop

theorem State.hostSignal_tally (h : n < 2 ^ 16) (s : State) (set : Bool) : (s.hostSignal n set).tally n =
    if set then (max (s.sumOf n).top (s.reg Reg.tlyHostArg) + (s.sumOf n).sum) % 2 ^ 32
    else (s.tally n + s.reg Reg.tlyHostArg) % 2 ^ 32 := by
  have htally : (s.noteHostOp n set).tally n = s.tally n := s.setReg_reg_ne _ (by unfold Reg.tlyCount Reg.tlyHostOp; omega)
  have hsum : (s.noteHostOp n set).sumOf n = s.sumOf n := rfl
  rw [State.hostSignal_eq h, State.signal_tally, htally, hsum, Nat.mod_eq_of_lt (s.reg_lt _)]

theorem State.hostSignal_eq_regsAndSums (s : State) (n : Nat) (set : Bool) :
    s.hostSignal n set = { s with regs := (s.hostSignal n set).regs, sums := (s.hostSignal n set).sums } := rfl

theorem tlyHostSet_signals (hup : s.up 1 = true) (n : Nat) : exec (.tlyHostSet n) s = .next (s.hostSignal n true) := by
  change execTlyHostSet n s = _
  simp [execTlyHostSet, hup]

theorem tlyHostAdd_signals (hup : s.up 1 = true) (n : Nat) : exec (.tlyHostAdd n) s = .next (s.hostSignal n false) := by
  change execTlyHostAdd n s = _
  simp [execTlyHostAdd, hup]

/-! ## Signals of other modules (R229, R230) -/

theorem remoteSignalArrive_judged (hup : s.up 1 = true) (hm : m.tally < 2 ^ 16) :
    exec (.remoteSignalArrive m) s = .next (s.remoteSignal m.epoch m.tally m.set m.value) := by
  change execRemoteSignalArrive m s = _
  simp only [execRemoteSignalArrive, hup, Nat.mod_eq_of_lt hm]
  rfl

theorem State.remoteSignal_applied (hepoch : v = s.epoch) (hwindow : s.remoteWindow n = true) :
    s.remoteSignal v n set k = s.signal n set k := by
  simp [State.remoteSignal, hepoch, hwindow]

theorem State.signal_epoch (s : State) (n : Nat) (set : Bool) (v : Nat) : (s.signal n set v).epoch = s.epoch := by
  have hreg : (s.signal n set v).reg Reg.tlyEpoch = s.reg Reg.tlyEpoch :=
    s.signal_regsBut n set v _ (by simp [Reg.tlyEpoch, Reg.tlyCount]; omega)
  rw [State.epoch, State.fld, hreg]
  rfl

theorem State.signal_remoteWindow (s : State) (n : Nat) (set : Bool) (v k : Nat) :
    (s.signal n set v).remoteWindow k = s.remoteWindow k := by
  have hreg0 : (s.signal n set v).reg Reg.tlyRemoteEn0 = s.reg Reg.tlyRemoteEn0 :=
    s.signal_regsBut n set v _ (by simp [Reg.tlyRemoteEn0, Reg.tlyCount]; omega)
  have hreg1 : (s.signal n set v).reg Reg.tlyRemoteEn1 = s.reg Reg.tlyRemoteEn1 :=
    s.signal_regsBut n set v _ (by simp [Reg.tlyRemoteEn1, Reg.tlyCount]; omega)
  simp only [State.remoteWindow, hreg0, hreg1]

/-- Two signals that meet a tally in one cycle, with none before them. -/
theorem State.signal_signal_tally (h : s.sums = []) (n v w : Nat) (a b : Bool) : ((s.signal n a v).signal n b w).tally n =
    (if a ∧ b then max (v % 2 ^ 32) (w % 2 ^ 32) else if a ∨ b then v + w else s.tally n + v + w) % 2 ^ 32 := by
  have hnone : s.sumOf n = ⟨n, 0, 0⟩ := by rw [State.sumOf, h]; rfl
  rw [State.signal_tally, State.signal_tally, State.signal_sumOf, hnone]
  cases a <;> cases b <;> simp [SignalSum.met, Nat.add_comm v w]

/-- Settles O39. What a signal comes to is `State.signal_tally`; two of one cycle meet in `State.signal_signal_tally`. -/
theorem talliesTakeSignals : Obligations.TalliesTakeSignals := by
  refine ⟨fun n s hn hup => ?hostSet, fun n s hn hup => ?hostAdd, fun m s hm hup => ?remote,
    fun m1 m2 s hm htally hup hepoch1 hepoch2 hwindow hsums => ?pair⟩
  case hostSet =>
    exact ⟨_, tlyHostSet_signals hup n, s.hostSignal_eq_regsAndSums n true, State.hostSignal_regsBut hn s true,
      State.hostSignal_tally hn s true⟩
  case hostAdd =>
    exact ⟨_, tlyHostAdd_signals hup n, s.hostSignal_eq_regsAndSums n false, State.hostSignal_regsBut hn s false,
      State.hostSignal_tally hn s false⟩
  case remote =>
    refine ⟨_, remoteSignalArrive_judged hup hm, ?_⟩
    unfold State.remoteSignal
    by_cases hepoch : m.epoch = s.epoch
    · rw [if_neg (not_not_intro hepoch), if_neg (not_not_intro hepoch)]
      cases hwindow : s.remoteWindow m.tally with
      | true => exact ⟨rfl, s.signal_regsBut _ _ _, s.signal_tally _ _ _⟩
      | false => exact ⟨rfl, fun _ hoff => s.bump_reg_ne (List.ne_of_not_mem_cons hoff), s.bump_reg _⟩
    · rw [if_pos hepoch, if_pos hepoch]
      exact ⟨rfl, fun _ hoff => s.bump_reg_ne (List.ne_of_not_mem_cons hoff), s.bump_reg _⟩
  case pair =>
    have hsecond : (s.signal m1.tally m1.set m1.value).remoteSignal m2.epoch m2.tally m2.set m2.value =
        (s.signal m1.tally m1.set m1.value).signal m1.tally m2.set m2.value := by
      rw [htally]
      exact State.remoteSignal_applied (hepoch2.trans (s.signal_epoch _ _ _).symm) ((s.signal_remoteWindow _ _ _ _).trans hwindow)
    refine ⟨_, _, (remoteSignalArrive_judged hup hm).trans (congrArg _ (State.remoteSignal_applied hepoch1 hwindow)),
      (remoteSignalArrive_judged (s := s.signal _ _ _) hup (htally ▸ hm)).trans (congrArg _ hsecond), ?_⟩
    exact State.signal_signal_tally hsums _ _ _ _ _

end Sys2Proof.Machine
end

section
/-!
COMMAND_COMPLETE (08 R208, R211): the oldest started command of a shaft completes, and the obligation.
-/
namespace Sys2Proof.Machine

variable {s t : State} {n : Nat} {c : Command} {x : Started} {l : List Started}

/-! ## Registers of a shaft -/

@[simp] theorem State.modShaft_reg (s : State) (n : Nat) (g : Shaft → Shaft) (off : Nat) :
    (s.modShaft n g).reg off = s.reg off :=
  State.reg_of_regs (by simp) off

/-- A ring holds 2^15 commands at most (R205). -/
theorem State.ringSize_le (s : State) (n : Nat) : s.ringSize n ≤ 2 ^ 15 := by
  have hfld : s.fld (Reg.sftShaftCtrl n) Fld.sftShaftCtrlSizeLog2 < 16 := Nat.mod_lt _ (by decide)
  exact Nat.pow_le_pow_right (by decide) (by omega)

theorem State.ringSize_pos (s : State) (n : Nat) : 0 < s.ringSize n := Nat.two_pow_pos _

/-- Nothing is decoded where DECODE has reached TAIL (R208). -/
theorem State.pump_of_decoded (h : s.reg (Reg.sftDecode n) = s.reg (Reg.sftDoorbell n)) : s.pump n = s := by
  simp [State.pump, State.decodeShaft, h]

/-! ## The completion (R211) -/

/-- The oldest started command leaves its shaft: HEAD passes it and SFT_CPL_CNT counts it. -/
def State.retire (s : State) (n : Nat) (x : Started) (l : List Started) : State :=
  ((s.modShaft n fun h => { h with started := l }).setReg (Reg.sftHead n) ((x.cmd.pos + 1) % s.ringSize n)).bump (Reg.sftCplCnt n)

/-- With SIGNAL = 1 a command that completes adds SIG_ADD to its tally. -/
def State.addSignal (s : State) (c : Command) : State :=
  if c.flags.testBit 1 then s.signal (c.get 8 2) false (c.get 12 4) else s

/-- A command that completes makes its signal, and with EVENT = 1 raises EVENT_VEC. -/
def State.announce (s : State) (c : Command) : State :=
  if c.flags.testBit 3 then (s.addSignal c).msix (c.get 10 2) else s.addSignal c

/-- A NOP and a DISPATCH do nothing else when they complete. -/
theorem State.completeOwn_of_noOwn (h : x.cmd.op = 1 ∨ x.cmd.op = 3) : s.completeOwn n x = s := by
  rcases h with h | h <;> simp [State.completeOwn, h]

theorem commandComplete_retires (hstarted : (s.shaft n).started = x :: l) (hdone : s.completable x = true) (hold : x.old = false)
    (hop : x.cmd.op = 1 ∨ x.cmd.op = 3) :
    exec (.commandComplete n) s = .next (((s.retire n x l).announce x.cmd).pump n) := by
  change execCommandComplete n s = _
  simp only [execCommandComplete, hstarted, hdone, hold, State.completeOwn_of_noOwn hop]
  rfl

/-! ### What it writes -/

theorem State.retire_started : ((s.retire n x l).shaft n).started = l :=
  congrArg Shaft.started (s.modShaft_shaft n fun h => { h with started := l })

theorem State.retire_regsBut : regsBut [Reg.sftHead n, Reg.sftCplCnt n] s (s.retire n x l) := by
  intro off hoff
  obtain ⟨hhead, hcnt⟩ := List.ne_and_not_mem_of_not_mem_cons hoff
  rw [State.retire, State.bump_reg_ne _ (List.ne_of_not_mem_cons hcnt), State.setReg_reg_ne _ _ hhead]
  exact State.reg_of_regs rfl off

theorem State.retire_head : (s.retire n x l).reg (Reg.sftHead n) = (x.cmd.pos + 1) % s.ringSize n := by
  have hlt : (x.cmd.pos + 1) % s.ringSize n < 2 ^ 32 :=
    Nat.lt_of_lt_of_le (Nat.mod_lt _ (s.ringSize_pos n)) ((s.ringSize_le n).trans (by decide))
  rw [State.retire, State.bump_reg_ne _ (by simp [Reg.sftHead, Reg.sftCplCnt]), State.setReg_reg, Nat.mod_eq_of_lt hlt]

theorem State.retire_cplCnt : (s.retire n x l).reg (Reg.sftCplCnt n) = (s.reg (Reg.sftCplCnt n) + 1) % 2 ^ 32 := by
  rw [State.retire, State.bump_reg, State.setReg_reg_ne _ _ (by simp [Reg.sftHead, Reg.sftCplCnt])]
  exact congrArg (fun r => (r + 1) % 2 ^ 32) (State.reg_of_regs rfl _)

/-- The tallies lie behind the registers of the shafts (Table 19.3). -/
theorem State.retire_tally (hn : n < 256) (k : Nat) : (s.retire n x l).tally k = s.tally k :=
  State.retire_regsBut _ (by simp [Reg.tlyCount, Reg.sftHead, Reg.sftCplCnt]; omega)

/-! ### Whom it tells -/

theorem State.addSignal_keepsShafts (s : State) (c : Command) : s.KeepsShafts (s.addSignal c) := by
  have htally : c.get 8 2 < 2 ^ 16 := Nat.mod_lt _ (Nat.two_pow_pos _)
  have hset := s.setReg_keepsShafts (Reg.tlyCount (c.get 8 2)) ((s.tally (c.get 8 2) + c.get 12 4) % 2 ^ 32)
    (by unfold Reg.tlyCount; omega)
  exact .ite ⟨hset.mem, hset.shafts, hset.dispatches, hset.steps, hset.seqNo, hset.wrote, hset.reg⟩ (.refl s)

theorem State.announce_keepsShafts (s : State) (c : Command) : s.KeepsShafts (s.announce c) :=
  (s.addSignal_keepsShafts c).trans (.ite (State.msix_keepsShafts _ _) (.refl _))

theorem State.addSignal_tally (s : State) (c : Command) (k : Nat) : (s.addSignal c).tally k =
    if c.flags.testBit 1 = true ∧ k = c.get 8 2 then (s.tally k + c.get 12 4) % 2 ^ 32 else s.tally k := by
  unfold State.addSignal
  by_cases hsignal : c.flags.testBit 1 = true
  · by_cases hk : k = c.get 8 2
    · rw [if_pos hsignal, if_pos ⟨hsignal, hk⟩, hk]
      exact s.signal_tally _ _ _
    · have hne : Reg.tlyCount k ∉ [Reg.tlyCount (c.get 8 2)] := by simp [Reg.tlyCount, hk]
      rw [if_pos hsignal, if_neg fun h => hk h.2]
      exact s.signal_regsBut _ _ _ _ hne
  · rw [if_neg hsignal, if_neg fun h => hsignal h.1]

theorem State.announce_tally (s : State) (c : Command) (k : Nat) : (s.announce c).tally k = (s.addSignal c).tally k := by
  refine State.reg_of_regs ?_ _
  unfold State.announce
  split
  · exact State.msix_regs _ _
  · rfl

/-- Settles O38. The command leaves its shaft (`State.retire`) and makes its signal (`State.announce`); nothing is left to decode. -/
theorem commandsComplete : Obligations.CommandsComplete := by
  intro n s x l hn hstarted hdone hold hop _ hdecoded
  have htold := (s.retire n x l).announce_keepsShafts x.cmd
  have hsft {off : Nat} (ho : off / 0x100000 = 3) (hhead : off ≠ Reg.sftHead n) (hcnt : off ≠ Reg.sftCplCnt n) :
      ((s.retire n x l).announce x.cmd).reg off = s.reg off :=
    (htold.reg off ho).trans (State.retire_regsBut off (by simp [hhead, hcnt]))
  have hidle : ((s.retire n x l).announce x.cmd).reg (Reg.sftDecode n) =
      ((s.retire n x l).announce x.cmd).reg (Reg.sftDoorbell n) := by
    rw [hsft, hsft, hdecoded] <;> simp only [Reg.sftDecode, Reg.sftDoorbell, Reg.sftHead, Reg.sftCplCnt] <;> omega
  refine ⟨_, commandComplete_retires hstarted hdone hold hop, ?_⟩
  rw [State.pump_of_decoded hidle]
  refine ⟨htold.mem, ?_, ?_, ?_, fun k _ => ?_⟩
  · rw [State.shaft_of_shafts htold.shafts, State.retire_started]
  · rw [htold.reg _ (by unfold Reg.sftHead; omega), State.retire_head]
  · rw [htold.reg _ (by unfold Reg.sftCplCnt; omega), State.retire_cplCnt]
  · rw [State.announce_tally, State.addSignal_tally, State.retire_tally hn]

end Sys2Proof.Machine
end

section
/-!
Shaft control (08 R205-R208, R235): enable and disable, doorbells, ABORT and RESUME, and the obligation.
-/
namespace Sys2Proof.Machine

variable {s t : State} {n k off v : Nat} {f : Fld} {id : StepId} {it : Item}

/-! ## Fields of registers -/

theorem bits_putBits (w v : Nat) {hi lo : Nat} : bits (putBits w hi lo v) hi lo = v % 2 ^ (hi + 1 - lo) := by
  have hrest : (w / 2 ^ lo - bits w hi lo) % 2 ^ (hi + 1 - lo) = 0 := by
    rw [bits_eq_div_mod]
    exact Nat.sub_mod_eq_zero_of_mod_eq (Nat.mod_mod _ _).symm
  have hcut : putBits w hi lo v / 2 ^ lo = w / 2 ^ lo - bits w hi lo + v % 2 ^ (hi + 1 - lo) := by
    rw [putBits, Nat.add_mul_div_right _ _ (Nat.two_pow_pos lo), Nat.mul_comm, Nat.sub_mul_div]
  rw [bits_eq_div_mod, hcut, Nat.add_mod, hrest, Nat.zero_add, Nat.mod_mod, Nat.mod_mod]

theorem bits_mod_two_pow (w : Nat) {hi lo m : Nat} (h : hi < m) : bits (w % 2 ^ m) hi lo = bits w hi lo := by
  refine Nat.eq_of_testBit_eq fun i => ?_
  simp only [bits, Nat.testBit_mod_two_pow, Nat.testBit_shiftRight]
  by_cases hin : i < hi + 1 - lo
  · rw [decide_eq_true (show lo + i < m by omega), Bool.true_and]
  · rw [decide_eq_false hin, Bool.false_and, Bool.false_and]

theorem State.setFld_fld (s : State) (off v : Nat) (h : f.hi < 32) :
    (s.setFld off f v).fld off f = v % 2 ^ (f.hi + 1 - f.lo) := by
  rw [State.fld, State.setFld, State.setReg_reg, bits_mod_two_pow _ h, bits_putBits]

theorem State.setReg_regsBut (s : State) (off v : Nat) : regsBut [off] s (s.setReg off v) :=
  fun _ hoff => s.setReg_reg_ne v (List.ne_of_not_mem_cons hoff)

theorem State.setFld_regsBut (s : State) (off : Nat) (f : Fld) (v : Nat) : regsBut [off] s (s.setFld off f v) :=
  s.setReg_regsBut off _

/-! ## Enable and disable (R205) -/

/-- An empty ring: HEAD, DECODE and TAIL are 0. -/
def State.emptyRing (s : State) (n : Nat) : State :=
  ((s.setReg (Reg.sftHead n) 0).setReg (Reg.sftDecode n) 0).setReg (Reg.sftDoorbell n) 0

theorem State.emptyRing_regsBut (s : State) (n : Nat) :
    regsBut [Reg.sftHead n, Reg.sftDecode n, Reg.sftDoorbell n] s (s.emptyRing n) :=
  (((s.setReg_regsBut _ _).mono (by simp)).trans ((State.setReg_regsBut _ _ _).mono (by simp))).trans
    ((State.setReg_regsBut _ _ _).mono (by simp))

theorem State.emptyRing_regs (s : State) (n : Nat) : (s.emptyRing n).reg (Reg.sftHead n) = 0 ∧
    (s.emptyRing n).reg (Reg.sftDecode n) = 0 ∧ (s.emptyRing n).reg (Reg.sftDoorbell n) = 0 := by
  have hhead : Reg.sftHead n ≠ Reg.sftDecode n ∧ Reg.sftHead n ≠ Reg.sftDoorbell n := by
    simp [Reg.sftHead, Reg.sftDecode, Reg.sftDoorbell]
  have hdecode : Reg.sftDecode n ≠ Reg.sftDoorbell n := by simp [Reg.sftDecode, Reg.sftDoorbell]
  refine ⟨?_, ?_, ?_⟩
  · rw [State.emptyRing, State.setReg_reg_ne _ _ hhead.2, State.setReg_reg_ne _ _ hhead.1, State.setReg_reg, Nat.zero_mod]
  · rw [State.emptyRing, State.setReg_reg_ne _ _ hdecode, State.setReg_reg, Nat.zero_mod]
  · rw [State.emptyRing, State.setReg_reg, Nat.zero_mod]

/-- A shaft that is enabled keeps its started commands, which no longer move HEAD (notes/assumptions/33). -/
def Shaft.afresh (h : Shaft) : Shaft := { Shaft.idle with started := h.started.map fun c => { c with old := true } }

/-- The state in which a shaft has been enabled. -/
def State.enableShaft (s : State) (n : Nat) : State :=
  ((s.setFld (Reg.sftShaftCtrl n) Fld.sftShaftCtrlEn 1).emptyRing n).modShaft n Shaft.afresh

theorem shaftEnable_enables (hup : s.up 1 = true) (hoff : s.shaftOn n = false) :
    exec (.shaftEnable n) s = .next (s.enableShaft n) := by
  change execShaftEnable n s = _
  simp only [execShaftEnable, hup, hoff]
  rfl

theorem shaftDisable_disables (hup : s.up 1 = true) :
    exec (.shaftDisable n) s = .next (s.setFld (Reg.sftShaftCtrl n) Fld.sftShaftCtrlEn 0) := by
  change execShaftDisable n s = _
  simp only [execShaftDisable, hup]
  rfl

theorem State.setFld_shaftOn (s : State) (n v : Nat) :
    (s.setFld (Reg.sftShaftCtrl n) Fld.sftShaftCtrlEn v).shaftOn n = decide (v % 2 = 1) := by
  unfold State.shaftOn State.flag
  rw [State.setFld_fld _ _ _ (by decide)]
  rfl

theorem State.shaftOn_of_reg (h : t.reg (Reg.sftShaftCtrl n) = s.reg (Reg.sftShaftCtrl n)) : t.shaftOn n = s.shaftOn n := by
  unfold State.shaftOn State.flag State.fld
  rw [h]

theorem State.halted_of_reg (h : t.reg (Reg.sftShaftStat n) = s.reg (Reg.sftShaftStat n)) : t.halted n = s.halted n := by
  unfold State.halted State.fld
  rw [h]

theorem State.enableShaft_reg (s : State) (n off : Nat) : (s.enableShaft n).reg off =
    ((s.setFld (Reg.sftShaftCtrl n) Fld.sftShaftCtrlEn 1).emptyRing n).reg off :=
  State.modShaft_reg _ _ _ off

theorem State.enableShaft_regsBut (s : State) (n : Nat) :
    regsBut [Reg.sftShaftCtrl n, Reg.sftHead n, Reg.sftDecode n, Reg.sftDoorbell n] s (s.enableShaft n) := fun off hoff =>
  (s.enableShaft_reg n off).trans
    (((s.setFld_regsBut _ _ _).mono (by simp)).trans ((State.emptyRing_regsBut _ n).mono (by simp)) off hoff)

theorem State.enableShaft_shaftOn (s : State) (n : Nat) : (s.enableShaft n).shaftOn n = true := by
  have hctrl : Reg.sftShaftCtrl n ∉ [Reg.sftHead n, Reg.sftDecode n, Reg.sftDoorbell n] := by
    simp [Reg.sftShaftCtrl, Reg.sftHead, Reg.sftDecode, Reg.sftDoorbell]
  rw [State.shaftOn_of_reg ((s.enableShaft_reg n _).trans (State.emptyRing_regsBut _ n _ hctrl)), State.setFld_shaftOn]
  rfl

theorem State.enableShaft_eq (s : State) (n : Nat) :
    s.enableShaft n = { s with regs := (s.enableShaft n).regs, shafts := (s.enableShaft n).shafts } := by
  have hset {u : State} (h : ∃ r, u = { s with regs := r }) (off v : Nat) : ∃ r, u.setReg off v = { s with regs := r } := by
    obtain ⟨r, rfl⟩ := h
    exact ⟨_, rfl⟩
  have hmod (u : State) (g : Shaft → Shaft) : ∃ l, u.modShaft n g = { u with shafts := l } := ⟨_, rfl⟩
  obtain ⟨r, hr⟩ : ∃ r, (s.setFld (Reg.sftShaftCtrl n) Fld.sftShaftCtrlEn 1).emptyRing n = { s with regs := r } :=
    hset (hset (hset (hset ⟨s.regs, rfl⟩ _ _) _ _) _ _) _ _
  obtain ⟨l, hl⟩ := hmod { s with regs := r } Shaft.afresh
  rw [State.enableShaft, hr, hl]

theorem State.enableShaft_shaft (s : State) (n : Nat) : (s.enableShaft n).shaft n = (s.shaft n).afresh :=
  State.modShaft_shaft _ n Shaft.afresh

/-! ## Decoding (R208) -/

theorem State.readEntry_keepsShafts (s : State) (n idx : Nat) : s.KeepsShafts (s.readEntry n idx).1 := by
  have hread := s.devRead_keepsShafts none (s.ringBase n + 64 * idx) 64
  unfold State.readEntry
  split
  · next e => rwa [e] at hread
  · next e => rwa [e] at hread

/-- Decoding changes no other register of block SFT than DECODE. -/
theorem State.decodeOne_reg (hsft : off / 0x100000 = 3) (hne : off ≠ Reg.sftDecode n) (s : State) (idx : Nat) :
    (s.decodeOne n idx).reg off = s.reg off := by
  have hread := (s.readEntry_keepsShafts n idx).reg off hsft
  unfold State.decodeOne
  generalize s.readEntry n idx = r at hread ⊢
  exact (State.setReg_reg_ne _ _ hne).trans hread

theorem State.pump_reg (hsft : off / 0x100000 = 3) (hne : off ≠ Reg.sftDecode n) (s : State) :
    (s.pump n).reg off = s.reg off := by
  have hfuel (fuel : Nat) : ∀ s : State, (s.decodeShaft n fuel).reg off = s.reg off := by
    induction fuel with
    | zero => exact fun _ => rfl
    | succ fuel ih =>
      intro s
      unfold State.decodeShaft
      dsimp only
      split
      · exact (ih _).trans (s.decodeOne_reg hsft hne _)
      · rfl
  exact hfuel _ s

/-! ## Doorbells (R207) -/

theorem State.noteReserved_regsBut (s : State) (off v : Nat) : regsBut [Reg.lmpBadAccessCnt] s (s.noteReserved off v) :=
  s.bumpIf_regsBut _ List.mem_cons_self

theorem State.noteReserved_shafts (s : State) (off v : Nat) : (s.noteReserved off v).shafts = s.shafts := by
  rw [State.noteReserved, State.bumpIf_eq]

/-- The count of reserved bits stands in block LMP. -/
theorem State.noteReserved_sft (s : State) (off v : Nat) (h : k / 0x100000 = 3) : (s.noteReserved off v).reg k = s.reg k :=
  s.noteReserved_regsBut off v k (by simp [Reg.lmpBadAccessCnt]; omega)

/-- A doorbell value becomes TAIL, and what it submits is decoded. -/
def State.acceptDoorbell (s : State) (n v : Nat) : State := (s.setReg (Reg.sftDoorbell n) v).pump n

theorem State.acceptDoorbell_tail (s : State) (hn : n < 256) (v : Nat) :
    (s.acceptDoorbell n v).reg (Reg.sftDoorbell n) = v % 2 ^ 32 := by
  rw [State.acceptDoorbell, State.pump_reg (by unfold Reg.sftDoorbell; omega) (by simp [Reg.sftDoorbell, Reg.sftDecode]),
    State.setReg_reg]

/-- A doorbell value is discarded and counted, which may raise a shaft event. -/
def State.discardDoorbell (s : State) : State := (s.bump Reg.sftDbBadCnt).refuseEvent

theorem State.discardDoorbell_keepsShafts (s : State) : (s.bump Reg.sftDbBadCnt).KeepsShafts s.discardDoorbell :=
  State.raiseIf_keepsShafts _ _ _

theorem State.discardDoorbell_reg (s : State) (hsft : off / 0x100000 = 3) (hne : off ≠ Reg.sftDbBadCnt) :
    s.discardDoorbell.reg off = s.reg off :=
  (s.discardDoorbell_keepsShafts.reg off hsft).trans (s.bump_reg_ne hne)

theorem State.discardDoorbell_dbBadCnt (s : State) :
    s.discardDoorbell.reg Reg.sftDbBadCnt = (s.reg Reg.sftDbBadCnt + 1) % 2 ^ 32 :=
  (s.discardDoorbell_keepsShafts.reg _ (by decide)).trans (s.bump_reg _)

/-- An event that is raised stands in LMP_EVENT_STAT (19 R506). -/
theorem State.raise_eventStat (s : State) {e : Nat} (he : e < 32) : ((s.raise e).reg Reg.lmpEventStat).testBit e = true := by
  have hset : ((s.hwSet Reg.lmpEventStat (2 ^ e)).reg Reg.lmpEventStat).testBit e = true := by
    have hreg : (s.hwSet Reg.lmpEventStat (2 ^ e)).reg Reg.lmpEventStat = (s.reg Reg.lmpEventStat ||| 2 ^ e) % 2 ^ 32 :=
      s.setReg_reg _ _
    rw [hreg, Nat.testBit_mod_two_pow, decide_eq_true he, Nat.testBit_or, Nat.testBit_two_pow_self, Bool.or_true,
      Bool.true_and]
  unfold State.raise
  dsimp only
  split
  · rwa [State.reg_of_regs (State.msix_regs _ _)]
  · exact hset

theorem State.discardDoorbell_eventStat (h : s.flag Reg.sftCtrl Fld.sftCtrlRefuseEvent = true) :
    (s.discardDoorbell.reg Reg.lmpEventStat).testBit 3 = true := by
  have hevent : (s.bump Reg.sftDbBadCnt).flag Reg.sftCtrl Fld.sftCtrlRefuseEvent = true := by
    rwa [State.flag, State.fld, s.bump_reg_ne (by decide)]
  rw [State.discardDoorbell, State.refuseEvent, hevent]
  exact State.raise_eventStat _ (by decide)

/-- The judgement of a doorbell value, by the ring as it stood. -/
theorem shaftDoorbell_judged (hup : s.up 1 = true) (hn : n < 256) (v : Nat) : exec (.shaftDoorbell n v) s = .next
    (let u := s.noteReserved (Reg.sftDoorbell n) v
     let w := v % 2 ^ 16 % s.ringSize n
     let tail := s.reg (Reg.sftDoorbell n)
     if w = tail % s.ringSize n then u
     else if ringDist (s.ringSize n) tail w ≤ ringDist (s.ringSize n) tail (s.reg (Reg.sftHead n) + s.ringSize n - 1) then
       u.acceptDoorbell n w
     else u.discardDoorbell) := by
  have hsft {off : Nat} (h : off / 0x100000 = 3) := s.noteReserved_sft (Reg.sftDoorbell n) v h
  have hdb := hsft (off := Reg.sftDoorbell n) (by unfold Reg.sftDoorbell; omega)
  have hhead := hsft (off := Reg.sftHead n) (by unfold Reg.sftHead; omega)
  have hsize : (s.noteReserved (Reg.sftDoorbell n) v).ringSize n = s.ringSize n := by
    unfold State.ringSize State.fld
    rw [hsft (by unfold Reg.sftShaftCtrl; omega)]
  change execShaftDoorbell n v s = _
  simp only [execShaftDoorbell, hup, hsize, hdb, hhead, apply_ite Host.Outcome.next, Bool.not_true, Bool.false_eq_true, if_false,
    State.acceptDoorbell, State.discardDoorbell]

/-! ## ABORT and RESUME (R235) -/

theorem State.clearHalt_reg (s : State) (n off : Nat) :
    (s.clearHalt n).reg off = (s.setFld (Reg.sftShaftStat n) Fld.sftShaftStatHalt 0).reg off :=
  State.modShaft_reg _ _ _ off

theorem State.clearHalt_halted (s : State) (n : Nat) : (s.clearHalt n).halted n = false := by
  rw [State.halted_of_reg (s.clearHalt_reg n _), State.halted, State.setFld_fld _ _ _ (by decide)]
  rfl

/-- An item is dropped and counted, or added to the entry of a step (15 R429). -/
theorem State.report_cases (s : State) (id : StepId) (it : Item) : s.report id it = s.bump Reg.plgItemDropCnt ∨
    ∃ k g b, s.report id it = (s.modStep k g).bumpIf b Reg.plgItemDropCnt := by
  unfold State.report
  extract_lets put
  split
  · exact .inl rfl
  split
  · split
    · exact .inr ⟨_, _, _, rfl⟩
    · split
      · exact .inr ⟨_, _, _, rfl⟩
      · exact .inl rfl
  · split
    · exact .inr ⟨_, _, _, rfl⟩
    · exact .inl rfl

theorem State.report_shafts (s : State) (id : StepId) (it : Item) : (s.report id it).shafts = s.shafts := by
  obtain h | ⟨k, g, b, h⟩ := s.report_cases id it
  · rw [h]; rfl
  · rw [h, State.bumpIf_eq]; rfl

theorem State.report_regsBut (s : State) (id : StepId) (it : Item) : regsBut [Reg.plgItemDropCnt] s (s.report id it) := by
  obtain h | ⟨k, g, b, h⟩ := s.report_cases id it
  · rw [h]; exact fun _ hoff => s.bump_reg_ne (List.ne_of_not_mem_cons hoff)
  · rw [h]; exact (regsBut_of_regs rfl).trans (State.bumpIf_regsBut _ b List.mem_cons_self)

/-- The commands decoded and not started are discarded; those started no longer move HEAD. -/
def Shaft.discarded (h : Shaft) : Shaft := { h with decoded := [], started := h.started.map fun c => { c with old := true } }

/-- The state in which a halted shaft has been aborted, before the discard is reported. -/
def State.abortShaft (s : State) (n : Nat) : State :=
  (((s.clearHalt n).setReg (Reg.sftHead n) (s.reg (Reg.sftDoorbell n))).setReg (Reg.sftDecode n)
    (s.reg (Reg.sftDoorbell n))).modShaft n Shaft.discarded

theorem State.abortShaft_mem (s : State) (n : Nat) : (s.abortShaft n).mem = s.mem := by
  simp [State.abortShaft, State.clearHalt]

theorem State.abortShaft_decoded (s : State) (n : Nat) : ((s.abortShaft n).shaft n).decoded = [] := by
  rw [State.abortShaft, State.modShaft_shaft, Shaft.discarded]

/-- HEAD and DECODE stand at TAIL, and no other register has changed since the halt was cleared. -/
theorem State.abortShaft_reg (s : State) (n off : Nat) : (s.abortShaft n).reg off =
    if off = Reg.sftHead n ∨ off = Reg.sftDecode n then s.reg (Reg.sftDoorbell n) else (s.clearHalt n).reg off := by
  have htail : s.reg (Reg.sftDoorbell n) % 2 ^ 32 = s.reg (Reg.sftDoorbell n) := Nat.mod_eq_of_lt (s.reg_lt _)
  rw [State.abortShaft, State.modShaft_reg]
  by_cases hdecode : off = Reg.sftDecode n
  · rw [hdecode, State.setReg_reg, htail, if_pos (.inr rfl)]
  rw [State.setReg_reg_ne _ _ hdecode]
  by_cases hhead : off = Reg.sftHead n
  · rw [hhead, State.setReg_reg, htail, if_pos (.inl rfl)]
  · rw [State.setReg_reg_ne _ _ hhead, if_neg (not_or.2 ⟨hhead, hdecode⟩)]

/-- ABORT of a halted shaft reports its discard for the current step, if there is one. -/
theorem shaftAbort_aborts (hup : s.up 1 = true) (hhalted : s.halted n = true) : ∃ t, exec (.shaftAbort n) s = .next t ∧
    t.mem = (s.abortShaft n).mem ∧ t.shafts = (s.abortShaft n).shafts ∧ regsBut [Reg.plgItemDropCnt] (s.abortShaft n) t := by
  change ∃ t, execShaftAbort n s = _ ∧ _
  simp only [execShaftAbort, hup, hhalted, Bool.not_true, Bool.false_eq_true, if_false]
  split
  · exact ⟨_, rfl, rfl, rfl, fun _ _ => rfl⟩
  · exact ⟨_, rfl, State.report_mem _ _ _, State.report_shafts _ _ _, State.report_regsBut _ _ _⟩

/-- The command as it is read again: its wait and its age begin anew. -/
def Command.reread (c : Command) (raw : Nat) (unread : Bool) : Command :=
  { c with raw, unread, met := false, sat := false, age := 0, declared := none }

theorem Command.reread_fields (c : Command) (raw : Nat) (unread : Bool) : (c.reread raw unread).pos = c.pos ∧
    (c.reread raw unread).id = c.id ∧ (c.reread raw unread).raw = raw ∧ (c.reread raw unread).unread = unread :=
  ⟨rfl, rfl, rfl, rfl⟩

/-- The state in which the first decoded command has been read again from the ring. -/
def State.rereadHead (s : State) (n : Nat) (c : Command) (l : List Command) : State :=
  (s.readEntry n c.pos).1.modShaft n fun h =>
    { h with decoded := c.reread (s.readEntry n c.pos).2.1 (s.readEntry n c.pos).2.2 :: l }

theorem shaftResume_rereads {c : Command} {l : List Command} (hup : s.up 1 = true) (hhalted : s.halted n = true)
    (hrejudge : (s.shaft n).rejudge = true) (hdecoded : (s.shaft n).decoded = c :: l) :
    exec (.shaftResume n) s = .next ((s.clearHalt n).rereadHead n c l) := by
  change execShaftResume n s = _
  simp only [execShaftResume, hup, hhalted, hrejudge, hdecoded, Bool.not_true, Bool.false_eq_true, if_false]
  rfl

theorem shaftResume_waits (hup : s.up 1 = true) (hhalted : s.halted n = true)
    (hwaits : ∀ c l, (s.shaft n).rejudge = true → (s.shaft n).decoded ≠ c :: l) :
    exec (.shaftResume n) s = .next (s.clearHalt n) := by
  change execShaftResume n s = _
  cases hrejudge : (s.shaft n).rejudge with
  | false => simp [execShaftResume, hup, hhalted, hrejudge]
  | true =>
    cases hdecoded : (s.shaft n).decoded with
    | nil => simp [execShaftResume, hup, hhalted, hrejudge, hdecoded]
    | cons c l => exact absurd hdecoded (hwaits c l hrejudge)

theorem State.rereadHead_mem (s : State) (n : Nat) (c : Command) (l : List Command) : (s.rereadHead n c l).mem = s.mem := by
  have hmod (u : State) (g : Shaft → Shaft) : (u.modShaft n g).mem = u.mem := by simp
  exact (hmod _ _).trans (s.readEntry_keepsShafts n c.pos).mem

theorem State.rereadHead_halted (s : State) (hn : n < 256) (c : Command) (l : List Command) :
    (s.rereadHead n c l).halted n = s.halted n := by
  refine State.halted_of_reg ?_
  rw [State.rereadHead, State.modShaft_reg, (s.readEntry_keepsShafts n c.pos).reg _ (by unfold Reg.sftShaftStat; omega)]

theorem State.rereadHead_decoded (s : State) (n : Nat) (c : Command) (l : List Command) :
    ((s.rereadHead n c l).shaft n).decoded =
      c.reread (s.readEntry n c.pos).2.1 (s.readEntry n c.pos).2.2 :: l := by
  rw [State.rereadHead, State.modShaft_shaft]

/-! ## The obligation -/

/-- Settles O35. Each command comes to a state of its own (`State.enableShaft`, `State.abortShaft`, `State.rereadHead`), and
decoding leaves TAIL (`State.pump_reg`). -/
theorem shaftControl : Obligations.ShaftControl := by
  intro n s hn hup
  refine ⟨fun hoff => ?enable, ?disable, fun v => ⟨fun hcur => ?current, fun hcur => ?other⟩, fun hhalted => ?abort,
    fun hhalted => ?resume⟩
  case enable =>
    obtain ⟨hhead, hdecode, htail⟩ := (s.setFld (Reg.sftShaftCtrl n) Fld.sftShaftCtrlEn 1).emptyRing_regs n
    refine ⟨_, shaftEnable_enables hup hoff, s.enableShaft_eq n, s.enableShaft_regsBut n, s.enableShaft_shaftOn n, ?_, ?_, ?_,
      ?_, ?_, ?_⟩
    · rw [State.enableShaft_reg, hhead]
    · rw [State.enableShaft_reg, hdecode]
    · rw [State.enableShaft_reg, htail]
    · rw [State.enableShaft_shaft]; rfl
    · rw [State.enableShaft_shaft]; rfl
    · rw [State.enableShaft_shaft]; exact List.length_map _
  case disable =>
    exact ⟨_, shaftDisable_disables hup, rfl, s.setFld_regsBut _ _ _, by rw [State.setFld_shaftOn]; rfl⟩
  case current =>
    exact (shaftDoorbell_judged hup hn v).trans (congrArg _ (if_pos hcur))
  case other =>
    refine ⟨_, shaftDoorbell_judged hup hn v, ?_⟩
    dsimp only
    rw [if_neg hcur]
    split
    · have hlt : v % 2 ^ 16 % s.ringSize n < 2 ^ 32 :=
        Nat.lt_of_lt_of_le (Nat.mod_lt _ (s.ringSize_pos n)) ((s.ringSize_le n).trans (by decide))
      rw [State.acceptDoorbell_tail _ hn, Nat.mod_eq_of_lt hlt]
    · have hreg (off : Nat) (h : 0x301000 ≤ off ∧ off < 0x400000) :=
        (State.discardDoorbell_reg (s.noteReserved (Reg.sftDoorbell n) v) (by omega) (by unfold Reg.sftDbBadCnt; omega)).trans
          (s.noteReserved_sft (k := off) _ v (by omega))
      refine ⟨hreg _ (by unfold Reg.sftDoorbell; omega), ?_, ?_, State.shaftOn_of_reg (hreg _ (by unfold Reg.sftShaftCtrl; omega)),
        State.halted_of_reg (hreg _ (by unfold Reg.sftShaftStat; omega)), fun hevent => ?_⟩
      · exact (State.discardDoorbell_keepsShafts _).shafts.trans (s.noteReserved_shafts _ _)
      · rw [State.discardDoorbell_dbBadCnt, s.noteReserved_sft _ v (by decide)]
      · refine State.discardDoorbell_eventStat ?_
        rwa [State.flag, State.fld, s.noteReserved_sft _ v (by decide)]
  case abort =>
    obtain ⟨t, hexec, hmem, hshafts, hregs⟩ := shaftAbort_aborts hup hhalted
    have hreg (off : Nat) (h : off < 0x400000) := (hregs off (by simp [Reg.plgItemDropCnt]; omega)).trans (s.abortShaft_reg n off)
    refine ⟨t, hexec, ?_, ?_, ?_, ?_, hmem.trans (s.abortShaft_mem n)⟩
    · rw [← s.clearHalt_halted n]
      refine State.halted_of_reg ((hreg _ (by unfold Reg.sftShaftStat; omega)).trans (if_neg ?_))
      simp [Reg.sftShaftStat, Reg.sftHead, Reg.sftDecode]
    · rw [State.shaft_of_shafts hshafts, State.abortShaft_decoded]
    · rw [hreg _ (by unfold Reg.sftHead; omega), if_pos (.inl rfl)]
    · rw [hreg _ (by unfold Reg.sftDecode; omega), if_pos (.inr rfl)]
  case resume =>
    have hmem : (s.clearHalt n).mem = s.mem := by simp [State.clearHalt]
    by_cases hagain : ∃ c l, (s.shaft n).rejudge = true ∧ (s.shaft n).decoded = c :: l
    · obtain ⟨c, l, hrejudge, hdecoded⟩ := hagain
      refine ⟨_, shaftResume_rereads hup hhalted hrejudge hdecoded, ?_, ?_, fun c' l' _ hdecoded' => ?_⟩
      · rw [State.rereadHead_halted _ hn, State.clearHalt_halted]
      · rw [State.rereadHead_mem, hmem]
      · obtain ⟨rfl, rfl⟩ := List.cons.inj (hdecoded.symm.trans hdecoded')
        exact ⟨_, State.rereadHead_decoded _ n c l, c.reread_fields _ _⟩
    · have hwaits : ∀ c l, (s.shaft n).rejudge = true → (s.shaft n).decoded ≠ c :: l :=
        fun c l hrejudge hdecoded => hagain ⟨c, l, hrejudge, hdecoded⟩
      exact ⟨_, shaftResume_waits hup hhalted hwaits, s.clearHalt_halted n, hmem,
        fun c l hrejudge hdecoded => absurd hdecoded (hwaits c l hrejudge)⟩

end Sys2Proof.Machine
end

section
/-!
Accesses of an engine (00 R8; 09 R239-R241, R255; 10 R282, R285): what a read changes that succeeds and meets no marked word, and how
a span of HBM is read and written with the translation off.
-/
namespace Sys2Proof.Machine

variable {s t : State} {k : Option Nat} {va pa n v en : Nat} {w : Bool}

/-! ## Writes in parts -/

/-- A write takes of its value and enables what its length covers. -/
theorem memWrite_mod (m : List Host.Cell) (pa n v en : Nat) :
    memWrite m pa n (v % 2 ^ (8 * n)) (en % 2 ^ n) = memWrite m pa n v en := by
  induction n generalizing m pa v en with
  | zero => rfl
  | succ n ih =>
    have hvalue : v % 2 ^ (8 * (n + 1)) / 256 = v / 256 % 2 ^ (8 * n) := by
      rw [Nat.mul_succ, Nat.add_comm, Nat.pow_add, Nat.mod_mul_right_div_self]
    have hfirst : BitVec.ofNat 8 (v % 2 ^ (8 * (n + 1))) = BitVec.ofNat 8 v := by
      simpa using byte_mod (v := v) (n := n + 1) (k := 0) n.succ_pos
    have henable : en % 2 ^ (n + 1) / 2 = en / 2 % 2 ^ n := by
      rw [Nat.pow_succ', Nat.mod_mul_right_div_self]
    have hbit : en % 2 ^ (n + 1) % 2 = en % 2 := Nat.mod_mod_of_dvd _ (Dvd.intro_left _ (Nat.pow_succ ..).symm)
    rw [memWrite, memWrite, hvalue, hfirst, henable, hbit, ih]

/-- A write is that of its first bytes and then of the rest. -/
theorem memWrite_append (m : List Host.Cell) (pa c n v en : Nat) : memWrite m pa (c + n) v en =
    memWrite (memWrite m pa c v en) (pa + c) n (v / 2 ^ (8 * c)) (en / 2 ^ c) := by
  induction c generalizing m pa v en with
  | zero => simp [memWrite]
  | succ c ih =>
    have hvalue : v / 2 ^ (8 * (c + 1)) = v / 256 / 2 ^ (8 * c) := by
      rw [Nat.mul_succ, Nat.add_comm, Nat.pow_add, Nat.div_div_eq_div_mul]
    have henable : en / 2 ^ (c + 1) = en / 2 / 2 ^ c := by rw [Nat.pow_succ', Nat.div_div_eq_div_mul]
    rw [Nat.add_right_comm, memWrite, ih, memWrite, hvalue, henable, Nat.add_assoc, Nat.add_comm 1]

/-! ## Reads that succeed and meet no marked word -/

/-- From `s` to `t` no mark has changed, and no register but the count of bad accesses and the tops of HBM_UE_ADDR, which a read of
the control space changes (00 R8; 09 R265). -/
structure State.KeepsPlain (s t : State) : Prop where
  marks : t.marks = s.marks
  reg : ∀ off, off ≠ Reg.lmpBadAccessCnt → (∀ k, off ≠ Reg.hbmUeAddrTop k) → t.reg off = s.reg off

theorem State.KeepsPlain.refl (s : State) : s.KeepsPlain s := ⟨rfl, fun _ _ _ => rfl⟩

theorem State.KeepsPlain.of_regs (hmarks : t.marks = s.marks) (hregs : t.regs = s.regs) : s.KeepsPlain t :=
  ⟨hmarks, fun off _ _ => State.reg_of_regs hregs off⟩

theorem State.KeepsPlain.trans {u : State} (h : s.KeepsPlain t) (g : t.KeepsPlain u) : s.KeepsPlain u :=
  ⟨g.marks.trans h.marks, fun off hbad htop => (g.reg off hbad htop).trans (h.reg off hbad htop)⟩

/-- The state that a read answers beside its value, stated apart for the kernel. -/
theorem State.KeepsPlain.fst {β : Type} (b : β) (h : s.KeepsPlain t) : s.KeepsPlain (t, b).1 := h

theorem State.KeepsPlain.xlate (h : s.KeepsPlain t) : t.flag Reg.skpCtrl Fld.skpCtrlXlate = s.flag Reg.skpCtrl Fld.skpCtrlXlate := by
  rw [State.flag, State.fld, h.reg _ (by decide) fun k => by unfold Reg.skpCtrl Reg.hbmUeAddrTop; omega]
  rfl

theorem State.KeepsPlain.marked (h : s.KeepsPlain t) (pa n : Nat) : t.marked pa n = s.marked pa n := by
  rw [State.marked, h.marks]
  rfl

theorem State.touch_keepsPlain (s : State) (pa : Nat) : s.KeepsPlain (s.touch pa) := by
  unfold State.touch
  split <;> exact .of_regs rfl rfl

/-! ### The control space (00 R8; 19 R501) -/

theorem State.badAccess_keepsPlain (s : State) : s.KeepsPlain (s.bump Reg.lmpBadAccessCnt) :=
  ⟨rfl, fun _ hbad _ => s.bump_reg_ne hbad⟩

theorem State.latchTop_keepsPlain (s : State) (h : Store HbmCtl) (k v : Nat) :
    s.KeepsPlain ({ s with hbms := h }.setReg (Reg.hbmUeAddrTop k) v) :=
  ⟨rfl, fun _ _ htop => State.setReg_reg_ne { s with hbms := h } v (htop k)⟩

theorem State.readReg_keepsPlain (s : State) (off : Nat) : s.KeepsPlain (s.readReg off).1 := by
  unfold State.readReg
  split
  · exact .refl s
  split
  · exact s.badAccess_keepsPlain
  dsimp only
  split
  · exact s.latchTop_keepsPlain _ _ _
  · unfold State.unlatchTop
    split
    · exact s.latchTop_keepsPlain _ _ _
    · exact .refl s

theorem State.ctlRead_keepsPlain (s : State) (off n : Nat) : s.KeepsPlain (s.ctlRead off n).1 := by
  unfold State.ctlRead
  split
  · exact .refl s
  split
  · exact .refl s
  split
  · exact s.readReg_keepsPlain off
  split
  · exact (s.readReg_keepsPlain off).trans (State.readReg_keepsPlain _ _)
  · exact s.badAccess_keepsPlain

/-! ### Translation (10 R282) -/

/-- A marked entry stops a walk, so one that ends well has met none. -/
theorem State.walk_unmarked {e : TlbEntry} {level table a : Nat} {r : Res TlbEntry × Bool × List Nat}
    (h : s.walk va table w level = r) (hok : r.1 = .ok e) (ha : a ∈ r.2.2) : s.marked a 8 = false := by
  induction level generalizing table w r with
  | zero => subst h; cases hok
  | succ level ih =>
    unfold State.walk at h
    extract_lets sh idx ea entry w' addr at h
    split at h
    · subst h; cases hok
    split at h
    · subst h; cases hok
    next hmark =>
    have hea : s.marked ea 8 = false := Bool.eq_false_iff.2 hmark
    split at h
    · subst h; cases hok
    split at h
    · subst h; cases hok
    split at h
    · subst h; exact List.mem_singleton.1 ha ▸ hea
    split at h
    · subst h; exact List.mem_singleton.1 ha ▸ hea
    · subst h
      rcases List.mem_cons.1 ha with rfl | hrest
      · exact hea
      · exact ih rfl hok hrest

theorem State.readEntries_keepsPlain {l : List Nat} (h : ∀ a ∈ l, s.marked a 8 = false) : s.KeepsPlain (s.readEntries l) := by
  induction l generalizing s with
  | nil => exact .refl s
  | cons a l ih =>
    have hfirst : s.readEntries (a :: l) = (s.touch a).readEntries l := by
      simp [State.readEntries, h a List.mem_cons_self]
    have htouch := s.touch_keepsPlain a
    rw [hfirst]
    exact htouch.trans (ih fun b hb => (htouch.marked b 8).trans (h b (List.mem_cons_of_mem _ hb)))

theorem State.tlbPut_keepsPlain (s : State) (k : Option Nat) (e : TlbEntry) : s.KeepsPlain (s.tlbPut k e) := by
  unfold State.tlbPut
  split <;> exact .of_regs rfl rfl

theorem State.xlate_keepsPlain (h : s.xlate k va w = (t, .ok pa)) : s.KeepsPlain t := by
  unfold State.xlate at h
  split at h
  · split at h
    · split at h
      · cases h; exact .refl s
      · cases h
    · cases h
  split at h
  · cases h
  extract_lets cached r s' at h
  split at h
  · cases h
  next e hr =>
  have hread : s.KeepsPlain s' := by
    refine State.readEntries_keepsPlain fun a ha => ?_
    cases hcached : cached with
    | some x =>
      have hnone : r.2.2 = [] := by simp only [r, hcached]
      exact absurd (hnone ▸ ha) List.not_mem_nil
    | none => exact State.walk_unmarked (by simp only [r, hcached]; rfl) hr ha
  split at h
  · exact nomatch (Prod.mk.inj h).2
  extract_lets pa' at h
  split at h
  · exact (Prod.mk.inj h).1 ▸ hread.trans (s'.tlbPut_keepsPlain _ _)
  · cases h

theorem State.xlateSpan_keepsPlain {fuel : Nat} {l : List (Nat × Nat)} (h : s.xlateSpan k va n w fuel = (t, .ok l)) :
    s.KeepsPlain t := by
  induction fuel generalizing s va n l with
  | zero => cases h; exact .refl _
  | succ fuel ih =>
    unfold State.xlateSpan at h
    dsimp only at h
    split at h
    · cases h; exact .refl _
    split at h
    · cases h
    next hfirst =>
    split at h
    · cases h
    next hrest =>
    cases h
    exact (State.xlate_keepsPlain hfirst).trans (ih hrest)

/-! ### Reads of an engine -/

theorem State.readMem_keepsPlain (h : (s.readMem pa n).2.2 = false) : s.KeepsPlain (s.readMem pa n).1 := by
  cases hmark : s.marked pa n with
  | true => simp [State.readMem, hmark] at h
  | false => rw [State.readMem_unmarked hmark]; exact .refl s

theorem State.readRuns_keepsPlain {l : List (Nat × Nat)} {r : State × Nat × Bool} (h : s.readRuns l = r) (hr : r.2.2 = false) :
    s.KeepsPlain r.1 := by
  induction l generalizing s r with
  | nil => subst h; exact .refl s
  | cons run l ih =>
    unfold State.readRuns at h
    extract_lets ctl first rest at h
    subst h
    obtain ⟨hplain, hrest⟩ := Bool.or_eq_false_iff.1 hr
    have hfirst : s.KeepsPlain first.1 := by
      revert hplain
      unfold first
      split
      · exact fun _ => .fst _ (s.ctlRead_keepsPlain _ _)
      · exact State.readMem_keepsPlain
    exact .fst _ ((hfirst.trans (first.1.touch_keepsPlain _)).trans (ih (r := rest) rfl hrest))

theorem State.devRead_keepsPlain {v : Nat} (h : s.devRead k va n = (t, .ok (v, false))) : s.KeepsPlain t := by
  unfold State.devRead State.devRuns at h
  split at h
  · cases h
  next hruns =>
  split at hruns
  · cases hruns
  next hspan =>
  split at hruns
  · cases hruns
  cases hruns
  obtain ⟨rfl, hread⟩ := Prod.mk.inj h
  injection hread with hread
  exact (State.xlateSpan_keepsPlain hspan).trans (State.readRuns_keepsPlain rfl (congrArg Prod.snd hread))

theorem State.readDesc_keepsPlain {d : TensorDesc} (h : s.readDesc k va = (t, some (d, false))) : s.KeepsPlain t := by
  unfold State.readDesc at h
  split at h
  · cases h
  next u v bad hread =>
  obtain ⟨rfl, hdesc⟩ := Prod.mk.inj h
  split at hdesc
  · obtain rfl : bad = false := congrArg Prod.snd (Option.some.inj hdesc)
    exact State.devRead_keepsPlain hread
  · cases hdesc

/-! ## Spans of HBM (09 Table 9.1, R240) -/

/-- The first address past HBM. -/
def hbmEnd : Nat := 0x6000000000

theorem State.paKind_hbm (h : pa < hbmEnd) (s : State) : s.paKind pa = .hbm (s.hbmStack pa) := if_pos h

theorem State.marked_of_noMarks (h : s.marks = []) (pa n : Nat) : s.marked pa n = false := by rw [State.marked, h]; rfl

theorem State.touch_hbm (h : pa < hbmEnd) (s : State) : s.touch pa = { s with hbmUsed := true } := by
  rw [State.touch, State.paKind_hbm h]

/-- The parts of a span, page by page. -/
def pageRuns : Nat → Nat → Nat → List (Nat × Nat)
  | _, _, 0 => []
  | va, n, fuel + 1 =>
    if n = 0 then [] else
      (va, min n (2 ^ 16 - va % 2 ^ 16)) ::
        pageRuns (va + min n (2 ^ 16 - va % 2 ^ 16)) (n - min n (2 ^ 16 - va % 2 ^ 16)) fuel

theorem pageRuns_lt {fuel : Nat} {r : Nat × Nat} (h : r ∈ pageRuns va n fuel) : r.1 < va + n := by
  induction fuel generalizing va n with
  | zero => cases h
  | succ fuel ih =>
    unfold pageRuns at h
    split at h
    · cases h
    rcases List.mem_cons.1 h with rfl | hrest
    · dsimp only; omega
    · have := ih hrest
      omega

/-- What is left of a span behind its first page fits in the pages that are left. -/
theorem pages_left {fuel : Nat} (h : n = 0 ∨ va % 2 ^ 16 + n ≤ 2 ^ 16 * (fuel + 1)) :
    n - min n (2 ^ 16 - va % 2 ^ 16) = 0 ∨
    (va + min n (2 ^ 16 - va % 2 ^ 16)) % 2 ^ 16 + (n - min n (2 ^ 16 - va % 2 ^ 16)) ≤ 2 ^ 16 * fuel := by
  omega

theorem spanPages_enough (va n : Nat) : n = 0 ∨ va % 2 ^ 16 + n ≤ 2 ^ 16 * spanPages n := by
  unfold spanPages
  omega

theorem State.readLE_append (s : State) (pa c n : Nat) :
    s.readLE pa (c + n) = s.readLE pa c + 2 ^ (8 * c) * s.readLE (pa + c) n := by
  induction c generalizing pa with
  | zero => simp [State.readLE]
  | succ c ih =>
    rw [Nat.add_right_comm, State.readLE, ih, State.readLE, Nat.mul_succ, Nat.pow_add, Nat.add_assoc pa, Nat.add_comm 1]
    ring

section Hbm
variable (hmarks : s.marks = []) (hend : va + n ≤ hbmEnd)
include hmarks hend

theorem State.readRuns_hbm {fuel : Nat} (hfuel : n = 0 ∨ va % 2 ^ 16 + n ≤ 2 ^ 16 * fuel) :
    ∃ b, s.readRuns (pageRuns va n fuel) = ({ s with hbmUsed := b }, s.readLE va n, false) := by
  induction fuel generalizing s va n with
  | zero =>
    obtain rfl : n = 0 := by omega
    exact ⟨s.hbmUsed, rfl⟩
  | succ fuel ih =>
    unfold pageRuns
    split
    · next hn => subst hn; exact ⟨s.hbmUsed, rfl⟩
    have hleft := pages_left hfuel
    have hsplit : min n (2 ^ 16 - va % 2 ^ 16) + (n - min n (2 ^ 16 - va % 2 ^ 16)) = n := by omega
    generalize min n (2 ^ 16 - va % 2 ^ 16) = c at hleft hsplit ⊢
    have hva : va < hbmEnd := by omega
    obtain ⟨b, hrest⟩ := ih (s := { s with hbmUsed := true }) (va := va + c) hmarks (by omega) hleft
    have hbytes : State.readLE { s with hbmUsed := true } (va + c) (n - c) = s.readLE (va + c) (n - c) :=
      State.readLE_of_mem (by rfl) _ _
    rw [hbytes] at hrest
    have hvalue : s.readLE va c + 2 ^ (8 * c) * s.readLE (va + c) (n - c) = s.readLE va n := by
      rw [← State.readLE_append, hsplit]
    refine ⟨b, ?_⟩
    simp only [State.readRuns, State.paKind_hbm hva, State.readMem_unmarked (State.marked_of_noMarks hmarks va c),
      State.touch_hbm hva, hrest, hvalue, Bool.or_self]

theorem State.writeRuns_hbm {fuel : Nat} (hfuel : n = 0 ∨ va % 2 ^ 16 + n ≤ 2 ^ 16 * fuel) (v en : Nat) :
    ∃ b, s.writeRuns (pageRuns va n fuel) v en = { s with mem := memWrite s.mem va n v en, hbmUsed := b } := by
  induction fuel generalizing s va n v en with
  | zero =>
    obtain rfl : n = 0 := by omega
    exact ⟨s.hbmUsed, rfl⟩
  | succ fuel ih =>
    unfold pageRuns
    split
    · next hn => subst hn; exact ⟨s.hbmUsed, rfl⟩
    have hleft := pages_left hfuel
    have hsplit : min n (2 ^ 16 - va % 2 ^ 16) + (n - min n (2 ^ 16 - va % 2 ^ 16)) = n := by omega
    generalize min n (2 ^ 16 - va % 2 ^ 16) = c at hleft hsplit ⊢
    have hva : va < hbmEnd := by omega
    obtain ⟨b, hrest⟩ := ih (s := { s with mem := memWrite s.mem va c v en, hbmUsed := true }) (va := va + c) hmarks (by omega)
      hleft (v / 2 ^ (8 * c)) (en / 2 ^ c)
    have hwhole := memWrite_append s.mem va c (n - c) v en
    rw [hsplit] at hwhole
    refine ⟨b, ?_⟩
    simp only [State.writeRuns, State.paKind_hbm hva, State.writeMem_unmarked (State.marked_of_noMarks hmarks va c), memWrite_mod,
      State.touch_hbm hva, hrest, hwhole]

end Hbm

section Engine
variable (hoff : s.flag Reg.skpCtrl Fld.skpCtrlXlate = false) (hend : va + n ≤ hbmEnd)
include hoff hend

theorem State.xlateSpan_hbm (w : Bool) (fuel : Nat) : s.xlateSpan k va n w fuel = (s, .ok (pageRuns va n fuel)) := by
  induction fuel generalizing va n with
  | zero => rfl
  | succ fuel ih =>
    unfold State.xlateSpan pageRuns
    split
    · rfl
    · next hn =>
      have hva : va < hbmEnd := by omega
      have hreach : s.reachable (ownStope k) va 1 = true := by
        simp [State.reachable, State.paKind_hbm hva]
      have hlow : va < 2 ^ 48 := by unfold hbmEnd at hva; omega
      have hfirst : s.xlate k va w = (s, .ok va) := by
        unfold State.xlate
        rw [hoff]
        exact (if_pos rfl).trans ((if_pos hlow).trans (if_pos hreach))
      simp only [hfirst, ih (va := va + min n (2 ^ 16 - va % 2 ^ 16)) (n := n - min n (2 ^ 16 - va % 2 ^ 16)) (by omega)]

theorem State.devRuns_hbm (w : Bool) : s.devRuns k va n w = (s, .ok (pageRuns va n (spanPages n))) := by
  have hcxl (p : Nat) : s.cxlRequests p (pageRuns va n (spanPages n)) = 0 := by
    rw [State.cxlRequests, ← List.sum_eq_foldl, List.sum_eq_zero]
    intro x hx
    obtain ⟨r, hr, rfl⟩ := List.mem_map.1 hx
    rw [State.paKind_hbm (Nat.lt_of_lt_of_le (pageRuns_lt hr) hend), if_neg nofun]
  have hup : s.cxlDown (pageRuns va n (spanPages n)) = none := by simp [State.cxlDown, hcxl]
  simp only [State.devRuns, State.xlateSpan_hbm hoff hend, hup]

variable (hmarks : s.marks = [])
include hmarks

theorem State.devRead_hbm (k : Option Nat) : ∃ b, s.devRead k va n = ({ s with hbmUsed := b }, .ok (s.readLE va n, false)) := by
  obtain ⟨b, hread⟩ := State.readRuns_hbm hmarks hend (spanPages_enough va n)
  exact ⟨b, by simp only [State.devRead, State.devRuns_hbm hoff hend, hread]⟩

theorem State.devWrite_hbm (k : Option Nat) (v : Nat) : ∃ b, s.devWrite k va n v =
    ({ s with mem := memWrite s.mem va n v (allBytes n), hbmUsed := b }, .ok ()) := by
  obtain ⟨b, hwrite⟩ := State.writeRuns_hbm hmarks hend (spanPages_enough va n) v (allBytes n)
  exact ⟨b, by simp only [State.devWrite, State.devRuns_hbm hoff hend, hwrite]⟩

end Engine

end Sys2Proof.Machine
end

section
/-!
The start of NOP, TALLY, PHASE, ASSAY_CLEAR (08 R210, R213) and STEP_END (15 R421), and the obligation.
-/
namespace Sys2Proof.Machine

variable {s t : State} {n : Nat} {c : Command} {d : TensorDesc}

/-! ## Commands whose work is done at once -/

/-- A command that judges its payload alone, and that no rule refuses, starts with its work done. -/
theorem State.startCommand_done {op : Nat} {causes : State → Command → List (Bool × Nat)} (h : s.engineHead n op c)
    (hsound : firstCause (causes s c) = none) :
    s.startCommand n op (fun s c => (s, judge (causes s c) (.start (s.startedAs n c .done)))) =
      s.beginCommand n (s.startedAs n c .done) :=
  State.startCommand_start h (by simp only [judge, hsound])

/-- Such a start changes its shaft alone. -/
theorem State.beginCommand_done (s : State) (n : Nat) (c : Command) :
    startsDone n c s (s.beginCommand n (s.startedAs n c .done)) ∧
    s.beginCommand n (s.startedAs n c .done) =
      { s with shafts := (s.beginCommand n (s.startedAs n c .done)).shafts } :=
  ⟨State.beginCommand_startsDone (x := s.startedAs n c .done) rfl rfl rfl rfl, rfl⟩

theorem nop_starts (h : s.engineHead n 1 c) (hrsv : c.get 16 48 = 0) :
    exec (.nop n) s = .next (s.beginCommand n (s.startedAs n c .done)) :=
  congrArg Host.Outcome.next (State.startCommand_done (causes := fun _ c => [(decide (c.get 16 48 ≠ 0), 2)]) h
    (by simp [firstCause, hrsv]))

theorem tally_starts (h : s.engineHead n 5 c) (hop : c.get 28 1 < 2) (hrsv : c.get 29 35 = 0) :
    exec (.tally n) s = .next (s.beginCommand n (s.startedAs n c .done)) := by
  have hsound : ¬(c.get 28 1 / 2 ≠ 0 ∨ c.get 29 35 ≠ 0) := by omega
  exact congrArg Host.Outcome.next (State.startCommand_done
    (causes := fun _ c => [(decide (c.get 28 1 / 2 ≠ 0 ∨ c.get 29 35 ≠ 0), 2)]) h
    (by simp only [firstCause, decide_eq_false hsound]; rfl))

theorem phase_starts (h : s.engineHead n 6 c) (hphase : c.get 16 1 ≤ 63) (hedge : c.get 17 1 ≤ 1) (hrsv : c.get 18 2 = 0)
    (hrsv' : c.get 24 40 = 0) : exec (.phase n) s = .next (s.beginCommand n (s.startedAs n c .done)) := by
  have hsound : ¬(63 < c.get 16 1 ∨ 1 < c.get 17 1 ∨ c.get 18 2 ≠ 0 ∨ c.get 24 40 ≠ 0) := by omega
  exact congrArg Host.Outcome.next (State.startCommand_done
    (causes := fun _ c => [(decide (63 < c.get 16 1 ∨ 1 < c.get 17 1 ∨ c.get 18 2 ≠ 0 ∨ c.get 24 40 ≠ 0), 7)]) h
    (by simp only [firstCause, decide_eq_false hsound]; rfl))

/-! ## ASSAY_CLEAR (Table 8.3) -/

/-- The length of an assay record: block bytes follow its head but for a block-scaled tensor (03 Table 3.4). -/
def TensorDesc.recordLen (d : TensorDesc) : Nat := if d.mx then 16 else 16 + (d.count + 63) / 64

/-- A cleared record, with the bits of FLAGS that stand: MAX_EXP = 0x8000, FLAGS [2:0] = 0, the rest 0 (Table 8.3). -/
def clearedRecord (old : Nat) : Nat := 0x8000 + getBytes old 2 1 / 8 * 8 * 2 ^ 16

theorem TensorDesc.recordLen_bounds (d : TensorDesc) : 16 ≤ d.recordLen ∧ d.recordLen ≤ 16 + (d.count + 63) / 64 := by
  unfold TensorDesc.recordLen
  split <;> omega

theorem clearedRecord_lt (old : Nat) : clearedRecord old < 2 ^ (8 * 16) := by
  have hflags : getBytes old 2 1 < 256 := Nat.mod_lt _ (by decide)
  unfold clearedRecord
  omega

/-- With the translation off the record of a tensor in HBM is cleared, and nothing else changes. -/
theorem State.assayClear_hbm (hoff : s.flag Reg.skpCtrl Fld.skpCtrlXlate = false) (hmarks : s.marks = [])
    (hassay : d.assay ≠ 0) (hend : d.assay + d.recordLen ≤ hbmEnd) : ∃ b, s.assayClear none d = { s with
      mem := memWrite s.mem d.assay d.recordLen (clearedRecord (s.readLE d.assay 16)) (allBytes d.recordLen), hbmUsed := b } := by
  have hlen := d.recordLen_bounds
  obtain ⟨b, hread⟩ := State.devRead_hbm (va := d.assay) (n := 16) hoff (by omega) hmarks none
  obtain ⟨b', hwrite⟩ := State.devWrite_hbm (s := { s with hbmUsed := b }) hoff hend hmarks none
    (clearedRecord (s.readLE d.assay 16))
  refine ⟨b', ?_⟩
  unfold State.assayClear
  rw [if_neg hassay, hread]
  dsimp only
  rw [← TensorDesc.recordLen, ← clearedRecord, hwrite]

/-- The clear changes memory alone, and of it the record that the descriptor names. -/
theorem State.assayClear_eq (h : d.assay = 0 ∨ s.flag Reg.skpCtrl Fld.skpCtrlXlate = false ∧ s.marks = [] ∧
    d.assay + 16 + (d.count + 63) / 64 ≤ hbmEnd) : ∃ m b, s.assayClear none d = { s with mem := m, hbmUsed := b } ∧
      (d.assay = 0 → m = s.mem) ∧ (d.assay ≠ 0 → s.marks = [] ∧
        m = memWrite s.mem d.assay d.recordLen (clearedRecord (s.readLE d.assay 16)) (allBytes d.recordLen)) := by
  by_cases hassay : d.assay = 0
  · exact ⟨s.mem, s.hbmUsed, if_pos hassay, fun _ => rfl, fun h => absurd hassay h⟩
  · obtain ⟨hoff, hmarks, hend⟩ := h.resolve_left hassay
    have hlen := d.recordLen_bounds
    obtain ⟨b, hclear⟩ := State.assayClear_hbm hoff hmarks hassay (by omega)
    exact ⟨_, b, hclear, fun h => absurd h hassay, fun _ => ⟨hmarks, rfl⟩⟩

/-- What memory holds once a record is cleared. -/
theorem clearedRecord_stands {old : Nat} (hmarks : s.marks = [])
    (hmem : t.mem = memWrite s.mem d.assay d.recordLen (clearedRecord old) (allBytes d.recordLen)) :
    t.readLE d.assay d.recordLen = clearedRecord old ∧
    ∀ a, ¬(d.assay ≤ a ∧ a < d.assay + d.recordLen) → t.byte a = s.byte a := by
  have hmark := State.marked_of_noMarks hmarks d.assay d.recordLen
  have hwrite : t.mem = (s.writeMem d.assay d.recordLen (clearedRecord old) (allBytes d.recordLen)).mem := by
    rw [State.writeMem_unmarked hmark, hmem]
  have hlt : clearedRecord old < 2 ^ (8 * d.recordLen) := Nat.lt_of_lt_of_le (clearedRecord_lt old)
    (Nat.pow_le_pow_right (by decide) (Nat.mul_le_mul_left 8 d.recordLen_bounds.1))
  refine ⟨?_, fun a ha => ?_⟩
  · rw [State.readLE_of_mem hwrite, State.writeMem_readLE hmark, Nat.mod_eq_of_lt hlt]
  · rw [State.byte_of_mem hwrite, State.writeMem_byte_outside hmark _ _ ha]

theorem assayClear_starts {s1 : State} (h : s.engineHead n 4 c) (hrsv : c.get 24 40 = 0)
    (hread : s.readDesc none (c.get 16 8) = (s1, some (d, false))) (hok : d.ok = true) :
    exec (.assayClear n) s = .next ((s1.assayClear none d).beginCommand n (s.startedAs n c .done)) := by
  refine congrArg Host.Outcome.next (State.startCommand_start h ?_)
  simp [State.readDescs, hread, hok, hrsv, firstCause]

/-! ## STEP_END (15 R421) -/

/-- A STEP_END of a step that ends with `nend` of them has started. -/
def StepRec.endBegun (nend : Nat) (r : StepRec) : StepRec := { r with nend, endStarted := r.endStarted + 1 }

/-- The started STEP_END waits for the tickets of its step and of those before it (15 R414). -/
def State.startedEnd (s : State) (n : Nat) (c : Command) : Started :=
  { s.startedAs n c .done with step := some ⟨s.seqNo, c.get 16 8⟩, covers := s.coverOf ⟨s.seqNo, c.get 16 8⟩ }

theorem stepEnd_starts {r : StepRec} (h : s.engineHead n 7 c) (hrsv : c.get 26 38 = 0)
    (hstep : s.step? ⟨s.seqNo, c.get 16 8⟩ = some r) (hunsealed : r.unsealed = true) (hpos : 0 < c.get 24 2)
    (hmax : c.get 24 2 ≤ 256) (hleft : r.endStarted < c.get 24 2) (hsame : r.endStarted ≠ 0 → r.nend = c.get 24 2) :
    exec (.stepEnd n) s = .next
      ((s.modStep ⟨s.seqNo, c.get 16 8⟩ (StepRec.endBegun (c.get 24 2))).beginCommand n (s.startedEnd n c)) := by
  have hsound : (!r.unsealed || decide (c.get 24 2 = 0) || decide (256 < c.get 24 2) ||
      (decide (r.endStarted ≠ 0) && decide (r.nend ≠ c.get 24 2)) || decide (c.get 24 2 ≤ r.endStarted)) = false := by
    simp only [Bool.or_eq_false_iff, Bool.and_eq_false_iff, decide_eq_false_iff_not, hunsealed, Bool.not_true, true_and]
    refine ⟨⟨⟨by omega, by omega⟩, ?_⟩, by omega⟩
    by_cases hfirst : r.endStarted = 0
    · exact .inl (not_not_intro hfirst)
    · exact .inr (not_not_intro (hsame hfirst))
  refine congrArg Host.Outcome.next (State.startCommand_start h ?_)
  simp only [hstep, hsound, hrsv, firstCause]
  rfl

/-! ## The obligation -/

/-- Settles O36. A command judges its payload and starts (`State.startCommand_start`); the descriptor that ASSAY_CLEAR names is
read without touching memory (`State.KeepsShafts`) or the translation (`State.KeepsPlain`). -/
theorem commandsStart : Obligations.CommandsStart := by
  refine ⟨?nop, ?tally, ?phase, ?assayClear, ?stepEnd⟩
  case nop =>
    intro n s c hc hread hhdr hop hrsv
    have h := State.engineHead_of_shaftOp hc hread hhdr hop (by decide)
    exact ⟨_, nop_starts h hrsv, s.beginCommand_done n c⟩
  case tally =>
    intro n s c hc hread hhdr hop hset hrsv
    have h := State.engineHead_of_shaftOp hc hread hhdr hop (by decide)
    exact ⟨_, tally_starts h hset hrsv, s.beginCommand_done n c⟩
  case phase =>
    intro n s c hc hread hhdr hop hphase hedge hrsv hrsv'
    have h := State.engineHead_of_shaftOp hc hread hhdr hop (by decide)
    exact ⟨_, phase_starts h hphase hedge hrsv hrsv', s.beginCommand_done n c⟩
  case assayClear =>
    intro n s s1 c d hc hread hhdr hop hrsv hdesc hok hassay
    have h := State.engineHead_of_shaftOp hc hread hhdr hop (by decide)
    have hkeep := s.readDesc_keepsShafts none (c.get 16 8)
    rw [hdesc] at hkeep
    have hplain := State.readDesc_keepsPlain hdesc
    obtain ⟨m, b, hclear, hnone, hrecord⟩ := State.assayClear_eq (s := s1) (hassay.imp_right fun ⟨hoff, hmarks, hend⟩ =>
      ⟨hplain.xlate.trans hoff, hplain.marks.trans hmarks, hend⟩)
    have hexec := assayClear_starts h hrsv hdesc hok
    rw [hclear] at hexec
    have hmem := State.beginCommand_mem { s1 with mem := m, hbmUsed := b } n (s.startedAs n c .done)
    refine ⟨_, hexec, State.beginCommand_startsDone (x := s.startedAs n c .done) rfl ?_ ?_ ?_, fun hzero => ?_, fun hpos => ?_⟩
    · exact congrArg Shaft.decoded (State.shaft_of_shafts (t := { s1 with mem := m, hbmUsed := b }) hkeep.shafts n)
    · exact congrArg Shaft.started (State.shaft_of_shafts (t := { s1 with mem := m, hbmUsed := b }) hkeep.shafts n)
    · have hregs : State.reg { s1 with mem := m, hbmUsed := b } (Reg.sftHead n) = s1.reg (Reg.sftHead n) :=
        State.reg_of_regs (by rfl) _
      rw [hregs, hplain.reg _ (by unfold Reg.sftHead Reg.lmpBadAccessCnt; omega)
        fun k => by unfold Reg.sftHead Reg.hbmUeAddrTop; omega]
    · rw [hmem, hnone hzero, hkeep.mem]
    · obtain ⟨hmarks, hwritten⟩ := hrecord hpos
      obtain ⟨hreads, hrest⟩ := clearedRecord_stands (d := d) hmarks (hmem.trans hwritten)
      rw [State.readLE_of_mem hkeep.mem] at hreads
      exact ⟨hreads, fun a ha => (hrest a ha).trans (State.byte_of_mem hkeep.mem a)⟩
  case stepEnd =>
    intro n s c r hc hread hhdr hop hrsv hstep hunsealed hpos hmax hleft hsame
    have h := State.engineHead_of_shaftOp hc hread hhdr hop (by decide)
    have hmod := s.modStep_step? ⟨s.seqNo, c.get 16 8⟩ (StepRec.endBegun (c.get 24 2)) fun _ => rfl
    rw [hstep] at hmod
    exact ⟨_, _, stepEnd_starts h hrsv hstep hunsealed hpos hmax hleft hsame,
      State.beginCommand_startsDone (x := s.startedEnd n c) rfl rfl rfl rfl, rfl, hmod, rfl, rfl⟩

end Sys2Proof.Machine
end

section
/-!
What the code's finds, an event and an aborted step leave as they stood (09 R254, R255, R262; 15 R416): the crews, the locked
sequences, and the rows of HBM that are repaired, held in a row cache or reported.
-/
namespace Sys2Proof.Machine

/-- HBM_RETIRE_CNT, or HBM_SPARE_CNT of a stack (Table 9.7). -/
abbrev HbmRepairReg (off : Nat) : Prop := off = 0xa00004 ∨ off / 0x100000 = 10 ∧ off % 0x40 = 0x14

/-- From `s` to `t` the crews, the locked sequences, and the repairs of HBM with their counters stand. -/
structure State.KeepsRepairs (s t : State) : Prop where
  crews : t.crews = s.crews
  locks : t.locks = s.locks
  repairs : t.repairs = s.repairs
  retired : t.retired = s.retired
  cached : ∀ k, (t.hbm k).cached = (s.hbm k).cached
  reg : ∀ off, HbmRepairReg off → t.reg off = s.reg off

variable {s t u : State}

theorem State.KeepsRepairs.refl (s : State) : s.KeepsRepairs s := ⟨rfl, rfl, rfl, rfl, fun _ => rfl, fun _ _ => rfl⟩

theorem State.KeepsRepairs.trans (h : s.KeepsRepairs t) (g : t.KeepsRepairs u) : s.KeepsRepairs u :=
  ⟨g.crews.trans h.crews, g.locks.trans h.locks, g.repairs.trans h.repairs, g.retired.trans h.retired,
   fun k => (g.cached k).trans (h.cached k), fun off ho => (g.reg off ho).trans (h.reg off ho)⟩

theorem State.KeepsRepairs.foldl {α : Type} {f : State → α → State} (hf : ∀ (s : State) (a : α), s.KeepsRepairs (f s a))
    (l : List α) (s : State) : s.KeepsRepairs (l.foldl f s) := by
  induction l generalizing s with
  | nil => exact .refl s
  | cons a l ih => exact (hf s a).trans (ih _)

theorem State.KeepsRepairs.ite {p : Prop} [Decidable p] (ht : s.KeepsRepairs t) (hu : s.KeepsRepairs u) :
    s.KeepsRepairs (if p then t else u) := by
  split
  · exact ht
  · exact hu

/-- What changes beside the crews, the locked sequences, the controllers and the registers leaves them. -/
theorem State.KeepsRepairs.elsewhere (h : s.KeepsRepairs t) (hcrews : u.crews = t.crews := by rfl)
    (hlocks : u.locks = t.locks := by rfl) (hrepairs : u.repairs = t.repairs := by rfl)
    (hretired : u.retired = t.retired := by rfl) (hhbms : u.hbms = t.hbms := by rfl) (hregs : u.regs = t.regs := by rfl) :
    s.KeepsRepairs u :=
  h.trans ⟨hcrews, hlocks, hrepairs, hretired, fun k => by rw [State.hbm, hhbms]; rfl, fun off _ => State.reg_of_regs hregs off⟩

/-! ## Registers, controllers and events -/

theorem State.KeepsRepairs.setReg (h : s.KeepsRepairs t) {off : Nat} (v : Nat) (ho : ¬HbmRepairReg off) :
    s.KeepsRepairs (t.setReg off v) :=
  h.trans ⟨rfl, rfl, rfl, rfl, fun _ => rfl, fun _ hr => t.setReg_reg_ne v fun e => ho (e ▸ hr)⟩

theorem State.KeepsRepairs.bump (h : s.KeepsRepairs t) {off : Nat} (ho : ¬HbmRepairReg off) : s.KeepsRepairs (t.bump off) :=
  h.setReg _ ho

theorem State.KeepsRepairs.bumpIf (h : s.KeepsRepairs t) (b : Bool) {off : Nat} (ho : ¬HbmRepairReg off) :
    s.KeepsRepairs (t.bumpIf b off) := .ite (h.bump ho) h

theorem State.hbm_setHbm (s : State) (k j : Nat) (c : HbmCtl) : (s.setHbm k c).hbm j = if j = k then c else s.hbm j :=
  Store.get_set _ _ _ _ _

@[simp] theorem State.setHbm_hbm (s : State) (k : Nat) (c : HbmCtl) : (s.setHbm k c).hbm k = c := Store.get_set_self _ _ _ _

/-- A controller whose row cache stands may change. -/
theorem State.KeepsRepairs.setHbm (h : s.KeepsRepairs t) {k : Nat} {c : HbmCtl} (hc : c.cached = (t.hbm k).cached) :
    s.KeepsRepairs (t.setHbm k c) := by
  refine h.trans ⟨rfl, rfl, rfl, rfl, fun j => ?_, fun _ _ => rfl⟩
  rw [State.hbm_setHbm]
  split
  · next e => rw [hc, e]
  · rfl

theorem State.msix_keepsRepairs (s : State) (vec : Nat) : s.KeepsRepairs (s.msix vec) := by
  unfold State.msix
  split <;> exact (State.KeepsRepairs.refl s).elsewhere

theorem State.raise_keepsRepairs (s : State) (e : Nat) : s.KeepsRepairs (s.raise e) := by
  have hset : s.KeepsRepairs (s.hwSet Reg.lmpEventStat (2 ^ e)) :=
    (State.KeepsRepairs.setReg (off := Reg.lmpEventStat) (.refl s) _ (by decide)).elsewhere
  exact .ite (hset.trans (State.msix_keepsRepairs _ _)) hset

theorem State.KeepsRepairs.raiseIf (h : s.KeepsRepairs t) (b : Bool) (e : Nat) : s.KeepsRepairs (t.raiseIf b e) :=
  .ite (h.trans (t.raise_keepsRepairs e)) h

/-! ## Marked words (09 R255) -/

/-- An address of a face is one of the 144 stopes (Table 9.1). -/
theorem State.paKind_face_lt {pa st : Nat} (h : s.paKind pa = .face st) : st < 144 := by
  unfold State.paKind at h
  dsimp only at h
  split_ifs at h
  obtain rfl : _ = st := PaKind.face.inj h
  omega

/-- An address of a stockpile is one of the two levels (Table 9.1). -/
theorem State.paKind_stockpile_lt {pa l : Nat} (h : s.paKind pa = .stockpile l) : l < 2 := by
  unfold State.paKind at h
  dsimp only at h
  split_ifs at h <;> (obtain rfl : _ = l := PaKind.stockpile.inj h; decide)

theorem State.noteUe_keepsRepairs (s : State) (pa syn : Nat) : s.KeepsRepairs (s.noteUe pa syn) := by
  have ue {off : Nat} (h : ¬HbmRepairReg off) (v w : Nat) :
      s.KeepsRepairs (((s.bump off).setReg64 Reg.memUeAddr0 Reg.memUeAddr1 v).setReg Reg.memUeInfo w) :=
    ((((State.KeepsRepairs.refl s).bump h).setReg _ (by decide)).setReg _ (by decide)).setReg _ (by decide)
  unfold State.noteUe
  split
  · exact .refl s
  · exact .refl s
  · refine State.KeepsRepairs.raiseIf ?_ _ _
    split
    case h_1 k _ =>
      have hline (v : Nat) : s.KeepsRepairs ((s.bump (Reg.hbmUeCnt k)).setReg (Reg.hbmUeAddr k) v) :=
        ((State.KeepsRepairs.refl s).bump (by unfold Reg.hbmUeCnt; omega)).setReg _ (by unfold Reg.hbmUeAddr; omega)
      have htop (v w : Nat) := (hline v).setReg (off := Reg.hbmUeAddrTop k) w (by unfold Reg.hbmUeAddrTop; omega)
      exact State.KeepsRepairs.setHbm (.ite (hline _) (htop _ _)) (by split <;> rfl)
    case h_2 st hst =>
      have hlt := State.paKind_face_lt hst
      exact ue (by unfold Reg.memFaceUeCnt; omega) _ _
    case h_3 l hl =>
      have hlt := State.paKind_stockpile_lt hl
      exact ue (by unfold Reg.memSpUeCnt; omega) _ _
    · exact .refl s

theorem State.KeepsRepairs.mark (h : s.KeepsRepairs t) (pa syn : Nat) : s.KeepsRepairs (t.mark pa syn) := h.elsewhere

theorem State.noteMarks_keepsRepairs (s : State) (pa n : Nat) : s.KeepsRepairs (s.noteMarks pa n) := by
  refine (State.KeepsRepairs.foldl (fun s e => s.noteUe_keepsRepairs _ _) _ s).trans (.foldl (fun s l => ?_) _ _)
  split
  · exact (State.KeepsRepairs.refl s).bump (by unfold Reg.cxlPoisonCnt; omega)
  · exact .refl s

theorem State.freeWords_keepsRepairs (l : Store Nat) (s : State) (pa n v : Nat) : s.KeepsRepairs (s.freeWords pa n v l).1 := by
  induction l generalizing s v with
  | nil => exact .refl s
  | cons e l ih =>
    unfold State.freeWords
    dsimp only
    split
    · exact State.KeepsRepairs.trans (t := s.freeVal.2) (State.KeepsRepairs.refl s).elsewhere (ih _ _)
    · exact ih _ _

theorem State.readMem_keepsRepairs (s : State) (pa n : Nat) : s.KeepsRepairs (s.readMem pa n).1 := by
  unfold State.readMem
  split
  · exact ((s.noteMarks_keepsRepairs pa n).bumpIf _ (by decide)).trans (State.freeWords_keepsRepairs _ _ _ _ _)
  · exact .refl s

theorem State.writeMem_keepsRepairs (s : State) (pa n v en : Nat) : s.KeepsRepairs (s.writeMem pa n v en) := by
  unfold State.writeMem
  refine (State.KeepsRepairs.foldl (fun s e => ?_) _ s).elsewhere
  exact .ite (State.KeepsRepairs.refl s).elsewhere ((s.noteUe_keepsRepairs _ _).mark _ _)

/-! ## Words that a read finds (09 R254, R262) -/

theorem HbmCtl.markRow_cached (c : HbmCtl) (row pa : Nat) : (c.markRow row pa).cached = c.cached := by
  unfold HbmCtl.markRow
  split <;> rfl

theorem State.hbmCorrected_keepsRepairs (s : State) (k pa : Nat) : s.KeepsRepairs (s.hbmCorrected k pa) := by
  have hcnt : s.KeepsRepairs (s.bump (Reg.hbmCeCnt k)) := (State.KeepsRepairs.refl s).bump (by unfold Reg.hbmCeCnt; omega)
  unfold State.hbmCorrected
  extract_lets s1 c row n c'
  have hc' : c'.cached = c.cached := by unfold c'; split <;> rfl
  refine State.KeepsRepairs.setHbm hcnt ?_
  split
  · exact (HbmCtl.markRow_cached _ _ _).trans hc'
  · exact hc'

theorem State.bankCorrected_keepsRepairs (s : State) (m : BankMem) (off : Nat) (h : ¬HbmRepairReg (ceCnt m)) :
    s.KeepsRepairs (s.bankCorrected m off) := by
  have hcnt : s.KeepsRepairs (s.bump (ceCnt m)) := (State.KeepsRepairs.refl s).bump h
  exact .ite hcnt.elsewhere hcnt

theorem State.codeFinds_keepsRepairs (s : State) (pa : Nat) (e : Ecc) : s.KeepsRepairs (s.codeFinds pa e) := by
  unfold State.codeFinds
  split
  · exact .refl s
  · exact (State.KeepsRepairs.refl s).mark _ _
  · split
    case h_1 st hst =>
      have hlt := State.paKind_face_lt hst
      exact s.bankCorrected_keepsRepairs _ _ (by simp only [ceCnt, Reg.memFaceCeCnt]; omega)
    case h_2 l hl =>
      have hlt := State.paKind_stockpile_lt hl
      exact s.bankCorrected_keepsRepairs _ _ (by simp only [ceCnt, Reg.memSpCeCnt]; omega)
    · exact s.hbmCorrected_keepsRepairs _ _
    · exact .refl s

/-! ## Steps that are aborted (15 R416, R417) -/

theorem State.KeepsRepairs.report (h : s.KeepsRepairs t) (id : StepId) (it : Item) : s.KeepsRepairs (t.report id it) := by
  obtain e | ⟨k, g, b, e⟩ := t.report_cases id it
  · exact e ▸ h.bump (by decide)
  · exact e ▸ State.KeepsRepairs.bumpIf (t := t.modStep k g) h.elsewhere b (by decide)

theorem State.sendVerdict_keepsRepairs (s : State) (x : Ticket) (good : Bool) (cause : Nat) :
    s.KeepsRepairs (s.sendVerdict x good cause) := by
  have hsend (s : State) (p : Packet) : s.KeepsRepairs (s.send p) := (State.KeepsRepairs.refl s).elsewhere
  have heach : s.KeepsRepairs (x.dests.foldl (fun s d => s.send (s.verdictPacket d false x.id good cause)) s) :=
    .foldl (fun s _ => hsend s _) _ s
  exact .ite (.ite (hsend s _) heach) heach

theorem State.dropTicket_keepsRepairs (s : State) (x : Ticket) (good : Bool) (cause : Nat) :
    s.KeepsRepairs (s.dropTicket x good cause) := by
  unfold State.dropTicket
  extract_lets s1 s2 s3 s4
  have h1 : s.KeepsRepairs s1 :=
    State.KeepsRepairs.setReg (off := Reg.dptUnresolved) (State.KeepsRepairs.refl s).elsewhere _ (by decide)
  have h2 : s.KeepsRepairs s2 := .ite h1.elsewhere h1
  have h4 : s.KeepsRepairs s4 := (h2.trans (s2.sendVerdict_keepsRepairs _ _ _)).bump (by cases good <;> decide)
  exact .ite h4.elsewhere h2

theorem State.poisonStep_keepsRepairs (s : State) (num cause ticket origin : Nat) :
    s.KeepsRepairs (s.poisonStep num cause ticket origin) := by
  unfold State.poisonStep
  extract_lets id s1 s2 hit low s3 s4 s5 s6 dead
  have h1 : s.KeepsRepairs s1 := .ite (State.KeepsRepairs.refl s).elsewhere (.refl s)
  have h3 : s.KeepsRepairs s3 := (h1.bump (by decide)).report _ _
  have h4 : s.KeepsRepairs s4 := .ite ((h3.setReg _ (by decide)).setReg _ (by decide)) h3
  have h6 : s.KeepsRepairs s6 := State.KeepsRepairs.raiseIf (t := s5) h4.elsewhere _ _
  exact .ite (.refl s) (h6.trans (.foldl (fun s _ => s.dropTicket_keepsRepairs _ _ _) _ _))

end Sys2Proof.Machine
end

section
/-!
One cycle of the requests of a banked memory (09 R241-R247, R250-R252): which of them are granted, and what those do.
-/
namespace Sys2Proof.Machine

variable {s t u : State} {m : BankMem} {r : BankReq} {a b : BankAcc} {l : List BankReq} {p q off n : Nat}

/-! ## Banks and addresses (R241, R242) -/

theorem bankOf_row (m : BankMem) (off : Nat) : bankOf m (off / 64 * 64) = bankOf m off := by
  cases m <;> simp only [bankOf, bits_eq_div_mod] <;> omega

theorem lanesOf_bankOf (m : BankMem) (off : Nat) : lanesOf (bankOf m off) = 2 := by
  have hlt : bankOf m off < bufferOf 0 := by cases m <;> simp only [bankOf, bits_eq_div_mod, bufferOf] <;> omega
  exact if_pos hlt

/-- A span within one row needs the bank of the row, where no test has a row on a buffer. -/
theorem State.spanUnits_row (htests : s.tests = []) (hrow : off % 64 + n ≤ 64) (hn : 0 < n) :
    s.spanUnits m off n = [bankOf m off] := by
  have hone : (off + n + 63) / 64 - off / 64 = 1 := by omega
  have hunit : s.unitOf m (off / 64 * 64 + 64 * 0) = bankOf m off := by
    simp [State.unitOf, State.redirected, htests, bankOf_row]
  simp only [State.spanUnits, hone, List.range_one, List.map_cons, List.map_nil, hunit]
  rfl

/-- The stockpile of a level in the address map (Table 9.1). -/
theorem State.paKind_stockpile (s : State) {l off : Nat} (hl : l < 2) (hoff : off < 0x6000000) :
    s.paKind (spBase l + off) = .stockpile l := by
  unfold State.paKind spBase
  obtain rfl | rfl : l = 0 ∨ l = 1 := by omega
  · rw [if_neg (by omega), if_pos (by omega)]
  · rw [if_neg (by omega), if_neg (by omega), if_pos (by omega)]

/-- A range of a face below its post row, or of a stockpile, reaches no post row (10 R269). -/
theorem State.postReach_none (s : State) (hn : 0 < n) (h : match m with
    | .face st => st < 144 ∧ off + n ≤ postRow
    | .stockpile l => l < 2 ∧ off + n ≤ 0x6000000) : s.postReach (memBase m + off) n = none := by
  cases m with
  | face st =>
    obtain ⟨hst, hoff⟩ := h
    have hkind := s.paKind_face hst (off := off) (by unfold faceSize; unfold postRow at hoff; omega)
    have hlow : ¬faceBase st + postRow < faceBase st + off + n := by omega
    simp only [State.postReach, memBase, hkind]
    exact if_neg hlow
  | stockpile l =>
    obtain ⟨hl, hoff⟩ := h
    simp only [State.postReach, memBase, s.paKind_stockpile hl (off := off) (by omega)]

/-! ## The requests of a cycle (R243-R247) -/

/-- The requests that are raised in a cycle, in order of their ports: the background engine's within its window alone (R256). -/
def State.raisedReqs (s : State) (m : BankMem) (reqs : List BankReq) : List BankReq :=
  (reqs.filter fun r => r.fits m && (r.port ≠ 0 || s.windowOpen)).foldl (fun l r => insertReq r l) []

/-- Is a request of a cycle performed: granted at every bank it needs, and not held back behind its crew's load. -/
def State.performsReq (s : State) (m : BankMem) (l : List BankReq) (r : BankReq) : Bool :=
  s.reqGranted m l r && !s.storeHeld m l r

/-- What the granted requests do: what the code finds beside them, their reads, their writes, and the locked sequences that they
start. -/
def State.serveReqs (t : State) (m : BankMem) (granted : List BankReq) : State :=
  let t := granted.foldl (fun t r => r.along.foldl (fun t x => t.pathFinds r.crew x) t) t
  let t := (granted.flatMap fun r => (r.acc.filter fun a => !a.write).map fun a => (r, a)).foldl
    (fun t x => t.bankRead m x.1.crew x.2) t
  let t := t.bankWrites m (granted.flatMap reqWrites)
  granted.foldl (fun t r => match r.lock with
    | some op => t.startLock m r op
    | none => t) t

/-- The ports of a cycle are aged, and the lanes counted that denied requests leave dead (R245, R246). -/
def State.ageReqs (s : State) (m : BankMem) (l : List BankReq) : State :=
  let denied := l.filter fun r => !s.performsReq m l r
  let dead := (denied.map fun r => ((s.reqBanks m r).filter fun b => (s.bankGrants m l b).contains r.port).length).foldl (· + ·) 0
  (s.agePorts m (l.filter (s.performsReq m l)) denied).bumpN (deadCnt m) dead

/-- A cycle ages ports, and does what its granted requests do. -/
theorem exec_bankGrant (hup : s.up 4 = true) (m : BankMem) (reqs : List BankReq) :
    exec (.bankGrant m reqs) s = .next ((s.ageReqs m (s.raisedReqs m reqs)).serveReqs m
      ((s.raisedReqs m reqs).filter (s.performsReq m (s.raisedReqs m reqs)))) := by
  simp only [exec, execBankGrant, hup]
  rfl

theorem State.ageReqs_eq (s : State) (m : BankMem) (l : List BankReq) :
    s.ageReqs m l = { s with ages := (s.ageReqs m l).ages, regs := (s.ageReqs m l).regs } := rfl

theorem State.ageReqs_regsBut (s : State) (m : BankMem) (l : List BankReq) : regsBut [deadCnt m] s (s.ageReqs m l) :=
  State.setReg_regsBut _ _ _

section Raised
variable (hfits : r.fits m = true) (hwindow : r.port = 0 → s.windowOpen = true)
include hfits hwindow

theorem State.raisedReqs_one : s.raisedReqs m [r] = [r] := by
  have hraised : r.port ≠ 0 ∨ s.windowOpen = true := Classical.or_iff_not_imp_left.2 fun h => hwindow (not_not.1 h)
  simp [State.raisedReqs, hfits, hraised, insertReq]

theorem State.raisedReqs_two {r' : BankReq} (hlt : r.port < r'.port) (hfits' : r'.fits m = true) :
    s.raisedReqs m [r, r'] = [r, r'] := by
  have hraised : r.port ≠ 0 ∨ s.windowOpen = true := Classical.or_iff_not_imp_left.2 fun h => hwindow (not_not.1 h)
  have hraised' : r'.port ≠ 0 := by omega
  have hafter : ¬r'.port < r.port := by omega
  simp [State.raisedReqs, hfits, hfits', hraised, hraised', hafter, insertReq]

end Raised

/-! ## Grants (R244) -/

/-- A bank that a locked sequence holds grants nothing (R247). -/
theorem State.performsReq_locked {k : Nat} (hk : k ∈ s.reqBanks m r) (hlocked : s.bankLocked m k = true) :
    s.performsReq m l r = false := by
  have hgrant : s.bankGrants m l k = [] := if_pos hlocked
  have hno : s.reqGranted m l r = false :=
    List.all_eq_false.2 ⟨k, hk, by rw [hgrant]; simp⟩
  rw [State.performsReq, hno, Bool.false_and]

/-- The lanes of a free bank go down the order to a lone request of a locked sequence. -/
theorem State.bankGrants_lock {k : Nat} (hlock : r.lock.isSome = true) (hk : k ∈ s.reqBanks m r)
    (hfree : s.bankLocked m k = false) : s.bankGrants m [r] k = [r.port] := by
  cases hp : s.promoted m k r.port <;> simp [State.bankGrants, hfree, hk, insertReq, hp, grantLanes, hlock]

/-- A request of a locked sequence that is alone at its free banks is performed (R244, R247, R252). -/
theorem State.performsReq_lock (hlock : r.lock.isSome = true) (hfree : ∀ k ∈ s.reqBanks m r, s.bankLocked m k = false)
    (hload : ∀ c, r.crew = some c → (s.crew c).loadDue = false) : s.performsReq m [r] r = true := by
  have hgranted : s.reqGranted m [r] r = true :=
    List.all_eq_true.2 fun k hk => by rw [State.bankGrants_lock hlock hk (hfree k hk)]; simp
  have hheld : s.storeHeld m [r] r = false := by
    unfold State.storeHeld
    split
    · next c hc => by_cases hport : r.port = 6 <;> simp [hport, hload c hc]
    · rfl
  rw [State.performsReq, hgranted, hheld]
  rfl

/-- A request of one plain access, of no step and no crew. -/
def plainReq (p : Nat) (a : BankAcc) : BankReq := ⟨p, [a], none, none, 0, none, []⟩

@[simp] theorem plainReq_port (p : Nat) (a : BankAcc) : (plainReq p a).port = p := rfl

@[simp] theorem plainReq_lock (p : Nat) (a : BankAcc) : (plainReq p a).lock = none := rfl

theorem State.reqBanks_plain (htests : s.tests = []) (hrow : a.off % 64 + a.len ≤ 64) (hlen : 0 < a.len) :
    s.reqBanks m (plainReq p a) = [bankOf m a.off] := by
  simp only [State.reqBanks, plainReq, List.flatMap_singleton, State.spanUnits_row htests hrow hlen]
  rfl

/-- Two plain requests for one free bank, at which no port is promoted, are both performed: a bank has two lanes. -/
theorem State.performsReq_plain (hages : s.ages = []) (ha : s.reqBanks m (plainReq p a) = [bankOf m off])
    (hb : s.reqBanks m (plainReq q b) = [bankOf m off]) (hlt : p < q) (hfree : s.bankLocked m (bankOf m off) = false) :
    ∀ r ∈ [plainReq p a, plainReq q b], s.performsReq m [plainReq p a, plainReq q b] r = true := by
  have hage (k : Nat) : s.promoted m (bankOf m off) k = false := by rw [State.promoted, hages]; rfl
  have hafter : ¬q < p := by omega
  have hgrants : s.bankGrants m [plainReq p a, plainReq q b] (bankOf m off) = [p, q] := by
    simp [State.bankGrants, hfree, ha, hb, lanesOf_bankOf, insertReq, hage, grantLanes, hafter]
  have hheld (r : BankReq) (h : r.crew = none) : s.storeHeld m [plainReq p a, plainReq q b] r = false := by
    cases m <;> simp [State.storeHeld, h]
  have hall (p' : Nat) (b' : BankAcc) (hneeds : s.reqBanks m (plainReq p' b') = [bankOf m off]) (hp : p' ∈ [p, q]) :
      s.performsReq m [plainReq p a, plainReq q b] (plainReq p' b') = true := by
    rw [State.performsReq, State.reqGranted, hneeds, hheld _ rfl]
    simpa [hgrants] using hp
  simp only [List.forall_mem_cons]
  exact ⟨hall p a ha (by simp), hall q b hb (by simp), fun _ h => absurd h List.not_mem_nil⟩

/-! ## What granted requests do (R250-R252) -/

/-- A request of a locked sequence starts it and does nothing else. -/
theorem State.serveReqs_lock {op : LockOp} (hlock : r.lock = some op) (hacc : r.acc = []) (halong : r.along = []) :
    s.serveReqs m [r] = s.startLock m r op := by
  simp [State.serveReqs, State.bankWrites, reqWrites, hlock, hacc, halong]

/-- The bytes that two writes both enable (R250). -/
def overlaps (b a : BankAcc) : Bool := (List.range b.len).any fun i => accEnables b (b.off + i) && accEnables a (b.off + i)

/-- The bytes of an access are written in its memory. -/
def State.storeAcc (s : State) (m : BankMem) (a : BankAcc) : State := s.storeAt (memBase m + a.off) a.len a.data a.en

theorem reqWrites_plain (ha : a.write = true) : reqWrites (plainReq p a) = [(plainReq p a, a)] := by
  simp [reqWrites, plainReq, ha]

/-- Of two writes the one of the higher-numbered port is stored first, and counts where the other overtakes it (R250, R251). -/
theorem State.bankWrites_two (s : State) (m : BankMem) (a b : BankAcc) (hlt : p < q) :
    s.bankWrites m [(plainReq p a, a), (plainReq q b, b)] =
      ((s.bumpIf (overlaps b a) (ovtCnt m)).storeAcc m b).storeAcc m a := by
  have hnot : ¬q < p := by omega
  have hfirst : overtaken [(plainReq p a, a), (plainReq q b, b)] (plainReq p a, a) = false := by simp [overtaken, hnot]
  have hsecond : overtaken [(plainReq p a, a), (plainReq q b, b)] (plainReq q b, b) = overlaps b a := by
    simp [overtaken, hlt, overlaps]
  cases hover : overlaps b a <;> simp only [State.bankWrites, List.filter_cons, hfirst, hsecond, hover] <;> rfl

theorem State.serveReqs_writes (ha : a.write = true) (hb : b.write = true) (hlt : p < q) :
    s.serveReqs m [plainReq p a, plainReq q b] = ((s.bumpIf (overlaps b a) (ovtCnt m)).storeAcc m b).storeAcc m a := by
  have hwrites : [plainReq p a, plainReq q b].flatMap reqWrites = [(plainReq p a, a), (plainReq q b, b)] := by
    simp [reqWrites_plain, ha, hb]
  rw [← State.bankWrites_two s m a b hlt, ← hwrites]
  simp [State.serveReqs, plainReq, ha, hb]

/-- A read delivers before the write of its cycle is stored (R252). -/
theorem State.serveReqs_read (ha : a.write = false) (hb : b.write = true) :
    s.serveReqs m [plainReq p a, plainReq q b] = (s.bankRead m none a).storeAcc m b := by
  simp [State.serveReqs, State.bankWrites, reqWrites, plainReq, ha, hb, overtaken, State.storeAcc]

/-! ## Bytes of an access (R241, R250) -/

section Store
variable (hpost : s.postReach (memBase m + a.off) a.len = none)
include hpost

theorem State.storeAcc_eq (hmarks : s.marks = []) :
    s.storeAcc m a = { s with mem := memWrite s.mem (memBase m + a.off) a.len a.data a.en } := by
  rw [State.storeAcc, State.storeAt, hpost]
  exact State.writeMem_unmarked (State.marked_of_noMarks hmarks _ _) _ _

theorem State.storeAcc_keepsRepairs : s.KeepsRepairs (s.storeAcc m a) := by
  rw [State.storeAcc, State.storeAt, hpost]
  exact s.writeMem_keepsRepairs _ _ _ _

/-- A write changes the bytes that it enables. -/
theorem State.storeAcc_byte (hmarks : s.marks = []) (x : Nat) : (s.storeAcc m a).byte x =
    if memBase m ≤ x ∧ accEnables a (x - memBase m) = true then BitVec.ofNat 8 (a.data / 256 ^ (x - memBase m - a.off))
    else s.byte x := by
  have hin : (memBase m ≤ x ∧ accEnables a (x - memBase m) = true) ↔
      memBase m + a.off ≤ x ∧ x < memBase m + a.off + a.len ∧ a.en.testBit (x - (memBase m + a.off)) = true := by
    simp only [accEnables, Bool.and_eq_true, decide_eq_true_eq, Nat.sub_sub]
    constructor
    · rintro ⟨h, ⟨hlo, hhi⟩, hen⟩; exact ⟨by omega, by omega, hen⟩
    · rintro ⟨hlo, hhi, hen⟩; exact ⟨by omega, ⟨by omega, by omega⟩, hen⟩
  rw [State.storeAcc_eq hpost hmarks, State.byte, memWrite_get, Nat.sub_sub]
  simp only [hin]
  rfl

end Store

theorem State.bankRead_keepsRepairs (s : State) (m : BankMem) (a : BankAcc) : s.KeepsRepairs (s.bankRead m none a) := by
  have hread : s.KeepsRepairs ((s.codeFinds (memBase m + a.off) a.ecc).readMem (memBase m + a.off) a.len).1 :=
    (s.codeFinds_keepsRepairs _ _).trans (State.readMem_keepsRepairs _ _ _)
  unfold State.bankRead
  dsimp only
  exact .ite hread.elsewhere hread.elsewhere

/-- A read in which the code finds nothing delivers the bytes that it names. -/
theorem State.bankRead_clean (hmarks : s.marks = []) (hecc : a.ecc = .clean) :
    s.bankRead m none a = s.emit (.readData (s.readLE (memBase m + a.off) a.len)) := by
  have hread := State.readMem_unmarked (State.marked_of_noMarks hmarks (memBase m + a.off) a.len)
  simp only [State.bankRead, State.codeFinds, hecc, hread]
  rfl

/-! ## Two plain requests at one bank -/

theorem ovtCnt_ne_deadCnt (m : BankMem) : ovtCnt m ≠ deadCnt m := by
  cases m <;> simp only [ovtCnt, deadCnt, Reg.memFaceOvtCnt, Reg.memFaceDeadCnt, Reg.memSpOvtCnt, Reg.memSpDeadCnt] <;> omega

/-- Two plain requests for one bank, of which the higher-numbered port writes, in a cycle that the obligation speaks of. -/
structure SoundPair (s : State) (m : BankMem) (p q : Nat) (a b : BankAcc) : Prop where
  up : s.up 4 = true
  lt : p < q
  marks : s.marks = []
  ages : s.ages = []
  tests : s.tests = []
  postA : ∀ t : State, t.postReach (memBase m + a.off) a.len = none
  postB : ∀ t : State, t.postReach (memBase m + b.off) b.len = none
  fitsA : (plainReq p a).fits m = true
  fitsB : (plainReq q b).fits m = true
  window : p = 0 → s.windowOpen = true
  rowA : a.off % 64 + a.len ≤ 64
  rowB : b.off % 64 + b.len ≤ 64
  lenA : 0 < a.len
  lenB : 0 < b.len
  bank : bankOf m a.off = bankOf m b.off
  free : s.bankLocked m (bankOf m a.off) = false
  writes : b.write = true

section Pair
variable (h : SoundPair s m p q a b)
include h

/-- Both are performed, on a state that differs in its ages and its count of dead lane-cycles alone. -/
theorem SoundPair.serves : ∃ u, exec (.bankGrant m [plainReq p a, plainReq q b]) s =
    .next (u.serveReqs m [plainReq p a, plainReq q b]) ∧ u = { s with ages := u.ages, regs := u.regs } ∧
      regsBut [deadCnt m] s u := by
  have hraised : s.raisedReqs m [plainReq p a, plainReq q b] = [plainReq p a, plainReq q b] :=
    State.raisedReqs_two h.fitsA h.window h.lt h.fitsB
  have hall := State.performsReq_plain h.ages (State.reqBanks_plain h.tests h.rowA h.lenA)
    ((State.reqBanks_plain h.tests h.rowB h.lenB).trans (by rw [h.bank])) h.lt h.free
  have hexec := exec_bankGrant h.up m [plainReq p a, plainReq q b]
  rw [hraised, List.filter_eq_self.2 hall] at hexec
  exact ⟨_, hexec, s.ageReqs_eq m _, s.ageReqs_regsBut m _⟩

/-- Of two writes each byte takes the value of the lower-numbered port that enables it (R250, R251). -/
theorem SoundPair.bothWrite (ha : a.write = true) : ∃ t, exec (.bankGrant m [plainReq p a, plainReq q b]) s = .next t ∧
    t.locks = s.locks ∧ t.crews = s.crews ∧
    t.reg (ovtCnt m) = (s.reg (ovtCnt m) + (overlaps b a).toNat) % 2 ^ 32 ∧ t.outbox = s.outbox ∧
    ∀ x, t.byte x =
      if memBase m ≤ x ∧ accEnables a (x - memBase m) = true then BitVec.ofNat 8 (a.data / 256 ^ (x - memBase m - a.off))
      else if memBase m ≤ x ∧ accEnables b (x - memBase m) = true then BitVec.ofNat 8 (b.data / 256 ^ (x - memBase m - b.off))
      else s.byte x := by
  obtain ⟨u, hexec, hu, hregs⟩ := h.serves
  obtain ⟨v, hv⟩ : ∃ v, v = u.bumpIf (overlaps b a) (ovtCnt m) := ⟨_, rfl⟩
  have hvs : v = { s with ages := v.ages, regs := v.regs } := by rw [hv, State.bumpIf_eq, hu]
  have hmarks : v.marks = [] := by rw [hvs]; exact h.marks
  have hb := State.storeAcc_eq (h.postB v) hmarks
  have hmarks' : (v.storeAcc m b).marks = [] := by rw [hb]; exact hmarks
  have ha' := State.storeAcc_eq (h.postA _) hmarks'
  have hcnt : v.reg (ovtCnt m) = (s.reg (ovtCnt m) + (overlaps b a).toNat) % 2 ^ 32 := by
    rw [hv, State.bumpIf_reg, hregs _ (by simpa using ovtCnt_ne_deadCnt m)]
  have hregs' : ((v.storeAcc m b).storeAcc m a).regs = v.regs := by rw [ha', hb]
  have hbyte (x : Nat) : v.byte x = s.byte x := State.byte_of_mem (by rw [hvs]) x
  refine ⟨_, hexec, ?_⟩
  rw [State.serveReqs_writes ha h.writes h.lt, ← hv]
  refine ⟨by rw [ha', hb, hvs], by rw [ha', hb, hvs], (State.reg_of_regs hregs' _).trans hcnt, by rw [ha', hb, hvs], fun x => ?_⟩
  rw [State.storeAcc_byte (h.postA _) hmarks', State.storeAcc_byte (h.postB _) hmarks, hbyte]

/-- Of a read and a write the read delivers what stood before the cycle (R252). -/
theorem SoundPair.readsBefore (ha : a.write = false) : ∃ t, exec (.bankGrant m [plainReq p a, plainReq q b]) s = .next t ∧
    t.locks = s.locks ∧ t.crews = s.crews ∧
    (a.ecc = .clean → t.outbox = s.outbox ++ [.readData (s.readLE (memBase m + a.off) a.len)] ∧ ∀ x, t.byte x =
      if memBase m ≤ x ∧ accEnables b (x - memBase m) = true then BitVec.ofNat 8 (b.data / 256 ^ (x - memBase m - b.off))
      else s.byte x) := by
  obtain ⟨u, hexec, hu, -⟩ := h.serves
  have hmem : u.mem = s.mem := by rw [hu]
  have hkeep := (u.bankRead_keepsRepairs m a).trans (State.storeAcc_keepsRepairs (h.postB (u.bankRead m none a)))
  refine ⟨_, hexec, ?_⟩
  rw [State.serveReqs_read ha h.writes]
  refine ⟨hkeep.locks.trans (by rw [hu]), hkeep.crews.trans (by rw [hu]), fun hclean => ?_⟩
  have hmarks : u.marks = [] := by rw [hu]; exact h.marks
  rw [State.bankRead_clean hmarks hclean, State.readLE_of_mem hmem]
  have hmarks' : (u.emit (.readData (s.readLE (memBase m + a.off) a.len))).marks = [] := hmarks
  refine ⟨?_, fun x => ?_⟩
  · rw [State.storeAcc_eq (h.postB _) hmarks', hu]
    rfl
  · rw [State.storeAcc_byte (h.postB _) hmarks']
    exact if_congr Iff.rfl rfl (State.byte_of_mem hmem x)

end Pair

end Sys2Proof.Machine
end

section
/-!
Locked sequences of the banks (09 R247, R248, R254, R541): how they begin, and what they leave at their end.
-/
namespace Sys2Proof.Machine

variable {s t : State} {m : BankMem} {r : BankReq} {op : LockOp} {l : LockedSeq} {id off size v : Nat}

/-! ## The beginning (R247) -/

/-- The record of a locked sequence that begins. -/
def State.lockOf (s : State) (m : BankMem) (r : BankReq) (op : LockOp) : LockedSeq :=
  ⟨s.fresh + 1, m, s.lockUnits m op, r.port, some op, r.crew, r.step, s.cycle, lockCycles op,
    (r.crew.map fun c => (s.crew c).site).getD ⟨0, 0⟩⟩

theorem State.startLock_eq (s : State) (m : BankMem) (r : BankReq) (op : LockOp) : s.startLock m r op =
    { s with locks := (s.locks.filter fun x => s.holds x) ++ [s.lockOf m r op], fresh := s.fresh + 1 } := rfl

theorem lockCycles_le (op : LockOp) : lockCycles op ≤ 24 := by
  have hlode (off : Nat) : lodeCycles off ≤ 24 := by unfold lodeCycles; split <;> decide
  cases op with
  | lodeElem | lodeValue => exact hlode _
  | _ => simp only [lockCycles]; decide

/-- A request that starts a locked sequence, alone at its free banks, locks them. -/
theorem bankGrant_locks (hup : s.up 4 = true) (hlock : r.lock = some op) (hacc : r.acc = []) (halong : r.along = [])
    (hfits : r.fits m = true) (hwindow : r.port = 0 → s.windowOpen = true)
    (hload : ∀ c, r.crew = some c → (s.crew c).loadDue = false) (hfree : ∀ k ∈ s.lockUnits m op, s.bankLocked m k = false) :
    exec (.bankGrant m [r]) s = .next ((s.ageReqs m [r]).startLock m r op) := by
  have hneeds : s.reqBanks m r = s.lockUnits m op := by rw [State.reqBanks, hlock]
  have hperforms : s.performsReq m [r] r = true :=
    State.performsReq_lock (by rw [hlock]; rfl) (by rw [hneeds]; exact hfree) hload
  rw [exec_bankGrant hup, State.raisedReqs_one hfits hwindow, List.filter_cons_of_pos hperforms, List.filter_nil,
    State.serveReqs_lock hlock hacc halong]

/-- A request for a bank that a locked sequence holds does nothing but age (R247). -/
theorem bankGrant_denied {k : Nat} (hup : s.up 4 = true) (hk : k ∈ s.reqBanks m r) (hlocked : s.bankLocked m k = true) :
    exec (.bankGrant m [r]) s = .next (s.ageReqs m (s.raisedReqs m [r])) := by
  have hone : ∀ x ∈ s.raisedReqs m [r], x = r := by
    rw [State.raisedReqs, List.filter_cons]
    split <;> simp [insertReq]
  have hnone : (s.raisedReqs m [r]).filter (s.performsReq m (s.raisedReqs m [r])) = [] :=
    List.filter_eq_nil_iff.2 fun x hx => by rw [hone x hx, State.performsReq_locked hk hlocked]; simp
  rw [exec_bankGrant hup, hnone]
  rfl

/-- The request of the background engine for a locked sequence. -/
def backReq (op : LockOp) : BankReq := ⟨0, [], some op, none, 0, none, []⟩

theorem State.backLock_free (hfree : ∀ k ∈ s.lockUnits m op, s.bankLocked m k = false) :
    s.backLock m op = s.startLock m (backReq op) op := by
  have hnone : ((s.lockUnits m op).any fun u => s.bankLocked m u) = false :=
    List.any_eq_false.2 fun k hk => by rw [hfree k hk]; simp
  rw [State.backLock, hnone]
  rfl

/-- Within the window the oldest queued correction of a bank begins its write-back (R254, R256). -/
theorem correctionWriteback_begins {bank : Nat} {q : List Nat} (hup : s.up 4 = true) (hwindow : s.windowOpen = true)
    (hqueue : Store.get [] s.corrections (bankKey m bank) = off :: q)
    (hfree : ∀ k ∈ s.lockUnits m (.writeback off), s.bankLocked m k = false) :
    exec (.correctionWriteback m bank) s = .next (s.startLock m (backReq (.writeback off)) (.writeback off)) := by
  simp only [exec, execCorrectionWriteback, hup, hwindow, hqueue, State.backLock_free hfree]
  rfl

/-! ## The end (R248, R541) -/

/-- A locked sequence has ended: its banks are free. -/
def State.unlock (s : State) (id : Nat) : State := { s with locks := s.locks.filter (·.id ≠ id) }

theorem bankAtomicComplete_ends (hl : s.locks.find? (·.id = id) = some l) (hdone : l.since + l.cycles ≤ s.cycle) :
    exec (.bankAtomicComplete id) s = .next ((s.unlock id).endLock l) := by
  have hnot : ¬s.cycle < l.since + l.cycles := by omega
  simp only [exec, execBankAtomicComplete, hl, if_neg hnot]
  rfl

theorem State.atomicBad_stands (s : State) (l : LockedSeq) : (s.atomicBad l).mem = s.mem ∧ (s.atomicBad l).locks = s.locks := by
  unfold State.atomicBad
  split
  · exact ⟨rfl, rfl⟩
  · exact ⟨s.poisonStep_mem _ _ _ _, (s.poisonStep_keepsRepairs _ _ _ _).locks⟩
  · exact ⟨rfl, rfl⟩

section Word
variable (hpost : s.postReach (memBase l.mem + off) size = none)
include hpost

theorem State.endLock_add (hop : l.op = some (.add off size v)) : s.endLock l =
    if s.marked (memBase l.mem + off) size then (s.noteMarks (memBase l.mem + off) size).atomicBad l
    else s.writeMem (memBase l.mem + off) size ((s.readLE (memBase l.mem + off) size + v) % 2 ^ (8 * size)) (allBytes size) := by
  simp only [State.endLock, hop, State.endAtomic, lockSpan, hpost]
  rfl

theorem State.endLock_swap (hop : l.op = some (.swap off size v)) : s.endLock l =
    if s.marked (memBase l.mem + off) size then ((s.noteMarks (memBase l.mem + off) size).atomicBad l).emit (.readData 0)
    else (s.emit (.readData (s.readLE (memBase l.mem + off) size))).writeMem (memBase l.mem + off) size (v % 2 ^ (8 * size))
      (allBytes size) := by
  simp only [State.endLock, hop, State.endAtomic, lockSpan, hpost]
  rfl

variable {swap : Bool} (hop : l.op = some (if swap then .swap off size v else .add off size v))
include hop

/-- Where its operand holds a marked word it changes no byte (R541). -/
theorem State.endLock_marked (hmark : s.marked (memBase l.mem + off) size = true) :
    (s.endLock l).mem = s.mem ∧ (s.endLock l).locks = s.locks := by
  obtain ⟨hmem, hlocks⟩ := (s.noteMarks (memBase l.mem + off) size).atomicBad_stands l
  have hpoison : ((s.noteMarks (memBase l.mem + off) size).atomicBad l).mem = s.mem ∧
      ((s.noteMarks (memBase l.mem + off) size).atomicBad l).locks = s.locks :=
    ⟨hmem.trans (s.noteMarks_keepsShafts _ _).mem, hlocks.trans (s.noteMarks_keepsRepairs _ _).locks⟩
  cases swap
  · rw [State.endLock_add hpost hop, if_pos hmark]
    exact hpoison
  · rw [State.endLock_swap hpost hop, if_pos hmark]
    exact hpoison

/-- Else its sum or swap stands in place of its operand, and a swap delivers the old value (R248). -/
theorem State.endLock_word (hmark : s.marked (memBase l.mem + off) size = false) : s.endLock l =
    { s with
      mem := memWrite s.mem (memBase l.mem + off) size
        ((if swap then v else s.readLE (memBase l.mem + off) size + v) % 2 ^ (8 * size)) (allBytes size)
      outbox := s.outbox ++ if swap then [.readData (s.readLE (memBase l.mem + off) size)] else [] } := by
  have hnot : ¬s.marked (memBase l.mem + off) size = true := by rw [hmark]; simp
  cases swap
  · rw [State.endLock_add hpost hop, if_neg hnot, State.writeMem_unmarked hmark]
    simp
  · have hmark' (o : Output) : (s.emit o).marked (memBase l.mem + off) size = false := hmark
    rw [State.endLock_swap hpost hop, if_neg hnot, State.writeMem_unmarked (hmark' _)]
    rfl

end Word

/-- The end of a write-back takes its correction from the queue of its bank (R254). -/
theorem State.endLock_writeback (hop : l.op = some (.writeback off)) : s.endLock l = { s with
    corrections := Store.modify [] s.corrections (bankKey l.mem (bankOf l.mem off)) fun q => q.erase off } := by
  simp only [State.endLock, hop]

/-! ## The obligation -/

/-- Settles O41. A cycle does what its granted requests do (`exec_bankGrant`): two plain ones are both granted (`SoundPair`), a lone
one of a locked sequence locks its banks (`bankGrant_locks`); at its end its word stands in place (`State.endLock_word`). -/
theorem banksGrantLockAndEnd : Obligations.BanksGrantLockAndEnd := by
  refine ⟨?pair, ?lock, ?held, ?promote, ?close, ?word, ?back, ?returned⟩
  case pair =>
    intro m s p q a b hup hlt hmarks hages htests hin hfitsA hfitsB hwindow hrowA hrowB hlenA hlenB hbank hfree hb over_
    have hpost : (∀ t : State, t.postReach (memBase m + a.off) a.len = none) ∧
        ∀ t : State, t.postReach (memBase m + b.off) b.len = none := by
      cases m with
      | face st => exact ⟨fun t => t.postReach_none (m := .face st) hlenA ⟨hin.1, hin.2.1⟩,
          fun t => t.postReach_none (m := .face st) hlenB ⟨hin.1, hin.2.2⟩⟩
      | stockpile l => exact ⟨fun t => t.postReach_none (m := .stockpile l) hlenA ⟨hin.1, hin.2.1⟩,
          fun t => t.postReach_none (m := .stockpile l) hlenB ⟨hin.1, hin.2.2⟩⟩
    have h : SoundPair s m p q a b := ⟨hup, hlt, hmarks, hages, htests, hpost.1, hpost.2, hfitsA, hfitsB, hwindow, hrowA, hrowB,
      hlenA, hlenB, hbank, hfree, hb⟩
    cases ha : a.write with
    | true =>
      obtain ⟨t, hexec, hlocks, hcrews, hcnt, hout, hbytes⟩ := h.bothWrite ha
      exact ⟨t, hexec, hlocks, hcrews, fun _ => ⟨hcnt, hout, hbytes⟩, nofun⟩
    | false =>
      obtain ⟨t, hexec, hlocks, hcrews, hclean⟩ := h.readsBefore ha
      exact ⟨t, hexec, hlocks, hcrews, nofun, fun _ => hclean⟩
  case lock =>
    intro m s r op hup hlock hacc halong hfits hwindow hload hfree
    exact ⟨_, (s.ageReqs m [r]).lockOf m r op, bankGrant_locks hup hlock hacc halong hfits hwindow hload hfree,
      rfl, rfl, rfl, rfl, rfl, lockCycles_le op, rfl⟩
  case held =>
    intro m s r k hup hk hlocked
    exact ⟨_, bankGrant_denied hup hk hlocked, rfl, rfl, rfl⟩
  case promote =>
    intro m bank port s hdenied hnext
    have hnot : ¬((Store.get PortAge.none s.ages (portKey m bank port)).denied < 16 ||
        (Store.get PortAge.none s.ages (portKey m bank port)).next < s.cycle) = true := by simp; omega
    refine ⟨_, if_neg hnot, rfl, ?_⟩
    simp [State.promoted]
  case close =>
    intro s
    by_cases hlast : s.bcycle + s.bgWin ≤ s.cycle
    · simp [exec, execBackgroundWindowClose, hlast, Nat.not_lt.2 hlast]
    · simp [exec, execBackgroundWindowClose, hlast, Nat.not_le.1 hlast]
  case word =>
    intro id s l off size v swap hl hdone hpost hop
    have hpost' : (s.unlock id).postReach (memBase l.mem + off) size = none := hpost
    have hmark' : (s.unlock id).marked (memBase l.mem + off) size = s.marked (memBase l.mem + off) size := rfl
    refine ⟨_, bankAtomicComplete_ends hl hdone, ?_⟩
    cases hmark : s.marked (memBase l.mem + off) size with
    | true => exact (State.endLock_marked hpost' hop (hmark'.trans hmark)).symm
    | false =>
      have hend := State.endLock_word hpost' hop (hmark'.trans hmark)
      have hread : (s.unlock id).readLE (memBase l.mem + off) size = s.readLE (memBase l.mem + off) size :=
        State.readLE_of_mem (s := s) (t := s.unlock id) rfl _ _
      rw [hread] at hend
      have hwritten : ((s.unlock id).endLock l).mem = (s.writeMem (memBase l.mem + off) size
          ((if swap then v else s.readLE (memBase l.mem + off) size + v) % 2 ^ (8 * size)) (allBytes size)).mem := by
        rw [hend, State.writeMem_unmarked hmark]
        rfl
      refine ⟨by rw [hend]; rfl, ?_, by rw [hend]; rfl, fun x hx => ?_⟩
      · rw [State.readLE_of_mem hwritten, State.writeMem_readLE hmark, Nat.mod_mod]
      · rw [State.byte_of_mem hwritten, State.writeMem_byte_outside hmark _ _ hx]
  case back =>
    intro m bank off q s hup hwindow hqueue hfree
    exact ⟨_, s.lockOf m (backReq (.writeback off)) (.writeback off), correctionWriteback_begins hup hwindow hqueue hfree,
      rfl, rfl, rfl, rfl⟩
  case returned =>
    intro id off s l hl hdone hop
    refine ⟨_, bankAtomicComplete_ends hl hdone, ?_⟩
    rw [State.endLock_writeback hop]
    exact ⟨rfl, rfl, Store.get_set_self _ _ _ _⟩

end Sys2Proof.Machine
end

section
/-!
The test of a region of a face bank (09 R257-R259): one of its steps, the end of the copy of a row, the repair of failing rows, and
the obligation.
-/
namespace Sys2Proof.Machine

variable {s t : State} {st r row : Nat} {fails : List Nat} {x y : RegionTest} {l : LockedSeq} {op : LockOp}

/-! ## The record of a test -/

/-- The test of a region in progress. -/
def State.testAt (s : State) (m : TestMem) (r : Nat) : Option RegionTest := s.tests.find? fun t => t.mem = m && t.region = r

/-- What a change of the test of a region leaves of it. -/
theorem State.mem_modTest {m : TestMem} {f : RegionTest → RegionTest} (hy : y ∈ (s.modTest m r f).tests) (hm : y.mem = m)
    (hr : y.region = r) : ∃ x, y = f x := by
  obtain ⟨x, -, hx⟩ := List.mem_map.1 hy
  split at hx
  · exact ⟨x, hx.symm⟩
  · next hother => exact absurd (by simp [hx, hm, hr]) hother

/-! ## One step of a test (R257) -/

/-- The state when the test of a face's region has advanced by one step. -/
def State.advanceTest (s : State) (st r : Nat) (fails : List Nat) (x : RegionTest) : State :=
  match x.phase with
  | .copyIn => s.backLock (.face st) (.copyIn r x.pos)
  | .march =>
    if s.bankLocked (.face st) (r / 24) then s
    else if fails.isEmpty then s.endMarch (.face st) r
    else s.modTest (.face st) r fun t => { t with phase := .repair, failing := fails }
  | .repair => (s.testRepair (.face st) r x.failing).1.modTest (.face st) r fun t =>
      { t with phase := (s.testRepair (.face st) r x.failing).2, failing := [] }
  | .again => if s.bankLocked (.face st) (r / 24) then s else s.endMarch (.face st) r
  | .copyBack => s.backLock (.face st) (.copyBack r x.pos)
  | .retired => s

section Step
variable (hup : s.up 4 = true) (hwindow : s.windowOpen = true) (hr : r < 768)
include hup hwindow hr

theorem sramRegionTest_advances (hnow : s.testAt (.face st) r = some x) :
    exec (.sramRegionTest (.face st) r fails) s = .next (s.advanceTest st r fails x) := by
  have hregion : (!s.up 4 || !s.windowOpen || decide (regionsOf (.face st) ≤ r)) = false := by
    rw [hup, hwindow]
    exact decide_eq_false (Nat.not_le.2 hr)
  simp only [State.testAt] at hnow
  have hheld : s.testHeld (.face st) r = s.bankLocked (.face st) (r / 24) := rfl
  simp only [exec, execSramRegionTest, hregion, hnow, State.advanceTest, hheld]
  cases x.phase with
  | march => cases s.bankLocked (.face st) (r / 24) <;> cases fails <;> rfl
  | _ => rfl

theorem sramRegionTest_begins (hnow : s.testAt (.face st) r = none) (hen : s.flag Reg.memCtrl Fld.memCtrlTestEn = true)
    (hroom : s.testRoom (.face st) = true) : exec (.sramRegionTest (.face st) r fails) s =
      .next { s with tests := s.tests ++ [⟨.face st, r, .copyIn, 0, []⟩] } := by
  have hregion : (!s.up 4 || !s.windowOpen || decide (regionsOf (.face st) ≤ r)) = false := by
    rw [hup, hwindow]
    exact decide_eq_false (Nat.not_le.2 hr)
  simp only [State.testAt] at hnow
  simp only [exec, execSramRegionTest, hregion, hnow, hen, hroom]
  rfl

end Step

/-! ## The end of the copy of a row (R257) -/

theorem State.endLock_copyIn (hmarks : s.marks = []) (hm : l.mem = .face st) (hop : l.op = some (.copyIn r row)) :
    s.endLock l = s.modTest (.face st) r fun t => { t with pos := row + 1, phase := if row + 1 = 64 then .march else t.phase } := by
  simp only [State.endLock, hop, hm, State.rowCopied, hmarks, List.filter_nil, List.foldl_nil, testOf]

theorem State.endLock_copyBack (hm : l.mem = .face st) (hop : l.op = some (.copyBack r row)) (hrow : row < 63) :
    s.endLock l = s.modTest (.face st) r fun t => { t with pos := row + 1 } := by
  have hnext : row + 1 < 64 := by omega
  simp only [State.endLock, hop, hm, State.rowReturned, if_pos hnext, testOf]

/-- With the last row copied back the region counts as tested. -/
theorem State.endLock_copyBack_last (hm : l.mem = .face st) (hop : l.op = some (.copyBack r 63)) : s.endLock l =
    State.bump { s with tests := s.tests.filter fun t => !(t.mem = .face st && t.region = r) } (Reg.memFaceTestCnt st) := by
  simp only [State.endLock, hop, hm, State.rowReturned, testOf]
  rfl

/-! ## Repair (R259) -/

/-- The failing rows that are mapped to spare rows of the bank of a face's region. -/
def State.sparesOf (s : State) (st r : Nat) : List Nat := Store.get [] s.spareRows (spareKey (.face st) r)

/-- The failing rows `fails` of a region of a face have been repaired as far as its bank has spare rows. -/
structure State.RowsRepaired (s : State) (st r : Nat) (fails : List Nat) (t : State × TestPhase) : Prop where
  phase : t.2 = .again
  mem : t.1.mem = s.mem
  rows : t.1.sparesOf st r = s.sparesOf st r ++ fails.take (16 - (s.sparesOf st r).length)
  count : t.1.reg (Reg.memFaceSpare st) =
    (s.reg (Reg.memFaceSpare st) + min (16 - (s.sparesOf st r).length) fails.length) % 2 ^ 32
  fenced : 16 < (s.sparesOf st r).length + fails.length → s.stopeState st = 1 → (s.stope st).fence = 0 →
    (t.1.stope st).fence = 2

/-- A row is mapped to the next spare row of its bank. -/
def State.spareRow (s : State) (st r row : Nat) : State :=
  { s with spareRows := Store.set [] s.spareRows (spareKey (.face st) r) (s.sparesOf st r ++ [row]) }.bump (Reg.memFaceSpare st)

theorem State.spareRow_rows (s : State) (st r row : Nat) : (s.spareRow st r row).sparesOf st r = s.sparesOf st r ++ [row] :=
  Store.get_set_self _ _ _ _

theorem State.spareRow_count (s : State) (st r row : Nat) :
    (s.spareRow st r row).reg (Reg.memFaceSpare st) = (s.reg (Reg.memFaceSpare st) + 1) % 2 ^ 32 := State.bump_reg _ _

theorem State.spareRow_stopeState (s : State) (hst : st < 144) (r row : Nat) :
    (s.spareRow st r row).stopeState st = s.stopeState st := by
  have hreg : (s.spareRow st r row).reg (Reg.dptStopeStat st) = s.reg (Reg.dptStopeStat st) :=
    State.bump_reg_ne _ (by unfold Reg.dptStopeStat Reg.memFaceSpare; omega)
  rw [State.stopeState, State.fld, hreg]
  rfl

/-- With no spare row left the stope is to be fenced with cause 2. -/
theorem State.requestFence_fence {n cause : Nat} (hstate : s.stopeState n = 1) (hfence : (s.stope n).fence = 0) :
    ((s.requestFence n cause).stope n).fence = cause := by
  have hnot : ¬(s.stopeState n = 4 && !(s.stope n).returning) = true := by simp [hstate]
  rw [State.requestFence, if_neg hnot, State.modStope_stope, if_pos hfence]

theorem State.requestFence_eq (s : State) (n cause : Nat) :
    s.requestFence n cause = { s with stopes := (s.requestFence n cause).stopes } := by
  unfold State.requestFence
  split <;> rfl

/-- A bank with no spare row left repairs nothing (R259). -/
theorem State.rowsRepaired_full (hlen : (s.sparesOf st r).length = 16) (fails : List Nat) :
    s.RowsRepaired st r fails (s.requestFence st 2, .again) := by
  have hfull : 16 - (s.sparesOf st r).length = 0 := by omega
  have heq := s.requestFence_eq st 2
  refine ⟨rfl, by rw [heq], ?_, ?_, fun _ => State.requestFence_fence⟩
  · rw [heq, hfull, List.take_zero, List.append_nil]
    rfl
  · rw [hfull, Nat.zero_min, Nat.add_zero, Nat.mod_eq_of_lt (s.reg_lt _), heq]
    rfl

/-- The first failing row is mapped, and then the others. -/
theorem State.RowsRepaired.cons {v : State × TestPhase} (hst : st < 144) (hroom : (s.sparesOf st r).length < 16)
    (h : (s.spareRow st r row).RowsRepaired st r fails v) : s.RowsRepaired st r (row :: fails) v := by
  obtain ⟨hphase, hmem, hget, hcount, hfenced⟩ := h
  obtain ⟨k, hk⟩ : ∃ k, 16 - (s.sparesOf st r).length = k + 1 := ⟨15 - (s.sparesOf st r).length, by omega⟩
  have hlen : ((s.spareRow st r row).sparesOf st r).length = (s.sparesOf st r).length + 1 := by
    rw [State.spareRow_rows, List.length_append, List.length_singleton]
  have hleft : 16 - ((s.spareRow st r row).sparesOf st r).length = k := by omega
  refine ⟨hphase, hmem, ?_, ?_, fun hmany hstate hfence => ?_⟩
  · rw [hget, hleft, hk, List.take_succ_cons, State.spareRow_rows, List.append_assoc, List.singleton_append]
  · rw [hcount, hleft, hk, State.spareRow_count, List.length_cons]
    omega
  · exact hfenced (by rw [List.length_cons] at hmany; omega) ((s.spareRow_stopeState hst r row).trans hstate) hfence

theorem State.testRepair_face (hst : st < 144) (fails : List Nat) (s : State) (hlen : (s.sparesOf st r).length ≤ 16) :
    s.RowsRepaired st r fails (s.testRepair (.face st) r fails) := by
  induction fails generalizing s with
  | nil =>
    refine ⟨rfl, rfl, (by rw [List.take_nil, List.append_nil]; rfl), ?_, fun hmany => absurd hmany (Nat.not_lt.2 hlen)⟩
    rw [List.length_nil, Nat.min_zero, Nat.add_zero, Nat.mod_eq_of_lt (s.reg_lt _)]
    rfl
  | cons row l ih =>
    rw [State.testRepair]
    by_cases hroom : (s.sparesOf st r).length < 16
    · refine (if_pos hroom).symm ▸ (ih (s.spareRow st r row) ?_).cons hst hroom
      rw [State.spareRow_rows, List.length_append, List.length_singleton]
      omega
    · exact (if_neg hroom).symm ▸ State.rowsRepaired_full (by omega) _

/-! ## The obligation -/

/-- A row is copied under a locked sequence of two cycles. -/
theorem sramRegionTest_copies (hup : s.up 4 = true) (hwindow : s.windowOpen = true) (hr : r < 768)
    (hnow : s.testAt (.face st) r = some x) (hadvance : s.advanceTest st r fails x = s.backLock (.face st) op)
    (hcycles : lockCycles op = 2) (hfree : ∀ k ∈ s.lockUnits (.face st) op, s.bankLocked (.face st) k = false) :
    ∃ t, exec (.sramRegionTest (.face st) r fails) s = .next t ∧ t.mem = s.mem ∧ ∃ l,
      t.locks = (s.locks.filter fun x => s.holds x) ++ [l] ∧ l.mem = .face st ∧ l.op = some op ∧ l.cycles = 2 ∧
      t.tests = s.tests := by
  have hexec := sramRegionTest_advances (fails := fails) hup hwindow hr hnow
  rw [hadvance, State.backLock_free hfree] at hexec
  exact ⟨_, hexec, rfl, s.lockOf (.face st) (backReq op) op, rfl, rfl, rfl, hcycles, rfl⟩

/-- Settles O42. Each step of a test is a case of `State.advanceTest`; each copied row is the end of a locked sequence
(`State.endLock_copyIn`, `State.endLock_copyBack`), and the repair maps rows while its bank has spares (`State.testRepair_face`). -/
theorem regionTestsAdvance : Obligations.RegionTestsAdvance := by
  intro st r fails s hst hr hup hwindow hmarks step_ now mine free copying ended key
  have hadvance {x : RegionTest} (hnow : now = some x) :
      exec (.sramRegionTest (.face st) r fails) s = .next (s.advanceTest st r fails x) :=
    sramRegionTest_advances hup hwindow hr hnow
  have hmine (u : State) (f : RegionTest → RegionTest) (p : RegionTest → Prop) (hp : ∀ x, p (f x)) :
      mine (u.modTest (.face st) r f) p := by
    intro y hy hm hreg
    obtain ⟨x, rfl⟩ := State.mem_modTest hy hm hreg
    exact hp x
  refine ⟨?begins, ?copyIn, ?copiedIn, ?march, ?repair, ?again, ?copyBack, ?copiedBack, ?last⟩
  case begins =>
    intro hnow hen hroom
    exact ⟨_, sramRegionTest_begins hup hwindow hr hnow hen hroom, rfl, rfl⟩
  case copyIn =>
    intro x hnow hphase hfree
    exact sramRegionTest_copies hup hwindow hr hnow (by simp only [State.advanceTest, hphase]) rfl hfree
  case copiedIn =>
    intro row id l hl hdone hm hop
    refine ⟨_, bankAtomicComplete_ends hl hdone, ?_⟩
    rw [State.endLock_copyIn (s := s.unlock id) hmarks hm hop]
    exact ⟨rfl, rfl, hmine _ _ _ fun x => ⟨rfl, fun h => if_pos h⟩⟩
  case march =>
    intro x hnow hphase hfree
    have hstep : s.advanceTest st r fails x = if fails.isEmpty then s.endMarch (.face st) r
        else s.modTest (.face st) r fun t => { t with phase := .repair, failing := fails } := by
      simp [State.advanceTest, hphase, hfree]
    refine ⟨_, hadvance hnow, ?_⟩
    rw [hstep]
    by_cases hnone : fails = []
    · simp only [hnone, if_true]
      exact ⟨rfl, hmine _ _ _ fun x => ⟨rfl, rfl⟩⟩
    · simp only [List.isEmpty_eq_false_iff.2 hnone, hnone, if_false]
      exact ⟨rfl, hmine _ _ _ fun x => ⟨rfl, rfl⟩⟩
  case repair =>
    intro x hnow hphase hlen
    obtain ⟨hagain, hmem, hrows, hcount, hfenced⟩ := State.testRepair_face hst x.failing s hlen
    refine ⟨_, hadvance hnow, ?_⟩
    simp only [State.advanceTest, hphase]
    exact ⟨hmem, hrows, hcount, hfenced, hmine _ _ _ fun x => hagain⟩
  case again =>
    intro x hnow hphase hfree
    refine ⟨_, hadvance hnow, ?_⟩
    simp only [State.advanceTest, hphase, hfree]
    exact ⟨rfl, hmine _ _ _ fun x => ⟨rfl, rfl⟩⟩
  case copyBack =>
    intro x hnow hphase hfree
    exact sramRegionTest_copies hup hwindow hr hnow (by simp only [State.advanceTest, hphase]) rfl hfree
  case copiedBack =>
    intro row hrow id l hl hdone hm hop
    refine ⟨_, bankAtomicComplete_ends hl hdone, ?_⟩
    rw [State.endLock_copyBack hm hop hrow]
    exact ⟨rfl, rfl, hmine _ _ _ fun x => rfl⟩
  case last =>
    intro id l hl hdone hm hop
    refine ⟨_, bankAtomicComplete_ends hl hdone, ?_⟩
    rw [State.endLock_copyBack_last hm hop]
    exact ⟨rfl, rfl, fun y hy ⟨hmem, hreg⟩ => absurd (List.mem_filter.1 hy).2 (by simp [hmem, hreg]), State.bump_reg _ _⟩

end Sys2Proof.Machine
end

section
/-!
The HBM controllers (09 R240, R256, R260-R265): patrol scrub, sparing, recalibration, HBM_CTRL and HBM_UE_ADDR, and the obligation.
-/
namespace Sys2Proof.Machine

variable {s t : State} {k row pa : Nat} {found : List WordFind}

/-! ## Patrol scrub (R261) -/

/-- The lines of a stack that its scrub has passed when it has scrubbed those of one more frame. -/
def State.scrubLines (s : State) (k : Nat) : Nat :=
  4 * s.reg (Reg.hbmScrubPos k) + (s.hbm k).line + (s.reg Reg.whsPeriod + 9999) / 10000

/-- The scrub of a stack stands at its next line, and counts a pass at the end of the stack. -/
def State.advanceScrub (s : State) (k : Nat) : State :=
  ((s.setHbm k { s.hbm k with
    line := s.scrubLines k % (4 * scrubUnits) % 4
    rowErr := if 4 * scrubUnits ≤ s.scrubLines k then [] else (s.hbm k).rowErr
    scrubFrame := s.frame + 1 }).setReg (Reg.hbmScrubPos k) (s.scrubLines k % (4 * scrubUnits) / 4)).bumpIf
      (decide (4 * scrubUnits ≤ s.scrubLines k)) (Reg.hbmScrubPassCnt k)

theorem patrolScrub_advances (hup : s.up 3 = true) (hwindow : s.windowOpen = true)
    (hen : s.flag Reg.hbmCtrl Fld.hbmCtrlScrubEn = true) (htrained : s.flag (Reg.hbmStat k) Fld.hbmStatTrained = true)
    (hmarks : s.marks = []) (hframe : (s.hbm k).scrubFrame ≠ s.frame + 1) :
    exec (.patrolScrub k []) s = .next (s.advanceScrub k) := by
  simp only [exec, execPatrolScrub, hup, hwindow, hen, htrained, decide_eq_false hframe, hmarks]
  rfl

theorem State.advanceScrub_eq (s : State) (k : Nat) :
    s.advanceScrub k = { s with hbms := (s.advanceScrub k).hbms, regs := (s.advanceScrub k).regs } := by
  unfold State.advanceScrub
  rw [State.bumpIf_eq]
  rfl

theorem State.bumpIf_hbm (s : State) (b : Bool) (off k : Nat) : (s.bumpIf b off).hbm k = s.hbm k := by
  rw [State.bumpIf_eq]
  rfl

theorem State.advanceScrub_hbm (s : State) (k : Nat) : ((s.advanceScrub k).hbm k).line = s.scrubLines k % (4 * scrubUnits) % 4 ∧
    ((s.advanceScrub k).hbm k).scrubFrame = s.frame + 1 := by
  have hset (c : HbmCtl) (off v : Nat) : ((s.setHbm k c).setReg off v).hbm k = c := s.setHbm_hbm k c
  rw [State.advanceScrub, State.bumpIf_hbm, hset]
  exact ⟨rfl, rfl⟩

theorem State.advanceScrub_pos (s : State) (k : Nat) :
    (s.advanceScrub k).reg (Reg.hbmScrubPos k) = s.scrubLines k % (4 * scrubUnits) / 4 := by
  rw [State.advanceScrub, State.bumpIf_reg_ne _ _ (by unfold Reg.hbmScrubPos Reg.hbmScrubPassCnt; omega), State.setReg_reg]
  unfold scrubUnits
  omega

theorem State.advanceScrub_passCnt (s : State) (k : Nat) : (s.advanceScrub k).reg (Reg.hbmScrubPassCnt k) =
    (s.reg (Reg.hbmScrubPassCnt k) + if 4 * scrubUnits ≤ s.scrubLines k then 1 else 0) % 2 ^ 32 := by
  rw [State.advanceScrub, State.bumpIf_reg, State.setReg_reg_ne _ _ (by unfold Reg.hbmScrubPos Reg.hbmScrubPassCnt; omega)]
  have hcount : (decide (4 * scrubUnits ≤ s.scrubLines k)).toNat = if 4 * scrubUnits ≤ s.scrubLines k then 1 else 0 := by
    by_cases h : 4 * scrubUnits ≤ s.scrubLines k <;> simp [h]
  rw [hcount]
  rfl

/-! ## Sparing (R262, R263) -/

theorem State.copyHbmRow_keepsRepairs (s : State) (k row : Nat) (found : List WordFind) :
    s.KeepsRepairs (s.copyHbmRow k row found) := by
  refine (State.KeepsRepairs.foldl (fun s e => s.noteUe_keepsRepairs _ _) _ s).trans (.foldl (fun s f => ?_) _ _)
  split
  · exact .refl s
  · exact s.hbmCorrected_keepsRepairs _ _
  · exact (s.noteUe_keepsRepairs _ _).mark _ _

theorem State.copyHbmRow_mem (s : State) (k row : Nat) (found : List WordFind) : (s.copyHbmRow k row found).mem = s.mem := by
  refine (foldl_mem (fun s f => ?_) _ _).trans (foldl_mem (fun s e => (s.noteUe_keepsShafts _ _).mem) _ s)
  split
  · rfl
  · rfl
  · exact (s.noteUe_keepsShafts _ _).mem

/-- The first marked row of a stack has been copied, and is no longer marked. -/
def State.unmarkRow (s : State) (k row : Nat) (l : List (Nat × Nat)) (found : List WordFind) : State :=
  (s.copyHbmRow k row found).setHbm k { (s.copyHbmRow k row found).hbm k with
    marked := l
    sparedFrame := (s.copyHbmRow k row found).frame + 1
    rowErr := Store.erase ((s.copyHbmRow k row found).hbm k).rowErr row }

theorem State.unmarkRow_keepsRepairs (s : State) (k row : Nat) (l : List (Nat × Nat)) (found : List WordFind) :
    s.KeepsRepairs (s.unmarkRow k row l found) := (s.copyHbmRow_keepsRepairs k row found).setHbm rfl

theorem State.unmarkRow_mem (s : State) (k row : Nat) (l : List (Nat × Nat)) (found : List WordFind) :
    (s.unmarkRow k row l found).mem = s.mem := s.copyHbmRow_mem k row found

theorem State.unmarkRow_marked (s : State) (k row : Nat) (l : List (Nat × Nat)) (found : List WordFind) :
    ((s.unmarkRow k row l found).hbm k).marked = l := by rw [State.unmarkRow, State.setHbm_hbm]

theorem hbmRowSpare_spares {resource : Bool} {l : List (Nat × Nat)} (hup : s.up 3 = true)
    (hmarked : (s.hbm k).marked = (row, pa) :: l) (hwindow : s.windowOpen = true) (hen : s.flag Reg.hbmCtrl Fld.hbmCtrlSpareEn = true)
    (hleft : 2000000 * subUnit ≤ s.windowLeft) (hframe : (s.hbm k).sparedFrame ≠ s.frame + 1) :
    exec (.hbmRowSpare k found resource) s = .next (if resource then
      { s.unmarkRow k row l found with repairs := (s.unmarkRow k row l found).repairs ++ [(k, row)] }.bump (Reg.hbmSpareCnt k)
    else (s.unmarkRow k row l found).holdRow k row pa) := by
  simp only [exec, execHbmRowSpare, hup, hmarked, hwindow, hen, decide_eq_false (Nat.not_lt.2 hleft), decide_eq_false hframe]
  cases resource <;> rfl

theorem hbmRepairReg_spareCnt (hk : k < 8) : HbmRepairReg (Reg.hbmSpareCnt k) := by unfold Reg.hbmSpareCnt; omega

/-- A row is held in an entry of the row cache while one is free (R263). -/
theorem State.holdRow_cached (hroom : (s.hbm k).cached.length < 8) : (s.holdRow k row pa).mem = s.mem ∧
    (s.holdRow k row pa).hbm k = { s.hbm k with cached := (s.hbm k).cached ++ [row] } ∧
    (s.holdRow k row pa).fld (Reg.hbmStat k) Fld.hbmStatCacheRows = (s.hbm k).cached.length + 1 := by
  have hheld : s.holdRow k row pa = (s.setHbm k { s.hbm k with cached := (s.hbm k).cached ++ [row] }).setFld (Reg.hbmStat k)
      Fld.hbmStatCacheRows ((s.hbm k).cached.length + 1) := if_pos hroom
  rw [hheld]
  refine ⟨rfl, s.setHbm_hbm k _, (State.setFld_fld _ _ _ (by decide)).trans (Nat.mod_eq_of_lt ?_)⟩
  have hwidth : 8 + 1 ≤ 2 ^ (Fld.hbmStatCacheRows.hi + 1 - Fld.hbmStatCacheRows.lo) := by decide
  exact Nat.lt_of_lt_of_le (Nat.succ_lt_succ hroom) hwidth

/-- Else its page is reported (R263). -/
theorem State.holdRow_reported (hroom : ¬(s.hbm k).cached.length < 8) : (s.holdRow k row pa).mem = s.mem ∧
    (s.holdRow k row pa).hbm k = s.hbm k ∧ (s.holdRow k row pa).retired = s.retired ++ [pa / 0x10000 * 0x10000] ∧
    (s.holdRow k row pa).flag (Reg.hbmStat k) Fld.hbmStatDegraded = true ∧
    (s.holdRow k row pa).reg Reg.hbmRetireCnt = (s.reg Reg.hbmRetireCnt + 1) % 2 ^ 32 := by
  have hheld : s.holdRow k row pa = ({ s with retired := s.retired ++ [pa / 0x10000 * 0x10000] }.bump Reg.hbmRetireCnt).setFld
      (Reg.hbmStat k) Fld.hbmStatDegraded 1 := if_neg hroom
  rw [hheld]
  refine ⟨rfl, rfl, rfl, ?_, ?_⟩
  · rw [State.flag, State.setFld_fld _ _ _ (by decide)]
    rfl
  · exact (State.setReg_reg_ne _ _ (by unfold Reg.hbmStat Reg.hbmRetireCnt; omega)).trans (State.bump_reg _ _)

/-! ## Recalibration (R260) -/

/-- The interface of a stack has been recalibrated in the frame. -/
def State.recalibrate (s : State) (k : Nat) : State :=
  (s.setHbm k { s.hbm k with calFrame := s.frame + 1 }).bump (Reg.hbmCalCnt k)

theorem hbmRecalibrate_runs (hup : s.up 3 = true) (hwindow : s.windowOpen = true) (hleft : 1000000 * subUnit ≤ s.windowLeft)
    (hframe : (s.hbm k).calFrame ≠ s.frame + 1) : exec (.hbmRecalibrate (k / 4) (k % 4)) s = .next (s.recalibrate k) := by
  simp only [exec, execHbmRecalibrate, Nat.div_add_mod, hup, hwindow, decide_eq_false (Nat.not_lt.2 hleft), decide_eq_false hframe]
  rfl

/-! ## HBM_CTRL (R240) -/

/-- The word that a write of HBM_CTRL stores, with its INTERLEAVE bit. -/
def interleaveWord (v bit : Nat) : Nat := putBits (putBits (putBits (v % 2 ^ 32) 31 8 0) 3 3 0) 0 0 bit

theorem interleaveWord_fields (v bit : Nat) : bits (interleaveWord v bit % 2 ^ 32) 0 0 = bit % 2 ∧
    bits (interleaveWord v bit % 2 ^ 32) 7 4 = v / 16 % 16 ∧ bits (interleaveWord v bit % 2 ^ 32) 2 2 = v / 4 % 2 ∧
    bits (interleaveWord v bit % 2 ^ 32) 1 1 = v / 2 % 2 := by
  simp only [interleaveWord, putBits, bits_eq_div_mod]
  omega

theorem interleaveWrite_stores (hup : s.up 3 = true) (v : Nat) : exec (.interleaveWrite v) s =
    .next ((s.noteReserved Reg.hbmCtrl v).setReg Reg.hbmCtrl (interleaveWord v
      (if (s.noteReserved Reg.hbmCtrl v).hbmUsed then (s.noteReserved Reg.hbmCtrl v).fld Reg.hbmCtrl Fld.hbmCtrlInterleave
       else v % 2))) := by
  simp only [exec, execInterleaveWrite, hup]
  rfl

/-! ## HBM_UE_ADDR (R265) -/

theorem hbmUeAddr_assigned : ∀ k < 8, (regSpecOf (Reg.hbmUeAddr k)).isNone = false := by decide

theorem hbmUeAddr_latches : ∀ k < 8, (List.range 8).find? (fun j => Reg.hbmUeAddr k = Reg.hbmUeAddr j) = some k := by decide

/-- A register outside of CRW_IDLE_CNT shows what it holds. -/
theorem State.shown_hbm (s : State) (k : Nat) : s.shown (Reg.hbmUeAddr k) = s.reg (Reg.hbmUeAddr k) := by
  have hnone : ((List.range 144).find? fun j => Reg.hbmUeAddr k = Reg.crwIdleCnt j) = none :=
    List.find?_eq_none.2 fun j hj => by
      have hlt := List.mem_range.1 hj
      have hne : Reg.hbmUeAddr k ≠ Reg.crwIdleCnt j := by unfold Reg.hbmUeAddr Reg.crwIdleCnt; omega
      simpa using hne
  rw [State.shown, hnone]

/-- The top bit of the last uncorrectable line of a stack is latched (R265). -/
def State.latchTop (s : State) (k : Nat) : State :=
  (s.setHbm k { s.hbm k with latched := some (s.hbm k).ueTop }).setReg (Reg.hbmUeAddrTop k) (s.hbm k).ueTop.toNat

theorem State.readReg_hbmUeAddr (hup : s.up 3 = true) (hk : k < 8) :
    s.readReg (Reg.hbmUeAddr k) = (s.latchTop k, s.reg (Reg.hbmUeAddr k)) := by
  have hdomain : offDomain (Reg.hbmUeAddr k) = 3 := by
    have hblock : Reg.hbmUeAddr k / 0x100000 = 10 := by unfold Reg.hbmUeAddr; omega
    simp only [offDomain, hblock]
  simp only [State.readReg, State.blockUp, hdomain, hup, hbmUeAddr_assigned k hk, hbmUeAddr_latches k hk, State.shown_hbm]
  rfl

/-! ## The obligation -/

/-- Settles O43. A scrub, a sparing and a recalibration change their controller and its registers; the copy of a row leaves what
repairs are counted by (`State.copyHbmRow_keepsRepairs`). -/
theorem hbmControllersWork : Obligations.HbmControllersWork := by
  intro k s hk hup
  refine ⟨?scrub, ?spare, ?recalibrate, ?interleave, ?ueAddr⟩
  case scrub =>
    intro hwindow hen htrained hmarks hframe
    obtain ⟨hline, hscrub⟩ := s.advanceScrub_hbm k
    refine ⟨_, patrolScrub_advances hup hwindow hen htrained hmarks hframe, s.advanceScrub_eq k, ?_, hscrub,
      s.advanceScrub_passCnt k⟩
    rw [hline, State.advanceScrub_pos]
    exact Nat.div_add_mod _ _
  case spare =>
    intro found resource row pa l hmarked hwindow hen hleft hframe
    have hmem := s.unmarkRow_mem k row l found
    have hrow := s.unmarkRow_marked k row l found
    have hkeep := s.unmarkRow_keepsRepairs k row l found
    refine ⟨_, hbmRowSpare_spares hup hmarked hwindow hen hleft hframe, ?_⟩
    cases resource with
    | true =>
      refine ⟨hmem, hrow, congrArg (· ++ _) hkeep.repairs, (State.bump_reg _ _).trans ?_⟩
      exact congrArg (fun v => (v + 1) % 2 ^ 32) (hkeep.reg _ (hbmRepairReg_spareCnt hk))
    | false =>
      rw [← hkeep.cached k, ← hkeep.retired, ← hkeep.reg Reg.hbmRetireCnt (.inl rfl)]
      generalize s.unmarkRow k row l found = u at hmem hrow
      by_cases hroom : (u.hbm k).cached.length < 8
      · obtain ⟨hmem', hhbm, hrows⟩ := u.holdRow_cached (row := row) (pa := pa) hroom
        simp only [Bool.false_eq_true, if_false, if_pos hroom]
        exact ⟨hmem'.trans hmem, by rw [hhbm]; exact hrow, by rw [hhbm], hrows⟩
      · obtain ⟨hmem', hhbm, hretired, hdegraded, hcnt⟩ := u.holdRow_reported (row := row) (pa := pa) hroom
        simp only [Bool.false_eq_true, if_false, if_neg hroom]
        exact ⟨hmem'.trans hmem, by rw [hhbm, hrow], hretired, hdegraded, hcnt⟩
  case recalibrate =>
    intro hwindow hleft hframe
    refine ⟨_, hbmRecalibrate_runs hup hwindow hleft hframe, rfl, State.bump_reg _ _, ?_⟩
    exact congrArg HbmCtl.calFrame (s.setHbm_hbm k _)
  case interleave =>
    intro v
    have hnote : s.noteReserved Reg.hbmCtrl v = { s with regs := (s.noteReserved Reg.hbmCtrl v).regs } := State.bumpIf_eq _ _ _
    have hold : (s.noteReserved Reg.hbmCtrl v).reg Reg.hbmCtrl = s.reg Reg.hbmCtrl :=
      s.noteReserved_regsBut _ _ _ (by decide)
    have hused : (s.noteReserved Reg.hbmCtrl v).hbmUsed = s.hbmUsed := by rw [hnote]
    have hbit : (if s.hbmUsed then s.fld Reg.hbmCtrl Fld.hbmCtrlInterleave else v % 2) % 2 =
        if s.hbmUsed then s.fld Reg.hbmCtrl Fld.hbmCtrlInterleave else v % 2 := by
      split
      · simp only [State.fld, Fld.hbmCtrlInterleave, bits_eq_div_mod]
        omega
      · exact Nat.mod_mod _ _
    have hexec := interleaveWrite_stores hup v
    rw [hused, State.fld, hold, ← State.fld] at hexec
    obtain ⟨hinterleave, hthresh, hspare, hscrub⟩ := interleaveWord_fields v
      (if s.hbmUsed then s.fld Reg.hbmCtrl Fld.hbmCtrlInterleave else v % 2)
    have hfld (f : Fld) (w : Nat) : ((s.noteReserved Reg.hbmCtrl v).setReg Reg.hbmCtrl w).fld Reg.hbmCtrl f =
        bits (w % 2 ^ 32) f.hi f.lo := by rw [State.fld, State.setReg_reg]
    refine ⟨_, hexec, by rw [hnote]; rfl, ?_, (hfld _ _).trans (hinterleave.trans hbit), (hfld _ _).trans hthresh,
      (hfld _ _).trans hspare, (hfld _ _).trans hscrub⟩
    exact ((s.noteReserved_regsBut _ _).mono (by simp)).trans ((State.setReg_regsBut _ _ _).mono (by simp))
  case ueAddr =>
    have hexec : exec (.hbmUeAddrRead k) s = .next ((s.latchTop k).emit (.readData (s.reg (Reg.hbmUeAddr k)))) := by
      simp only [exec, execHbmUeAddrRead, Nat.mod_eq_of_lt hk, State.readReg_hbmUeAddr hup hk]
    have htop : (s.hbm k).ueTop.toNat % 2 ^ 32 = (s.hbm k).ueTop.toNat := by cases (s.hbm k).ueTop <;> rfl
    refine ⟨_, hexec, rfl, rfl, ?_, (State.setReg_reg _ _ _).trans htop⟩
    exact congrArg HbmCtl.latched (s.setHbm_hbm k _)

end Sys2Proof.Machine
end
